-- ==== Sys2Proof/Word.lean ====
section
/-! DEFINITION. The words of the part: bytes, station addresses, times, and the names the manual gives to the numbers that index its tables. -/

namespace Sys2Proof

/-- One byte of a record on the wire. -/
abbrev Byte := BitVec 8

/-- A 6-byte station address (section 9.1). -/
abbrev Addr := BitVec 48

/-- A point in time or a length of time, in milliseconds. -/
abbrev Time := Nat

/-- A branch position, 0–23 (R1). -/
abbrev Position := Nat

/-- An actuator address, 0–49 (R66). -/
abbrev ActuatorNo := Nat

/-- A drip sense channel number, 0–33 (R114). -/
abbrev ChannelNo := Nat

/-- A job id, 1–255; 0 stands for no job (R142). -/
abbrev JobId := Nat

/-- The distance between two numbers. -/
def gap (a b : Nat) : Nat := (a - b) + (b - a)

end Sys2Proof
end

