-- ==== Sys2Proof/Config.lean ====
section
/-! DEFINITION. What is fixed for the part (the sizes of its tables, its fixed times) and the free values, which the manual leaves open: constants with no body, of which nothing can be proved. -/

namespace Sys2Proof.Config

/-- The branch positions 0–23, ascending (R1). -/
def positions : List Position := List.range 24

/-- The actuator addresses 0–49, ascending (R66). -/
def actuators : List ActuatorNo := List.range 50

/-- The channel numbers 0–33, ascending (R114). -/
def channels : List ChannelNo := List.range 34

/-- The zones Z0–Z7. -/
def zones : List Nat := List.range 8

/-- The requester table indices 0–31 (R171). -/
def entries : List Nat := List.range 32

/-- The slot of the RACK job, after the eight ordinary slots 0–7 (R142). -/
def rackSlot : Nat := 8

/-- The entry of the base case, after the eight zone entries (R129). -/
def baseEntry : Nat := 8

/-- Capacity of the inbound command queue (R174). -/
def inboundSize : Nat := 16

/-- Capacity of the outbound notice queue (R181). -/
def outboundSize : Nat := 96

/-- Capacity of an evidence list (R130). -/
def evidenceSize : Nat := 34

/-- The largest stamp (R26). -/
def stampMax : Nat := 4294967295

/-- The type field of every frame of the part's protocol (section 9.1). -/
def protocolType : BitVec 16 := 0x9A34#16

/-- The broadcast station address (R169). -/
def broadcast : Addr := 0xFFFFFFFFFFFF#48

/-- The wait for a valve reply, 20 ms (R69). -/
def replyWait : Time := 20

/-- The start timer of a move, 500 ms (R75). -/
def startWait : Time := 500

/-- The move timer of a move, 15 s (R75). -/
def moveWait : Time := 15000

/-- A tracking poll falls due this long after the last transaction (R76). -/
def trackingWait : Time := 100

/-- An idle poll falls due this long after the last transaction (R79). -/
def idleWait : Time := 5000

/-- The retry deadline of UNCONTAINED (R158). -/
def retryWait : Time := 5000

/-- The debounce time of the discrete lines (R147). -/
def debounce : Time := 50

/-- The time between two sample events (R114). -/
def samplePeriod : Time := 100

/-- FREE VALUE: the quotient the part forms where a rule of the manual divides by 0. The manual states no result there
(a ceiling of 0 under a drive above 0, R99 and R102); the rules then hold the value in their own bounds. -/
opaque quotientByZero : Int → Int

/-- FREE VALUE: the vendor code IDENTIFY carries (R185); the manual gives no number. -/
opaque vendorCode : Nat

/-- FREE VALUE: the revision IDENTIFY carries (R185); the manual gives no number. -/
opaque revision : Nat

/-- FREE VALUE: the notice number carried by a COMPLETION to a station that is no longer registered (R178, R181):
only a requester has a notice number, and the manual states none for such a station. -/
opaque unregisteredNumber : Addr → Nat

end Sys2Proof.Config
end

