-- ==== Sys2Proof/Syntax.lean ====
section
/-! DEFINITION. The commands of the part: one constructor for each row of the opcode table, with the operands its rule names. -/

namespace Sys2Proof

/-- What the frame and the header of a command record give beside its body (R169, R170). -/
structure Cmd where
  /-- source address of the frame: the sender -/
  src : Addr
  /-- the time at which the command reaches the link -/
  time : Time
  /-- the URGENT flag of the header -/
  urgent : Bool
  /-- the WANT_REPLY flag of the header -/
  wantReply : Bool
  /-- the tag, echoed by the reply -/
  tag : Byte
  /-- whether the body has a length the command allows (R175, check 3) -/
  lengthOk : Bool
  deriving DecidableEq, Repr

/-- The body of STAGE_BRANCH as it arrives (R51). A control mode is the code of the table of section 3.2:
0 TRACK, 1 FIXED. The entry request may be absent. -/
structure BranchGroup where
  occupied : Bool
  cls : Nat
  floor : Nat
  ceiling : Nat
  entryRequest : Option Nat
  urgentPermitted : Bool
  mode : Nat
  p0 : Nat
  pfull : Nat
  kSupply : Nat
  kReturn : Nat
  deriving DecidableEq, Repr

/-- The timing and detection group of the policy, in the order of the table of section 3.2 (R53).
Deadlines and the measurement window are in ms; the drain delay and the localization window in s. -/
structure Timing where
  cutDeadline : Nat
  warnDeadline : Nat
  drainDelay : Nat
  localizationWindow : Nat
  measurementWindow : Nat
  settleTolerance : Nat
  settleCount : Nat
  dryWindows : Nat
  imbalanceThreshold : Nat
  imbalanceWindows : Nat
  deriving DecidableEq, Repr

/-- The body of STAGE_SUPPLY as it arrives (R53). The unguarded cap is the code 0 on, 1 off and the polarity the code
0 HIGH, 1 LOW, in the order the table of section 3.2 lists them. -/
structure SupplyGroup where
  reserve : Nat
  assumed : Nat
  ageing : Nat
  unguardedCap : Nat
  hallEnable : Bool
  hallPolarity : Nat
  deriving DecidableEq, Repr

/-- A frame as it arrives on the port (section 9.1): addresses, type field, and the bytes of its record. -/
structure RawFrame where
  dest : Addr
  src : Addr
  etype : BitVec 16
  payload : List Byte
  deriving DecidableEq, Repr

/-- One sample of one channel: the wetness code and the continuity or presence bit (section 6.1). -/
structure Sample where
  code : Nat
  sound : Bool
  deriving DecidableEq, Repr

/-- The flags an actuator reports (R67). -/
structure ActuatorFlags where
  moving : Bool
  atClosed : Bool
  atOpen : Bool
  overtorque : Bool
  deriving DecidableEq, Repr

/-- A reply on the valve bus: the actuator it names, whether its check value agrees, position and flags (section 4.2). -/
structure ValveReply where
  actuator : ActuatorNo
  checkOk : Bool
  position : Nat
  flags : ActuatorFlags
  deriving DecidableEq, Repr

/-- The two discrete lines. -/
inductive LineName where
  | hall
  | commissioning
  deriving DecidableEq, Repr

/-- The level of a discrete line. -/
inductive Level where
  | low
  | high
  deriving DecidableEq, Repr

/-- The commands and events of the part, one constructor per row of the opcode table and in its order. The first 42 are
the commands of the control link, numbered 1–42 by R170; the others are the events that reach the blocks. An event whose
time is set by a deadline of the part carries no time; one made by the world outside carries its time `t`. -/
inductive Instr where
  | flowRequest (c : Cmd) (flow : Nat) (urgent : Bool)
  | flowRelease (c : Cmd)
  | cutAck (c : Cmd)
  | declareSupply (c : Cmd) (supply : Nat)
  | stageBranch (c : Cmd) (position : Nat) (group : BranchGroup)
  | stageZone (c : Cmd) (zone : Nat) (extent : Option (Nat × Nat))
  | stageChannelClass (c : Cmd) (cls : Nat) (threshold : Nat) (confirm : Nat)
  | stageTiming (c : Cmd) (group : Timing)
  | stageSupply (c : Cmd) (group : SupplyGroup)
  | applyPolicy (c : Cmd)
  | discardStaged (c : Cmd)
  | savePolicy (c : Cmd)
  | enterMaintenance (c : Cmd) (position : Nat)
  | leaveMaintenance (c : Cmd) (position : Nat)
  | trimOnce (c : Cmd) (position : Nat)
  | serviceMove (c : Cmd) (actuator : Nat) (position : Nat)
  | curveVerify (c : Cmd) (position : Nat)
  | busClear (c : Cmd)
  | maskChannel (c : Cmd) (channel : Nat)
  | unmaskChannel (c : Cmd) (channel : Nat)
  | startDrill (c : Cmd) (channel : Nat) (windows : Nat)
  | cancelDrill (c : Cmd)
  | warnAck (c : Cmd)
  | releaseIsolation (c : Cmd) (position : Nat)
  | releaseTrunk (c : Cmd)
  | identify (c : Cmd)
  /-- `role` is the code 0 SUPPLY, 1 RACK, 2 SERVER, 3 SERVICE (R171); bit k of `mask` selects kind k + 1 -/
  | bindRequester (c : Cmd) (addr : Addr) (role : Nat) (branch : Option Nat) (mask : Option (BitVec 16))
  | unbindRequester (c : Cmd) (entry : Nat)
  | setNotices (c : Cmd) (mask : BitVec 16)
  /-- `mode` is the code 0 OFF, 1 STREAM, 2 SNAPSHOT, 3 COUNTED (R184); `count` is n of COUNTED(n) -/
  | setTelemetry (c : Cmd) (mode : Nat) (count : Nat)
  | restart (c : Cmd)
  | readBranches (c : Cmd)
  | readSupply (c : Cmd)
  | readPending (c : Cmd)
  /-- `copy` is the code 0 staged, 1 active (R65) -/
  | readPolicy (c : Cmd) (copy : Nat)
  | readActuators (c : Cmd)
  | readVerify (c : Cmd)
  | readChannels (c : Cmd)
  | readCases (c : Cmd)
  | readJobs (c : Cmd)
  | readDrillReport (c : Cmd)
  | readRequesters (c : Cmd)
  | frameArrival (t : Time) (frame : RawFrame)
  | frameSent (t : Time)
  | portLinkChange (t : Time) (up : Bool)
  | supplyAgeingExpiry
  | cutDeadlineExpiry (position : Nat)
  | measurementWindowExpiry
  /-- `meter` 0–23 is the supply meter of that position, 24–47 the return meter of position `meter` − 24 -/
  | meterPulse (t : Time) (meter : Nat)
  | senseSampleEvent (samples : List Sample)
  | senseWindowEnd (samples : List Sample)
  /-- `entry` 0–7 is the case of that zone, 8 the base case -/
  | caseDeadlineExpiry (entry : Nat)
  | jobPhaseDeadlineExpiry (job : Nat)
  | uncontainedRetryExpiry (job : Nat)
  | drainDeadlineExpiry (job : Nat)
  | simulateDeadlineExpiry (job : Nat)
  | lineLevelChange (t : Time) (line : LineName) (level : Level)
  | lineDebounceExpiry (line : LineName)
  | valveReply (t : Time) (reply : ValveReply)
  | valveReplyTimeout
  | startTimerExpiry (actuator : Nat)
  | moveTimerExpiry (actuator : Nat)
  | trackingPollDue (actuator : Nat)
  | idlePollDue (actuator : Nat)
  /-- `ok`: the read-back check of the written slot passes (R188) -/
  | holdWriteEnd (t : Time) (ok : Bool)
  /-- `ok`: the read-back check of the written slot passes (R187) -/
  | saveWriteEnd (t : Time) (ok : Bool)
  | powerOn (t : Time)
  /-- `imageWritten`: what a policy image write cut short by the reset has left, a complete slot or an invalid one (R187) -/
  | restartReset (t : Time) (imageWritten : Bool)
  | stopSent (t : Time)
  /-- `imageWritten`: as for RESTART_RESET (R186) -/
  | powerLoss (t : Time) (imageWritten : Bool)
  deriving DecidableEq, Repr

end Sys2Proof
end

