-- ==== Sys2Proof/Decode.lean ====
section
/-! DEFINITION. The decoder of the opcode table: the part has no instruction words, and no row of the table gives bits. -/

namespace Sys2Proof

/-- The command that a word spells by the table's bits. The table gives no row any bits: commands reach the part as
records in frames (see `Sys2Proof.Machine.commandOf`), so no word spells one. -/
def decodeTableWord (nbits w : Nat) : Option Instr := match nbits, w with
  | _, _ => none

end Sys2Proof
end

