-- ==== Sys2Proof/Machine/State.lean ====
section
/-! DEFINITION. The state of the part as plain data: every record, queue, counter, timer and pin the manual names, block by block, the outcomes of a step, and the state right after reset. -/

namespace Sys2Proof.Machine

/-! ### Outcomes -/

/-- Why the part stops. The manual lets nothing stop it. -/
inductive Fault where
  /-- Raised by an event that names a unit the part does not have (a meter above 47, an actuator above 49, a position
  above 23, a case entry above 8) or that does not carry 34 samples. Safe: no hardware makes such an event. -/
  | noSuchUnit
  deriving DecidableEq, Repr

/-- Why the model gives a command no meaning. -/
inductive Refusal where
  /-- Raised by `exec` for a command that has no meaning yet. Safe: no claim can rest on it. -/
  | notModelled (mnemonic : String)
  deriving DecidableEq, Repr

/-! ### Names -/

/-- The six states of a branch (R10). -/
inductive BranchState where
  | vacant | held | active | maintenance | isolating | isolated
  deriving DecidableEq, Repr

/-- Control mode of a branch (R101, R102). -/
inductive ControlMode where
  | track | fixed
  deriving DecidableEq, Repr

/-- Guard level of a branch (R8). -/
inductive Guard where
  | guarded | partialGuard | unguarded
  deriving DecidableEq, Repr

/-- State of the supply record (R21). -/
inductive SupplyState where
  | undeclared | fresh | stale
  deriving DecidableEq, Repr

/-- Fault code of an actuator (R67). -/
inductive FaultCode where
  | none | noReply | missedStart | stall | drift
  deriving DecidableEq, Repr

/-- The kind of client whose move was last sent to an actuator (R67). -/
inductive Owner where
  | flow | iso | svc | verify
  deriving DecidableEq, Repr

/-- State of a channel (section 6.2). -/
inductive ChannelState where
  | dry | suspect | wet | fault | masked
  deriving DecidableEq, Repr

/-- Class of a channel (section 6.1). -/
inductive ChannelClass where
  | rope | tray | base
  deriving DecidableEq, Repr

/-- Role of a requester (R171). -/
inductive Role where
  | supply | rack | server | service
  deriving DecidableEq, Repr

/-- Telemetry mode of a requester (R184). -/
inductive Telemetry where
  | off | stream | snapshot | counted (n : Nat)
  deriving DecidableEq, Repr

/-- Level of a job or a request (R132, R142). -/
inductive JobLevel where
  | branch | zone | rack
  deriving DecidableEq, Repr

/-- Phase of a job (section 8.4). -/
inductive Phase where
  | notify | closeSupply | drain | closeReturn | confirm | hold | uncontained | simulate
  deriving DecidableEq, Repr

/-- Warning of a target (section 8.1). -/
inductive Warning where
  | none | opened | acked | expired
  deriving DecidableEq, Repr

/-- Result of a close (section 8.1). -/
inductive Close where
  | pending | ok | failed (f : FaultCode)
  deriving DecidableEq, Repr

/-- Confirmation of a target (R159). -/
inductive Confirmation where
  | none | confirmed | supplyPosition | returnPosition | flow
  deriving DecidableEq, Repr

/-- What caused a job (section 8.1). -/
inductive Origin where
  | channel (c : ChannelNo) | position (p : Position) | hallLine | restored
  deriving DecidableEq, Repr

/-- Status of a reply or a COMPLETION (R176). -/
inductive Status where
  | done | doneWarn | pending | refused | late | failed | aborted
  deriving DecidableEq, Repr

/-- Reason of a refusal (R176), in the manual's order. -/
inductive Reason where
  | none | notRegistered | role | branchState | range | busy | queueFull | noBudget | isolating | wetStill | notFound
  | format | refusedReserved
  deriving DecidableEq, Repr

/-! ### Policy (chapter 3) -/

/-- The limits and curve of a branch: the policy fields that an apply copies into its record (R2). -/
structure Limits where
  cls : Nat
  floor : Nat
  ceiling : Nat
  entryRequest : Nat
  urgentPermitted : Bool
  mode : ControlMode
  p0 : Nat
  pfull : Nat
  kSupply : Nat
  kReturn : Nat
  deriving DecidableEq, Repr

/-- The per-branch group of the policy (section 3.2). -/
structure BranchPolicy where
  occupied : Bool
  limits : Limits
  deriving DecidableEq, Repr

/-- Wet threshold and confirm count K of a channel class (R52). -/
structure ClassPolicy where
  threshold : Nat
  confirm : Nat
  deriving DecidableEq, Repr

/-- The supply group of the policy (R53). -/
structure SupplyPolicy where
  reserve : Nat
  assumed : Nat
  ageing : Nat
  unguardedCap : Bool
  hallEnable : Bool
  hallPolarity : Level
  deriving DecidableEq, Repr

/-- One copy of the policy (section 3.2). -/
structure Policy where
  branches : List BranchPolicy
  zones : List (Option (Nat × Nat))
  rope : ClassPolicy
  tray : ClassPolicy
  base : ClassPolicy
  timing : Timing
  supply : SupplyPolicy
  deriving DecidableEq, Repr

/-- The code of an apply result record (R63). -/
inductive ApplyCode where
  | floorAboveCeiling | curveOrder | zoneOrder | zoneOverlap | floorSumOverBudget | branchUncovered
  deriving DecidableEq, Repr

/-- Result of the last apply that reached validation (R63). -/
inductive ApplyOutcome where
  | none | done | doneWarn | refused
  deriving DecidableEq, Repr

/-- The apply result record (R63). The warning set is a list of at most the two warnings. -/
structure ApplyResult where
  result : ApplyOutcome
  code : Option ApplyCode
  index : Option Nat
  warnings : List ApplyCode
  time : Option Time
  deriving DecidableEq, Repr

/-- The derived values of the policy (R59). -/
structure Derived where
  floorSum : Nat
  margin : Int
  zoneMembers : List (List Position)
  uncovered : List Position
  deriving DecidableEq, Repr

/-- The policy unit. -/
structure PolicyUnit where
  staged : Policy
  active : Policy
  dirty : Bool
  maskSet : List ChannelNo
  applied : ApplyResult
  derived : Derived
  deriving DecidableEq, Repr

/-! ### Branch table and flow measurement (chapters 1 and 5) -/

/-- One meter: pulse count of the window, fault mark, silent and live runs (R94, R108). -/
structure Meter where
  pulses : Nat
  marked : Bool
  silentRun : Nat
  liveRun : Nat
  deriving DecidableEq, Repr

/-- A pending cut (R36). -/
structure PendingCut where
  newDrive : Nat
  deadline : Time
  deriving DecidableEq, Repr

/-- A trim record (R105). -/
structure Trim where
  issuer : Addr
  tag : Byte
  windows : Nat
  deriving DecidableEq, Repr

/-- One branch record (section 1.1), with what the flow measurement unit keeps for the branch. -/
structure Branch where
  state : BranchState
  limits : Limits
  trimOffset : Int
  guardLevel : Guard
  effCeiling : Nat
  zone : Option Nat
  request : Nat
  urgent : Bool
  stamp : Option Nat
  grant : Nat
  drive : Nat
  cut : Option PendingCut
  riseWaiting : Bool
  overdue : Nat
  draw : Nat
  measuredSupply : Nat
  measuredReturn : Nat
  settled : Bool
  settleRun : Nat
  driveChanged : Bool
  controlTarget : Option Nat
  trim : Option Trim
  valveFault : Bool
  meterFault : Bool
  returnOpen : Bool
  supplyMeter : Meter
  returnMeter : Meter
  imbalance : Bool
  imbalanceRun : Nat
  clearRun : Nat
  boundTo : Option Nat
  job : JobId
  latched : Bool
  maint : Bool
  deriving DecidableEq, Repr

/-- The common measurement window (R94). -/
structure Window where
  counter : Nat
  deadline : Time
  length : Nat
  deriving DecidableEq, Repr

/-! ### Grant arbiter (chapter 2) -/

/-- The supply record (R21). -/
structure SupplyRecord where
  state : SupplyState
  declared : Nat
  lastAt : Option Time
  deadline : Option Time
  deriving DecidableEq, Repr

/-- The grant arbiter (R47). -/
structure Arbiter where
  supply : SupplyRecord
  nextStamp : Nat
  standing : List Position
  queue : List Position
  shortfall : Bool
  lastTargets : Nat
  deriving DecidableEq, Repr

/-! ### Valve bus controller (chapter 4) -/

/-- Who is told how a move ends (R72). The isolation sequencer is a client for a job's closes and, outside any job, for
the opening moves of RELEASE_TRUNK (R163); `nobody` is a client that already holds its report. -/
inductive Client where
  | nobody | flow | iso (job : JobId) | trunkOpening | service | verify | verifyClosing
  deriving DecidableEq, Repr

/-- A move in progress (R75–R78). -/
structure Move where
  target : Nat
  client : Client
  started : Bool
  startTimer : Option Time
  moveTimer : Time
  sentAt : Time
  deriving DecidableEq, Repr

/-- The shadow record of an actuator (R67), with the move in progress on it and the start reference of the move last
sent, which stays in the shadow when that move ends (R75, R76). -/
structure Actuator where
  present : Bool
  position : Option Nat
  target : Option Nat
  startRef : Option Nat
  moving : Bool
  flags : ActuatorFlags
  fault : FaultCode
  reservedBy : JobId
  owner : Option Owner
  lastTx : Option Time
  move : Option Move
  deriving DecidableEq, Repr

/-- A waiting MOVE claim (R70); its class is the queue it stands in. -/
structure Claim where
  actuator : ActuatorNo
  target : Nat
  client : Client
  madeAt : Time
  deriving DecidableEq, Repr

/-- A waiting POLL claim (R70): an idle poll or a survey poll (R79). -/
structure PollClaim where
  actuator : ActuatorNo
  survey : Bool
  madeAt : Time
  deriving DecidableEq, Repr

/-- What a transaction asks (R69), with the kind of poll. -/
inductive Request where
  | move (target : Nat) | tracking | idle | survey | clear
  deriving DecidableEq, Repr

/-- The transaction on the line (R69): `attempt` is 1 or 2. -/
structure Transaction where
  actuator : ActuatorNo
  request : Request
  attempt : Nat
  sentAt : Time
  deriving DecidableEq, Repr

/-- The line (R69). -/
inductive Line where
  | free | busy (t : Transaction) | stopping
  deriving DecidableEq, Repr

/-- A BUS_CLEAR in progress (R83): whether its STOP has been sent, and the clear polls still to end. -/
structure Clearing where
  stopSent : Bool
  polls : List ActuatorNo
  deriving DecidableEq, Repr

/-- Why a verify was aborted (R92). -/
inductive VerifyAbort where
  | busClear | isolation | supplyFall
  deriving DecidableEq, Repr

/-- Status of the curve-verify record (R93). -/
inductive VerifyStatus where
  | none | running | passed | mismatch | fault (f : FaultCode) | aborted (r : VerifyAbort)
  deriving DecidableEq, Repr

/-- Where a running verify stands (R89): its return move, the move to stop k, the window skipped at stop k, the window
measured at stop k. -/
inductive VerifyStep where
  | openReturn | moving (k : Nat) | skipping (k : Nat) | measuring (k : Nat)
  deriving DecidableEq, Repr

/-- A stop entry (R90). -/
structure StopEntry where
  position : Nat
  expected : Nat
  measured : Nat
  deriving DecidableEq, Repr

/-- The curve-verify record (R93). -/
structure Verify where
  branch : Option Position
  status : VerifyStatus
  ceiling : Nat
  p0 : Nat
  pfull : Nat
  tolerance : Nat
  entries : List StopEntry
  frozen : Option Nat
  step : VerifyStep
  deriving DecidableEq, Repr

/-- The closing moves of a verify that has ended (R91). -/
structure Closing where
  branch : Position
  returnSide : Bool
  deriving DecidableEq, Repr

/-- The service move in flight (R87). -/
structure ServiceMove where
  actuator : ActuatorNo
  position : Nat
  deriving DecidableEq, Repr

/-- An end report (R72) or the report of a fault an idle poll found (R80). -/
inductive ReportKind where
  | complete | failed (f : FaultCode) | superseded | aborted | refusedReserved | drift | noReply
  deriving DecidableEq, Repr

/-- A report on its way to a client. -/
structure Report where
  client : Client
  actuator : ActuatorNo
  kind : ReportKind
  deriving DecidableEq, Repr

/-- The valve bus controller. -/
structure Bus where
  actuators : List Actuator
  isoQ : List Claim
  flowQ : List Claim
  svcQ : List Claim
  pollQ : List PollClaim
  trackDue : List ActuatorNo
  line : Line
  clearing : Option Clearing
  service : Option ServiceMove
  verify : Verify
  closing : Option Closing
  reports : List Report
  deriving DecidableEq, Repr

/-! ### Drip sense (chapter 6) -/

/-- A channel record (section 6.2); `sitOut` marks a channel unmasked in the window in progress (R122). -/
structure Channel where
  state : ChannelState
  samples : Nat
  above : Nat
  realAbove : Nat
  dryRun : Nat
  lostRun : Nat
  onsets : Nat
  injected : Nat
  injectPending : Bool
  drill : Bool
  last : Option Sample
  sitOut : Bool
  deriving DecidableEq, Repr

/-- The drip sense unit: channels, samples taken in the window in progress, whether a window is in progress, next sample
event, last window end. The first window begins with start-up, each later one at the sample event after a window end (R114). -/
structure Sense where
  channels : List Channel
  index : Nat
  inWindow : Bool
  nextAt : Time
  lastEnd : Time
  deriving DecidableEq, Repr

/-! ### Localization (chapter 7) -/

/-- What an evidence entry names (R130). -/
inductive EvidenceItem where
  | channel (c : ChannelNo) | imbalance (p : Position)
  deriving DecidableEq, Repr

/-- An evidence entry with the drill mark of the onset that added it (R130). -/
structure Evidence where
  item : EvidenceItem
  drill : Bool
  deriving DecidableEq, Repr

/-- An open case (section 7.1); its kind is its place in the table. -/
structure Case where
  candidates : List Position
  deadline : Time
  openedBy : ChannelNo
  drill : Bool
  evidence : List Evidence
  deriving DecidableEq, Repr

/-! ### Isolation sequencer (chapter 8) -/

/-- A target of a job with its warning, close results and confirmation (section 8.1). -/
structure Target where
  pos : Position
  warning : Warning
  supply : Close
  ret : Close
  confirm : Confirmation
  deriving DecidableEq, Repr

/-- Close results of the trunk, present while trunk is yes (section 8.1). -/
structure Trunk where
  supply : Close
  ret : Close
  deriving DecidableEq, Repr

/-- A job (section 8.1). `armed`: the first whole window after the entry to CONFIRM is in progress (R159). -/
structure Job where
  id : JobId
  level : JobLevel
  origin : Origin
  drill : Bool
  targets : List Target
  trunk : Option Trunk
  phase : Phase
  deadline : Option Time
  drainDelay : Option Nat
  quarantine : Nat
  evidence : List Evidence
  createdAt : Time
  armed : Bool
  deriving DecidableEq, Repr

/-- Status of the drill report (R167). -/
inductive DrillStatus where
  | none | running | complete | cancelled | preempted
  deriving DecidableEq, Repr

/-- Outcome of a drill target (R167). -/
inductive DrillOutcome where
  | acked | noServer | missed | preempted
  deriving DecidableEq, Repr

/-- Entry of the drill report; a latency once recorded is kept under PREEMPTED (R166). -/
structure DrillEntry where
  pos : Position
  outcome : Option DrillOutcome
  latency : Option Nat
  deriving DecidableEq, Repr

/-- The drill report (R167). -/
structure DrillReport where
  id : JobId
  level : JobLevel
  origin : Origin
  status : DrillStatus
  entries : List DrillEntry
  deriving DecidableEq, Repr

/-- The isolation sequencer: slots 0–7 and the rack slot 8, last id issued, drill report. -/
structure Sequencer where
  slots : List (Option Job)
  lastId : JobId
  report : DrillReport
  deriving DecidableEq, Repr

/-! ### Control link (chapter 9) -/

/-- An entry of the requester table (R171). Bit k of the mask selects notice kind k + 1. -/
structure Requester where
  addr : Addr
  role : Role
  branch : Option Position
  mask : BitVec 16
  telemetry : Telemetry
  number : Nat
  deriving DecidableEq, Repr

/-- Cause of a SUPPLY_ALERT (R46). -/
inductive AlertCause where
  | staleEntered | staleEnded | shortfallEntered | shortfallLeft
  deriving DecidableEq, Repr

/-- Cause of BRANCH_SETTLED and BRANCH_UNSETTLED (R98). -/
inductive SettleCause where
  | window | driveChanged | trim
  deriving DecidableEq, Repr

/-- Cause of the drip sense unit's DRIP_STATE (R120). -/
inductive DripCause where
  | window | fault | faultEnded | masked | unmasked | injectionEnded
  deriving DecidableEq, Repr

/-- Event of localization's DRIP_STATE (R141). -/
inductive CaseEvent where
  | opened | narrowed | expired | absorbed | direct | emptyZone | noTarget | cancelled
  deriving DecidableEq, Repr

/-- Kind of an event that the drip sense unit or the flow measurement unit hands to localization (R111, R117). -/
inductive EdgeKind where
  | onset | clear
  deriving DecidableEq, Repr

/-- An onset or a clear event of a channel (R117): the counts are those of the window that caused it, the onset count
that after the event. -/
structure ChannelEvent where
  channel : ChannelNo
  cls : ChannelClass
  kind : EdgeKind
  drill : Bool
  above : Nat
  realAbove : Nat
  onsets : Nat
  deriving DecidableEq, Repr

/-- A fault event of a channel (R118), with the state the channel left. -/
structure FaultEvent where
  channel : ChannelNo
  cls : ChannelClass
  left : ChannelState
  deriving DecidableEq, Repr

/-- An imbalance onset or clear event of a branch (R111): the flows and the window counter are those of the expiry. -/
structure ImbalanceEvent where
  pos : Position
  kind : EdgeKind
  supply : Nat
  ret : Nat
  counter : Nat
  deriving DecidableEq, Repr

/-- Kind of a case (section 7.1). -/
inductive CaseKind where
  | zone (z : Nat) | base
  deriving DecidableEq, Repr

/-- A request to the sequencer (R132). -/
structure IsoRequest where
  level : JobLevel
  drill : Bool
  origin : Origin
  targets : List Position
  evidence : List Evidence
  deriving DecidableEq, Repr

/-- Member of the faults set of a branch (R5). -/
inductive FaultMember where
  | valveFault | meterFault | returnOpen
  deriving DecidableEq, Repr

/-- Which meter of a branch (R108). -/
inductive MeterSide where
  | supply | ret
  deriving DecidableEq, Repr

/-- A kind of long command; a trim names its branch (R178). -/
inductive LongKind where
  | save | trim (p : Position) | service | verify
  deriving DecidableEq, Repr

/-- Why a service move was aborted, in the order of the table of R87: superseded, aborted from the bus, BUS_CLEAR,
revocation, the branch joining a job. -/
inductive ServiceAbort where
  | superseded | aborted | busClear | revoked | joined
  deriving DecidableEq, Repr

/-- Why a trim was cancelled, in the order of R107: its branch left ACTIVE, or an apply changed its curve or mode. -/
inductive TrimAbort where
  | leftActive | policyChanged
  deriving DecidableEq, Repr

/-- Why a long command was aborted: each kind of command has the causes of its own rule (R87, R92, R107). -/
inductive AbortCause where
  | service (c : ServiceAbort) | verify (c : VerifyAbort) | trim (c : TrimAbort)
  deriving DecidableEq, Repr

/-- The result a COMPLETION carries (R87, R91, R106, R107, R187). -/
inductive CompletionBody where
  | saved (sequence : Nat)
  | saveFailed
  | trimmed (offset : Int) (windows : Nat)
  | trimFailed (windows : Nat)
  | moved (position : Option Nat)
  | moveFailed (f : FaultCode)
  | verifyPassed
  | verifyMismatch (stop expected measured : Nat)
  | verifyFault (f : FaultCode)
  | aborted (cause : AbortCause)
  deriving DecidableEq, Repr

/-- Cause of a start-up (R192). -/
inductive StartCause where
  | powerOn | restart
  deriving DecidableEq, Repr

/-- What start-up found, as the STARTUP notice carries it (R192), and the survey polls not yet done. The sequence number of an
image or a hold record that was not loaded is none: the model's choice (log 77). -/
structure Boot where
  cause : StartCause
  stored : Bool
  imageSequence : Option Nat
  holdValid : Bool
  holdSequence : Option Nat
  restored : Option (JobLevel × List Position)
  inMaintenance : List Position
  survey : Option (List ActuatorNo)
  deriving DecidableEq, Repr

/-- One branch of a telemetry entry (R112). -/
structure TelemetryBranch where
  state : BranchState
  settled : Bool
  grant : Nat
  drive : Nat
  supply : Nat
  ret : Nat
  deriving DecidableEq, Repr

/-- What GRANT_CHANGED carries (R44). The pending cut is its new drive and the time to its deadline. -/
structure GrantNotice where
  pos : Position
  state : BranchState
  request : Nat
  target : Nat
  grant : Nat
  drive : Nat
  cut : Option (Nat × Time)
  shortfall : Bool
  deriving DecidableEq, Repr

/-- What BRANCH_SETTLED and BRANCH_UNSETTLED carry (R98). -/
structure SettleNotice where
  pos : Position
  cause : SettleCause
  drive : Nat
  supply : Nat
  ret : Nat
  counter : Nat
  deriving DecidableEq, Repr

/-- What the drip sense unit's DRIP_STATE carries (R120). -/
structure ChannelNotice where
  channel : ChannelNo
  cls : ChannelClass
  before : ChannelState
  after : ChannelState
  cause : DripCause
  drill : Bool
  onsets : Nat
  watched : List Position
  deriving DecidableEq, Repr

/-- What localization's DRIP_STATE carries (R141). -/
structure CaseNotice where
  event : CaseEvent
  kind : Option CaseKind
  drill : Bool
  candidates : List Position
  evidence : List Evidence
  timeLeft : Option Time
  request : Option (JobLevel × Origin × List Position)
  deriving DecidableEq, Repr

/-- What SUPPLY_ALERT carries (R46). -/
structure AlertNotice where
  cause : AlertCause
  state : SupplyState
  supply : Nat
  budget : Nat
  quarantined : Nat
  draws : Nat
  available : Nat
  floors : Nat
  deriving DecidableEq, Repr

/-- What POLICY_APPLIED carries (R62). -/
structure AppliedNotice where
  result : ApplyOutcome
  warnings : List ApplyCode
  uncovered : Option Position
  floorSum : Nat
  margin : Int
  changes : List (Position × BranchState)
  shortfall : Option AlertCause
  deriving DecidableEq, Repr

/-- A notice: its kind and its body (R179). DRIP_STATE has two bodies, one of each unit that sends it. -/
inductive Notice where
  | grantChanged (n : GrantNotice)
  | cutWarn (pos : Position) (drive newDrive : Nat) (timeLeft : Time) (grant : Nat)
  | isolateWarn (pos : Position) (job : JobId) (level : JobLevel) (origin : Origin) (drill : Bool) (timeLeft : Time)
  | isolationDone (job : Job) (clean : Bool)
  | uncontained (job : JobId) (contained : Bool) (failed : List (ActuatorNo × FaultCode)) (quarantine : Nat)
      (targets : List Position)
  | settled (n : SettleNotice)
  | unsettled (n : SettleNotice)
  | dripChannel (n : ChannelNotice)
  | dripCase (n : CaseNotice)
  | branchFault (pos : Position) (member : FaultMember) (meter : Option MeterSide)
  | supplyAlert (n : AlertNotice)
  | demand (targets grants floors : Nat) (shortfall : Bool)
  | policyApplied (n : AppliedNotice)
  | completion (long : LongKind) (status : Status) (body : CompletionBody)
  | startup (boot : Boot) (absent : Nat)
  | telemetry (counter : Nat) (branches : List TelemetryBranch)
  deriving DecidableEq, Repr

/-- An entry of the outbound queue (R181): notice, tag of a COMPLETION, recipients with their notice numbers, and how
many recipients its frame has been sent to. -/
structure OutEntry where
  notice : Notice
  tag : Byte
  recipients : List (Addr × Nat)
  served : Nat
  deriving DecidableEq, Repr

/-- A branch record as READ_BRANCHES returns it (section 9.9). -/
structure BranchView where
  pos : Position
  branch : Branch
  target : Nat
  cutLeft : Option Time
  counter : Nat
  deriving DecidableEq, Repr

/-- What READ_SUPPLY returns (R21). -/
structure SupplyView where
  state : SupplyState
  declared : Nat
  sinceDeclared : Option Time
  ageingLeft : Time
  supply : Nat
  reserve : Nat
  budget : Nat
  quarantined : Nat
  draws : Nat
  available : Nat
  floors : Nat
  targets : Nat
  grants : Nat
  drives : Nat
  room : Int
  shortfall : Bool
  deriving DecidableEq, Repr

/-- An entry of READ_PENDING (R30). -/
structure PendingView where
  pos : Position
  cls : Nat
  urgent : Bool
  stamp : Option Nat
  target : Nat
  grant : Nat
  drive : Nat
  riseWaiting : Bool
  deriving DecidableEq, Repr

/-- The shared groups of READ_POLICY, after the branch groups (R65). -/
structure PolicyView where
  zones : List (Option (Nat × Nat))
  rope : ClassPolicy
  tray : ClassPolicy
  base : ClassPolicy
  timing : Timing
  supply : SupplyPolicy
  dirty : Bool
  maskSet : List ChannelNo
  applied : ApplyResult
  sinceApply : Option Time
  derived : Derived
  deriving DecidableEq, Repr

/-- A shadow record as READ_ACTUATORS returns it (R68). -/
structure ActuatorView where
  number : ActuatorNo
  shadow : Actuator
  sinceTx : Option Time
  moveTarget : Option Nat
  sinceMove : Option Time
  deriving DecidableEq, Repr

/-- A channel record as READ_CHANNELS returns it (R128). -/
structure ChannelView where
  number : ChannelNo
  cls : ChannelClass
  channel : Channel
  policy : ClassPolicy
  sinceEnd : Time
  watched : List Position
  deriving DecidableEq, Repr

/-- A case as READ_CASES returns it (R129). -/
structure CaseView where
  kind : CaseKind
  case : Case
  timeLeft : Time
  deriving DecidableEq, Repr

/-- The present state of what an evidence entry names (R143): a channel's state and drill mark, or a branch's imbalance
flag and runs. -/
inductive EvidenceNow where
  | channel (state : ChannelState) (drill : Bool)
  | imbalance (flag : Bool) (run clearRun : Nat)
  deriving DecidableEq, Repr

/-- A job as READ_JOBS returns it (R143). -/
structure JobView where
  slot : Nat
  job : Job
  timeLeft : Option Time
  evidence : List (Evidence × EvidenceNow)
  dry : Bool
  deriving DecidableEq, Repr

/-- What IDENTIFY returns (R185). -/
structure Identity where
  vendor : Nat
  part : Nat
  revision : Nat
  addr : Addr
  branches : Nat
  actuators : Nat
  channels : Nat
  ordinarySlots : Nat
  rackSlots : Nat
  entries : Nat
  sender : Option (Nat × Role)
  commissioning : Level
  deriving DecidableEq, Repr

/-- Why evidence is not dry (R162): the first entry that is not dry, or the origin condition. -/
inductive WetCause where
  | entry (e : Evidence) | origin
  deriving DecidableEq, Repr

/-- The body of one reply record. -/
inductive ReplyBody where
  | empty
  | flow (request target grant drive : Nat)
  | supplyAnswer (supply budget available : Nat)
  | ordinal (field : Nat)
  | applyCode (code : Option ApplyCode) (index : Option Nat)
  | clearCount (n : Nat)
  | drillStart (ms : Time)
  | wet (cause : WetCause)
  | position (p : Position)
  | entry (index : Nat)
  | noEntry
  | mask (m : BitVec 16)
  | identity (i : Identity)
  | branches (l : List BranchView)
  | supply (v : SupplyView)
  | pending (l : List PendingView)
  | policyBranches (first : Position) (l : List BranchPolicy)
  | policy (v : PolicyView)
  | actuators (l : List ActuatorView)
  | busState (l : List ActuatorView) (iso flow svc poll : Nat) (clearing : Bool)
  | verify (v : Verify)
  | channels (l : List ChannelView)
  | cases (l : List CaseView)
  | job (v : JobView)
  | drillReport (r : DrillReport)
  | requesters (first : Nat) (l : List (Option Requester)) (commissioning : Level)
  deriving DecidableEq, Repr

/-- A reply frame handed to the transmitter (R176, R183). `ofTaken`: it answers a command taken from the inbound queue,
so the link waits for it before it takes the next (R174). -/
structure ReplyFrame where
  dest : Addr
  code : Nat
  tag : Byte
  status : Status
  reason : Reason
  first : Bool
  more : Bool
  body : ReplyBody
  ofTaken : Bool
  deriving DecidableEq, Repr

/-- The frame the transmitter is sending (R183): a reply frame, or the frame of the oldest outbound entry for its next
recipient not yet served. -/
inductive Sending where
  | reply (f : ReplyFrame) | notice
  deriving DecidableEq, Repr

/-- A long-command record (R178). `completed`: its COMPLETION has been made. -/
structure LongRecord where
  kind : LongKind
  issuer : Addr
  tag : Byte
  completed : Bool
  deriving DecidableEq, Repr

/-! ### The event in progress -/

/-- To whom a notice is made: entries of the requester table, or for a COMPLETION the issuer's station (R178, R179). -/
inductive Addressees where
  | entries (is : List Nat) | station (a : Addr)
  deriving DecidableEq, Repr

/-- A notice made in the event in progress and not yet handed to the link (R43, R98). -/
structure HeldNotice where
  notice : Notice
  tag : Byte
  whom : Addressees
  deriving DecidableEq, Repr

/-- What follows the pass of an event: the notice of a job that has entered HOLD, or the end of a NOTIFY that began in
the event (R149, R160). -/
inductive AfterPass where
  | send (n : Notice) | notifyEnd (i : JobId)
  deriving DecidableEq, Repr

/-- The event in progress, the model's own record (log 57): the notices made in it, whether it asks for a pass and
whether one has run, the branches that left ACTIVE in it, and what follows its pass. Between events it is idle. -/
structure Work where
  held : List HeldNotice
  due : Bool
  ran : Bool
  left : List Position
  after : List AfterPass
  deriving DecidableEq, Repr

/-- The control link. -/
structure Link where
  up : Bool
  requesters : List (Option Requester)
  inbound : List Instr
  outbound : List OutEntry
  replies : List ReplyFrame
  sending : Option Sending
  longs : List LongRecord
  restarting : Bool
  deriving DecidableEq, Repr

/-- A discrete line (R147): present level, debounced level, and the deadline of a level not yet held 50 ms. -/
structure Pin where
  level : Level
  debounced : Level
  deadline : Option Time
  deriving DecidableEq, Repr

/-! ### Hold store (chapter 10) -/

/-- A requester entry as the image keeps it (R186). -/
structure StoredRequester where
  addr : Addr
  role : Role
  branch : Option Position
  mask : BitVec 16
  deriving DecidableEq, Repr

/-- A policy image (R186). -/
structure Image where
  sequence : Nat
  policy : Policy
  maskSet : List ChannelNo
  requesters : List (Option StoredRequester)
  deriving DecidableEq, Repr

/-- A hold record (R188). -/
structure HoldRecord where
  sequence : Nat
  latched : List Bool
  maint : List Bool
  trunk : Bool
  deriving DecidableEq, Repr

/-- One of two slots (R186). -/
inductive SlotName where
  | a | b
  deriving DecidableEq, Repr

/-- The hold store. A slot is `none` when its check value does not agree with its contents. -/
structure Store where
  imageA : Option Image
  imageB : Option Image
  saving : Option (SlotName × Image)
  holdA : Option HoldRecord
  holdB : Option HoldRecord
  holding : Option (SlotName × HoldRecord)
  furtherDue : Bool
  trunkLatch : Bool
  deriving DecidableEq, Repr

/-! ### The part -/

/-- The whole part. -/
structure State where
  pending : List Instr
  now : Time
  powered : Bool
  stationAddr : Addr
  hall : Pin
  commissioning : Pin
  branches : List Branch
  arb : Arbiter
  pol : PolicyUnit
  bus : Bus
  window : Window
  sense : Sense
  cases : List (Option Case)
  iso : Sequencer
  link : Link
  store : Store
  boot : Boot
  work : Work
  deriving DecidableEq, Repr

/-! ### Reset values -/

/-- Factory default of a branch group (section 3.2). -/
def BranchPolicy.factory : BranchPolicy :=
  { occupied := false
    limits := { cls := 3, floor := 50, ceiling := 300, entryRequest := 300, urgentPermitted := false, mode := .track,
                p0 := 100, pfull := 900, kSupply := 1000, kReturn := 1000 } }

/-- Factory default of the timing and detection group (section 3.2). -/
def Timing.factory : Timing :=
  { cutDeadline := 2000, warnDeadline := 500, drainDelay := 5, localizationWindow := 3, measurementWindow := 1000,
    settleTolerance := 5, settleCount := 3, dryWindows := 30, imbalanceThreshold := 15, imbalanceWindows := 5 }

/-- Factory default of the supply group (section 3.2). -/
def SupplyPolicy.factory : SupplyPolicy :=
  { reserve := 500, assumed := 9000, ageing := 30, unguardedCap := false, hallEnable := false, hallPolarity := .low }

/-- The factory default policy (section 3.2). -/
def Policy.factory : Policy :=
  { branches := List.replicate 24 BranchPolicy.factory, zones := List.replicate 8 none
    rope := ⟨400, 6⟩, tray := ⟨300, 6⟩, base := ⟨300, 6⟩
    timing := Timing.factory, supply := SupplyPolicy.factory }

/-- A meter after reset (R113). -/
def Meter.reset : Meter := { pulses := 0, marked := false, silentRun := 0, liveRun := 0 }

/-- A branch record after reset under the factory default (R20): in no zone, so its rope counts as blind and its guard
is PARTIAL (R8), and its effective ceiling is its ceiling (R9). -/
def Branch.reset : Branch :=
  { state := .vacant, limits := BranchPolicy.factory.limits, trimOffset := 0, guardLevel := .partialGuard
    effCeiling := 300, zone := none, request := 0, urgent := false, stamp := none, grant := 0, drive := 0, cut := none
    riseWaiting := false, overdue := 0, draw := 0, measuredSupply := 0, measuredReturn := 0, settled := false
    settleRun := 0, driveChanged := false, controlTarget := none, trim := none, valveFault := false
    meterFault := false, returnOpen := false, supplyMeter := Meter.reset, returnMeter := Meter.reset
    imbalance := false, imbalanceRun := 0, clearRun := 0, boundTo := none, job := 0, latched := false, maint := false }

/-- The arbiter after reset (R21, R47). -/
def Arbiter.reset : Arbiter :=
  { supply := { state := .undeclared, declared := 0, lastAt := none, deadline := none }
    nextStamp := 1, standing := [], queue := [], shortfall := false, lastTargets := 0 }

/-- The apply result record after reset (R63). The rule gives no time since an apply that never was: the model holds none
(log 58). -/
def ApplyResult.reset : ApplyResult := { result := .none, code := none, index := none, warnings := [], time := none }

/-- An actuator shadow after reset (R67). -/
def Actuator.reset : Actuator :=
  { present := false, position := none, target := none, startRef := none, moving := false, flags := ⟨false, false, false, false⟩
    fault := .none, reservedBy := 0, owner := none, lastTx := none, move := none }

/-- The curve-verify record after reset (R93). The rule gives its status, branch and entries; the curve, the tolerance and
the frozen stop are the model's choice (log 59). -/
def Verify.reset : Verify :=
  { branch := none, status := .none, ceiling := 0, p0 := 0, pfull := 0, tolerance := 0, entries := [], frozen := none
    step := .openReturn }

/-- The valve bus controller after reset, before the survey polls are placed (R67, R70, R83). -/
def Bus.reset : Bus :=
  { actuators := List.replicate 50 Actuator.reset, isoQ := [], flowQ := [], svcQ := [], pollQ := [], trackDue := []
    line := .free, clearing := none, service := none, verify := Verify.reset, closing := none, reports := [] }

/-- A channel record after reset, not masked (section 6.2). -/
def Channel.reset : Channel :=
  { state := .dry, samples := 0, above := 0, realAbove := 0, dryRun := 0, lostRun := 0, onsets := 0, injected := 0
    injectPending := false, drill := false, last := none, sitOut := false }

/-- The isolation sequencer after reset (R142, R167). -/
def Sequencer.reset : Sequencer :=
  { slots := List.replicate 9 none, lastId := 0
    report := { id := 0, level := .branch, origin := .restored, status := .none, entries := [] } }

/-- The control link after reset with an empty requester table (R171, R174, R178, R181). -/
def Link.reset : Link :=
  { up := true, requesters := List.replicate 32 none, inbound := [], outbound := [], replies := [], sending := none
    longs := [], restarting := false }

/-- No event in progress. -/
def Work.idle : Work := { held := [], due := false, ran := false, left := [], after := [] }

/-- A store neither of whose slots is valid. -/
def Store.blank : Store :=
  { imageA := none, imageB := none, saving := none, holdA := none, holdB := none, holding := none
    furtherDue := false, trunkLatch := false }

/-- The part right after a power-on with an empty store: start-up steps 1 to 4 of R189 are done, the factory default
holds, every branch is VACANT, and the first of the 50 survey polls is on the line. -/
def State.reset : State :=
  { pending := [], now := 0, powered := true, stationAddr := 0x020000002434#48
    hall := { level := .high, debounced := .high, deadline := none }
    commissioning := { level := .high, debounced := .high, deadline := none }
    branches := List.replicate 24 Branch.reset
    arb := Arbiter.reset
    pol := { staged := Policy.factory, active := Policy.factory, dirty := false, maskSet := []
             applied := ApplyResult.reset
             derived := { floorSum := 0, margin := 8500, zoneMembers := List.replicate 8 [], uncovered := [] } }
    bus := { Bus.reset with
      actuators := { Actuator.reset with lastTx := some 0 } :: List.replicate 49 Actuator.reset
      pollQ := (List.range 49).map (fun n => { actuator := n + 1, survey := true, madeAt := 0 })
      line := .busy { actuator := 0, request := .survey, attempt := 1, sentAt := 0 } }
    window := { counter := 0, deadline := 1000, length := 1000 }
    sense := { channels := List.replicate 34 Channel.reset, index := 0, inWindow := true, nextAt := 100, lastEnd := 0 }
    cases := List.replicate 9 none
    iso := Sequencer.reset
    link := Link.reset
    store := Store.blank
    boot := { cause := .powerOn, stored := false, imageSequence := none, holdValid := false, holdSequence := none
              restored := none, inMaintenance := [], survey := some (List.range 50) }
    work := Work.idle }

end Sys2Proof.Machine
end

