-- ==== Sys2Proof/Machine/Ops.lean ====
section
/-! DEFINITION. The named operations over the tables of the part: reading and changing one branch record, actuator, channel, case, job or requester entry, small list operations, and the passing of time. -/

namespace Sys2Proof.Machine

/-! ### Numbers and lists -/

/-- Hold an integer between two bounds, both natural numbers. -/
def clampNat (lo hi : Nat) (x : Int) : Nat := (max (lo : Int) (min (hi : Int) x)).toNat

/-- Hold an integer between two bounds. -/
def clampInt (lo hi x : Int) : Int := max lo (min hi x)

/-- A quotient rounded down, as the manual writes ⌊n / d⌋; where the manual would divide by 0 it states no result, and
the quotient is a free value. -/
def floorQuot (n d : Int) : Int := if d = 0 then Config.quotientByZero n else n / d

/-- A quotient rounded toward 0 (R102); free where the divisor is 0. -/
def truncQuot (n d : Int) : Int := if d = 0 then Config.quotientByZero n else Int.tdiv n d

/-- Sum of a quantity over a list. -/
def sumOf {α : Type} (f : α → Nat) (l : List α) : Nat := l.foldl (fun n a => n + f a) 0

/-- Put a number into an ascending list that holds no number twice. -/
def insertAsc (n : Nat) : List Nat → List Nat
  | [] => [n]
  | m :: l => if n < m then n :: m :: l else if n = m then m :: l else m :: insertAsc n l

/-- Put an element where a key puts it, after its equals. -/
def insertBy {α : Type} (le : α → α → Bool) (a : α) : List α → List α
  | [] => [a]
  | b :: l => if le b a then b :: insertBy le a l else a :: b :: l

/-- Order a list by a key, equals in the order given. -/
def sortBy {α : Type} (le : α → α → Bool) (l : List α) : List α := l.foldl (fun acc a => insertBy le a acc) []

/-- Remove the last element that satisfies a test; none if there is none. -/
def dropLast? {α : Type} (p : α → Bool) (l : List α) : Option (List α) :=
  if l.any p then some (l.reverse.eraseP p).reverse else none

/-- The first index of a list whose element satisfies a test, from `k` on. -/
def indexWhere {α : Type} (p : α → Bool) : List α → Nat → Option Nat
  | [], _ => none
  | a :: l, k => if p a then some k else indexWhere p l (k + 1)

/-- Cut a list into pieces of at most `n`, with `fuel` pieces at most. -/
def chunks {α : Type} (n : Nat) : Nat → List α → List (List α)
  | 0, _ => []
  | fuel + 1, l => if l.isEmpty then [] else l.take n :: chunks n fuel (l.drop n)

/-! ### Branch records -/

/-- The record of a position (R1). -/
def State.br (s : State) (p : Position) : Branch := s.branches.getD p Branch.reset

/-- Change the record of a position. -/
def State.modBr (s : State) (p : Position) (f : Branch → Branch) : State :=
  { s with branches := s.branches.modify p f }

/-- The positions whose branch satisfies a test, ascending. -/
def State.positionsWhere (s : State) (q : Branch → Bool) : List Position :=
  Config.positions.filter (fun p => q (s.br p))

/-- The positions whose branch is ACTIVE, ascending. -/
def State.activePositions (s : State) : List Position := s.positionsWhere (fun b => b.state = .active)

/-- The policy group of a position in the active copy. -/
def State.policyOf (s : State) (p : Position) : BranchPolicy := s.pol.active.branches.getD p BranchPolicy.factory

/-- The members of zone z by the derived values (R59). -/
def State.zoneMembers (s : State) (z : Nat) : List Position := s.pol.derived.zoneMembers.getD z []

/-! ### Actuators -/

/-- The shadow of an actuator (R67). -/
def State.act (s : State) (a : ActuatorNo) : Actuator := s.bus.actuators.getD a Actuator.reset

/-- Change the shadow of an actuator. -/
def State.modAct (s : State) (a : ActuatorNo) (f : Actuator → Actuator) : State :=
  { s with bus.actuators := s.bus.actuators.modify a f }

/-- The supply actuator of a position (R66). -/
def supplyOf (p : Position) : ActuatorNo := p

/-- The return actuator of a position (R66). -/
def returnOf (p : Position) : ActuatorNo := p + 24

/-- The branch of an actuator; the trunk actuators have none (R66). -/
def branchOf (a : ActuatorNo) : Option Position := if a < 24 then some a else if a < 48 then some (a - 24) else none

/-- A reported position at or below a value; an unknown position fails the test (R67). -/
def Actuator.atMost (x : Actuator) (n : Nat) : Bool := match x.position with
  | none => false
  | some q => q ≤ n

/-- A reported position at or above a value; an unknown position fails the test (R67). -/
def Actuator.atLeast (x : Actuator) (n : Nat) : Bool := match x.position with
  | none => false
  | some q => n ≤ q

/-- A reported position above a value; an unknown position fails the test (R67). -/
def Actuator.above (x : Actuator) (n : Nat) : Bool := match x.position with
  | none => false
  | some q => n < q

/-! ### Channels -/

/-- The record of a channel (R114). -/
def State.chan (s : State) (c : ChannelNo) : Channel := s.sense.channels.getD c Channel.reset

/-- Change the record of a channel. -/
def State.modChan (s : State) (c : ChannelNo) (f : Channel → Channel) : State :=
  { s with sense.channels := s.sense.channels.modify c f }

/-- The class of a channel (section 6.1). -/
def channelClass (c : ChannelNo) : ChannelClass := if c < 8 then .rope else if c < 32 then .tray else .base

/-- The tray probe of a position (section 6.1). -/
def trayOf (p : Position) : ChannelNo := p + 8

/-- Wet threshold and confirm count of a class (R52). -/
def Policy.classOf (p : Policy) : ChannelClass → ClassPolicy
  | .rope => p.rope
  | .tray => p.tray
  | .base => p.base

/-- The positions a channel watches: its zone's members for a rope, its own for a tray, none for a base probe (R120). -/
def State.watched (s : State) (c : ChannelNo) : List Position :=
  match channelClass c with
  | .rope => s.zoneMembers c
  | .tray => [c - 8]
  | .base => []

/-! ### Cases -/

/-- The case in an entry of the case table (R129). -/
def State.caseAt (s : State) (e : Nat) : Option Case := s.cases.getD e none

/-- Write an entry of the case table. -/
def State.setCase (s : State) (e : Nat) (c : Option Case) : State := { s with cases := s.cases.set e c }

/-- The kind of the case an entry holds (section 7.1). -/
def caseKind (e : Nat) : CaseKind := if e < 8 then .zone e else .base

/-! ### Jobs -/

/-- The jobs of the table in slot order (R143). -/
def State.jobs (s : State) : List Job := s.iso.slots.filterMap id

/-- The job with an id. -/
def State.job? (s : State) (i : JobId) : Option Job := s.jobs.find? (fun j => j.id = i)

/-- Change the job with an id. -/
def State.modJob (s : State) (i : JobId) (f : Job → Job) : State :=
  { s with iso.slots := s.iso.slots.map (Option.map (fun j => if j.id = i then f j else j)) }

/-- Write a slot of the job table. -/
def State.setSlot (s : State) (k : Nat) (j : Option Job) : State := { s with iso.slots := s.iso.slots.set k j }

/-- The job of the rack slot (R142). -/
def State.rackJob (s : State) : Option Job := s.iso.slots.getD Config.rackSlot none

/-- The drill job (R142). -/
def State.drillJob (s : State) : Option Job := s.jobs.find? (fun j => j.drill)

/-- The lowest-numbered empty ordinary slot (R142). -/
def State.emptySlot (s : State) : Option Nat :=
  (List.range 8).find? (fun k => (s.iso.slots.getD k none).isNone)

/-- A job has a position among its targets. -/
def Job.hasTarget (j : Job) (p : Position) : Bool := j.targets.any (fun t => t.pos = p)

/-- The real job of which a position is a target (R142). -/
def State.realJobOf (s : State) (p : Position) : Option Job := s.jobs.find? (fun j => !j.drill && j.hasTarget p)

/-- Change a target of a job. -/
def Job.modTarget (j : Job) (p : Position) (f : Target → Target) : Job :=
  { j with targets := j.targets.map (fun t => if t.pos = p then f t else t) }

/-- Put a target into a job in ascending position (section 8.1). -/
def Job.addTarget (j : Job) (t : Target) : Job :=
  { j with targets := insertBy (fun a b => a.pos ≤ b.pos) t j.targets }

/-! ### Requesters -/

/-- The entry of the requester table at an index (R171). -/
def State.requester (s : State) (i : Nat) : Option Requester := s.link.requesters.getD i none

/-- Write an entry of the requester table. -/
def State.setRequester (s : State) (i : Nat) (r : Option Requester) : State :=
  { s with link.requesters := s.link.requesters.set i r }

/-- The index of the entry that holds a station address (R171). -/
def State.entryOf (s : State) (a : Addr) : Option Nat :=
  indexWhere (fun r => match r with
    | none => false
    | some q => q.addr == a) s.link.requesters 0

/-- The index of the entry that holds a role. -/
def State.entryOfRole (s : State) (r : Role) : Option Nat :=
  indexWhere (fun e => match e with
    | none => false
    | some q => q.role = r) s.link.requesters 0

/-- The index of the lowest empty entry (R172). -/
def State.emptyEntry (s : State) : Option Nat := indexWhere (fun e => e.isNone) s.link.requesters 0

/-! ### Time -/

/-- An event is taken at time `t`, or now if the part's time is already later. -/
def State.advance (s : State) (t : Time) : State := { s with now := max s.now t }

/-- The time left to a deadline, 0 once it is past. -/
def State.left (s : State) (d : Time) : Time := d - s.now

/-- The time passed since a point in time. -/
def State.since (s : State) (t : Time) : Time := s.now - t

/-- Do something for each element of a list in order. -/
def State.forEach {α : Type} (s : State) (l : List α) (f : State → α → State) : State := l.foldl f s

end Sys2Proof.Machine
end

