-- ==== Sys2Proof/Machine/Flags.lean ====
section
/-! DEFINITION. The values the part derives from its state: the budget quantities, targets and the standing-order key, guard levels, flows and tolerances, the curve, containment and the dryness of evidence. -/

namespace Sys2Proof.Machine

/-! ### Budget quantities (R21, R22) -/

/-- The supply in use, S (R21). -/
def State.supplyInUse (s : State) : Nat := match s.arb.supply.state with
  | .undeclared => s.pol.active.supply.assumed
  | .fresh => s.arb.supply.declared
  | .stale => s.arb.supply.declared

/-- The budget B = max(0, S − R) (R22). -/
def State.budget (s : State) : Nat := s.supplyInUse - s.pol.active.supply.reserve

/-- A real job whose phase is before HOLD, UNCONTAINED included (R54). -/
def Job.beforeHold (j : Job) : Bool := !j.drill && j.phase ≠ .hold && j.phase ≠ .simulate

/-- The quarantined flow Q (R22). -/
def State.quarantined (s : State) : Nat := sumOf (fun j => j.quarantine) (s.jobs.filter Job.beforeHold)

/-- The draw D (R22). -/
def State.draws (s : State) : Nat := sumOf (fun b => b.draw) s.branches

/-- The available flow A = max(0, B − Q − D) (R22). -/
def State.available (s : State) : Nat := s.budget - s.quarantined - s.draws

/-- The sum of drives over all branches. -/
def State.driveSum (s : State) : Nat := sumOf (fun b => b.drive) s.branches

/-- The sum of grants over all branches. -/
def State.grantSum (s : State) : Nat := sumOf (fun b => b.grant) s.branches

/-- The room (B − Q) − Σ drive − D; it may be negative (R22). -/
def State.room (s : State) : Int := (s.budget : Int) - s.quarantined - s.driveSum - s.draws

/-! ### Targets and order (R29) -/

/-- The target of a branch, 0 when it is not ACTIVE (R29, R44). -/
def Branch.target (b : Branch) : Nat :=
  if b.state = .active then min (max b.request b.limits.floor) b.effCeiling else 0

/-- The sum of targets over ACTIVE branches (R29). -/
def State.targetSum (s : State) : Nat := sumOf Branch.target s.branches

/-- The sum of floors over ACTIVE branches (R33). -/
def State.floorSum (s : State) : Nat := sumOf (fun b => if b.state = .active then b.limits.floor else 0) s.branches

/-- The standing-order key: class, urgent before not, smaller stamp first (R29). -/
def Branch.keyLe (a b : Branch) : Bool :=
  a.limits.cls < b.limits.cls ||
  (a.limits.cls == b.limits.cls &&
    ((a.urgent && !b.urgent) || (a.urgent == b.urgent && a.stamp.getD 0 ≤ b.stamp.getD 0)))

/-- Positions in standing-order key (R29). -/
def State.inKeyOrder (s : State) (ps : List Position) : List Position :=
  sortBy (fun p q => (s.br p).keyLe (s.br q)) ps

/-- The standing order: ACTIVE branches whose target is above their floor, in key order (R29). -/
def State.standingOrder (s : State) : List Position :=
  s.inKeyOrder (s.activePositions.filter (fun p => (s.br p).limits.floor < (s.br p).target))

/-! ### Guard (R8, R9) -/

/-- A channel that cannot give evidence (R8). -/
def Channel.blind (c : Channel) : Bool := c.state = .fault || c.state = .masked

/-- The guard of a branch from its zone's rope and its tray probe (R8). -/
def State.guardOf (s : State) (p : Position) : Guard :=
  let ropeBlind := match (s.br p).zone with
    | none => true
    | some z => (s.chan z).blind
  let trayBlind := (s.chan (trayOf p)).blind
  if ropeBlind && trayBlind then .unguarded else if ropeBlind || trayBlind then .partialGuard else .guarded

/-- The effective ceiling of a branch (R9). -/
def Branch.ceilingUnder (b : Branch) (cap : Bool) : Nat :=
  if b.guardLevel = .unguarded && cap then b.limits.floor else b.limits.ceiling

/-- The zone of a position by a zone map (R6). -/
def zoneOf (zones : List (Option (Nat × Nat))) (p : Position) : Option Nat :=
  indexWhere (fun e => match e with
    | none => false
    | some (first, last) => first ≤ p && p ≤ last) zones 0

/-! ### Curve (R99) -/

/-- The curve position of a drive (R99). -/
def Limits.curvePosition (l : Limits) (d : Nat) : Int :=
  if d = 0 then 0 else l.p0 + floorQuot (((l.pfull : Int) - l.p0) * d) l.ceiling

/-- The curve target of a drive: curve position plus trim offset, held between 0 and 1000; 0 for a drive of 0 (R99). -/
def Branch.curveTarget (b : Branch) (d : Nat) : Nat :=
  if d = 0 then 0 else clampNat 0 1000 (b.limits.curvePosition d + b.trimOffset)

/-- The curve drive of a supply position (R99). -/
def Branch.curveDrive (b : Branch) (q : Nat) : Nat :=
  clampNat 0 b.limits.ceiling
    (floorQuot (b.limits.ceiling * ((q : Int) - b.trimOffset - b.limits.p0)) ((b.limits.pfull : Int) - b.limits.p0))

/-- The flow a verify expects at a supply position (R90). -/
def Verify.expected (v : Verify) (q : Nat) : Nat :=
  if q < v.p0 then 0 else if v.pfull < q then v.ceiling
  else clampNat 0 v.ceiling (floorQuot (v.ceiling * ((q : Int) - v.p0)) ((v.pfull : Int) - v.p0))

/-- The band of a verify (R90). -/
def Verify.band (v : Verify) : Nat := max (v.tolerance * v.ceiling / 100) 10

/-- Whether a verify stop at a position is a mismatch (R90). -/
def Verify.mismatch (v : Verify) (q measured : Nat) : Bool :=
  if q ≤ v.pfull then v.band < gap measured (v.expected q) else measured + v.band < v.ceiling

/-! ### Measurement (R95, R97, R108, R110) -/

/-- A measured flow, ⌊pulses × 600000 / (k × w)⌋ held at 600 (R95). -/
def flowOf (pulses k w : Nat) : Nat := clampNat 0 600 (floorQuot ((pulses : Int) * 600000) ((k : Int) * w))

/-- A window is in tolerance for a branch (R97). -/
def Branch.inTolerance (b : Branch) (tolerance : Nat) : Bool :=
  if b.drive = 0 then b.measuredSupply ≤ 2 else gap b.measuredSupply b.drive ≤ tolerance * b.drive / 100

/-- Neither actuator of a branch is MOVING in its shadow (R97). -/
def State.bothStill (s : State) (p : Position) : Bool :=
  !(s.act (supplyOf p)).moving && !(s.act (returnOf p)).moving

/-- A window is quiet for a branch (R97). -/
def State.quiet (s : State) (p : Position) : Bool := !(s.br p).driveChanged && s.bothStill p

/-- The conditions under which a silent meter is judged (R108). -/
def State.flowExpected (s : State) (p : Position) : Bool :=
  0 < (s.br p).drive && (s.act (supplyOf p)).atLeast 100 && (s.act (returnOf p)).atLeast 100

/-- Either meter of a branch is marked (R109). -/
def Branch.meterMarked (b : Branch) : Bool := b.supplyMeter.marked || b.returnMeter.marked

/-- A branch is corrected from its meter: TRACK, or FIXED with a trim running, and no meter marked (R101, R106). -/
def Branch.tracks (b : Branch) : Bool := (b.limits.mode = .track || b.trim.isSome) && !b.meterMarked

/-- The TRACK adjustment (R102). -/
def Branch.adjustment (b : Branch) : Int :=
  clampInt (-50) 50 (truncQuot (((b.drive : Int) - b.measuredSupply) * ((b.limits.pfull : Int) - b.limits.p0))
    (2 * (b.limits.ceiling : Int)))

/-! ### Jobs (R149, R153) -/

/-- A supply-side close is PENDING (R151). -/
def Job.supplyPending (j : Job) : Bool :=
  j.targets.any (fun t => t.supply = .pending) || (match j.trunk with
    | none => false
    | some k => k.supply = .pending)

/-- A return-side close is PENDING (R155). -/
def Job.returnPending (j : Job) : Bool :=
  j.targets.any (fun t => t.ret = .pending) || (match j.trunk with
    | none => false
    | some k => k.ret = .pending)

/-- Containment of a job (R153). -/
def Job.contained (j : Job) : Bool :=
  j.targets.all (fun t => t.supply = .ok) || (match j.trunk with
    | none => false
    | some k => k.supply = .ok)

/-- A warning of a job is OPEN (R149). -/
def Job.warningOpen (j : Job) : Bool := j.targets.any (fun t => t.warning = .opened)

/-- Every close is OK and every target CONFIRMED (R160). -/
def Job.clean (j : Job) : Bool :=
  j.targets.all (fun t => t.supply = .ok && t.ret = .ok && t.confirm = .confirmed) && (match j.trunk with
    | none => true
    | some k => k.supply = .ok && k.ret = .ok)

/-- The failed supply-side closes of a job (R158): the trunk first, then the targets ascending, the model's choice (log 68). -/
def Job.failedSupply (j : Job) : List (ActuatorNo × FaultCode) :=
  (match j.trunk with
    | some { supply := .failed f, .. } => [(48, f)]
    | _ => []) ++
  j.targets.filterMap (fun t => match t.supply with
    | .failed f => some (supplyOf t.pos, f)
    | _ => none)

/-- An actuator belongs to a job: a target's, or the trunk's while trunk is yes. -/
def Job.owns (j : Job) (a : ActuatorNo) : Bool := match branchOf a with
  | some p => j.hasTarget p
  | none => j.trunk.isSome && (a = 48 || a = 49)

/-! ### Dry evidence (R161) -/

/-- The hall line is asserted by the polarity of the active policy (R147). -/
def State.hallAsserted (s : State) : Bool := s.hall.debounced = s.pol.active.supply.hallPolarity

/-- The commissioning line is asserted: low (R172). -/
def State.commissioned (s : State) : Bool := s.commissioning.debounced = .low

/-- An evidence entry is dry (R161). -/
def State.entryDry (s : State) (e : Evidence) : Bool := match e.item with
  | .channel c => (s.chan c).state = .dry
  | .imbalance p => !(s.br p).imbalance

/-- Neither the zone rope nor the tray probe of a position is WET (R161, RESTORED). -/
def State.notWetAt (s : State) (p : Position) : Bool :=
  (s.chan (trayOf p)).state ≠ .wet && (match (s.br p).zone with
    | none => true
    | some z => (s.chan z).state ≠ .wet)

/-- The condition a job's origin adds, judged for the branches of a list (R161). -/
def State.originDry (s : State) (j : Job) (ps : List Position) : Bool := match j.origin with
  | .restored => ps.all s.notWetAt
  | .hallLine => !(s.pol.active.supply.hallEnable && s.hallAsserted)
  | .channel _ => true
  | .position _ => true

/-- What keeps the evidence of a job from being dry, if anything (R161, R162). -/
def State.wetCause (s : State) (j : Job) (ps : List Position) : Option WetCause :=
  match j.evidence.find? (fun e => !s.entryDry e) with
  | some e => some (.entry e)
  | none => if s.originDry j ps then none else some .origin

end Sys2Proof.Machine
end

