-- ==== Sys2Proof/Machine/Operands.lean ====
section
/-! DEFINITION. The operand forms: what the link reads of a queued command, the numbers and lengths of the 42 commands, the reading of a record header and of a command body from the bytes of a frame, and the range checks of the operands. -/

namespace Sys2Proof

/-- Header and sender of a command record; an event of the part carries none. -/
def Instr.cmd? : Instr → Option Cmd
  | .flowRequest c _ _ | .flowRelease c | .cutAck c | .declareSupply c _ | .stageBranch c _ _ | .stageZone c _ _
  | .stageChannelClass c _ _ _ | .stageTiming c _ | .stageSupply c _ | .applyPolicy c | .discardStaged c
  | .savePolicy c | .enterMaintenance c _ | .leaveMaintenance c _ | .trimOnce c _ | .serviceMove c _ _
  | .curveVerify c _ | .busClear c | .maskChannel c _ | .unmaskChannel c _ | .startDrill c _ _ | .cancelDrill c
  | .warnAck c | .releaseIsolation c _ | .releaseTrunk c | .identify c | .bindRequester c _ _ _ _
  | .unbindRequester c _ | .setNotices c _ | .setTelemetry c _ _ | .restart c | .readBranches c | .readSupply c
  | .readPending c | .readPolicy c _ | .readActuators c | .readVerify c | .readChannels c | .readCases c
  | .readJobs c | .readDrillReport c | .readRequesters c => some c
  | .frameArrival .. | .frameSent .. | .portLinkChange .. | .supplyAgeingExpiry | .cutDeadlineExpiry ..
  | .measurementWindowExpiry | .meterPulse .. | .senseSampleEvent .. | .senseWindowEnd .. | .caseDeadlineExpiry ..
  | .jobPhaseDeadlineExpiry .. | .uncontainedRetryExpiry .. | .drainDeadlineExpiry .. | .simulateDeadlineExpiry ..
  | .lineLevelChange .. | .lineDebounceExpiry .. | .valveReply .. | .valveReplyTimeout | .startTimerExpiry ..
  | .moveTimerExpiry .. | .trackingPollDue .. | .idlePollDue .. | .holdWriteEnd .. | .saveWriteEnd .. | .powerOn ..
  | .restartReset .. | .stopSent .. | .powerLoss .. => none

/-- The number of a command (R170); 0 for an event of the part. -/
def Instr.code : Instr → Nat
  | .flowRequest .. => 1
  | .flowRelease .. => 2
  | .cutAck .. => 3
  | .declareSupply .. => 4
  | .stageBranch .. => 5
  | .stageZone .. => 6
  | .stageChannelClass .. => 7
  | .stageTiming .. => 8
  | .stageSupply .. => 9
  | .applyPolicy .. => 10
  | .discardStaged .. => 11
  | .savePolicy .. => 12
  | .enterMaintenance .. => 13
  | .leaveMaintenance .. => 14
  | .trimOnce .. => 15
  | .serviceMove .. => 16
  | .curveVerify .. => 17
  | .busClear .. => 18
  | .maskChannel .. => 19
  | .unmaskChannel .. => 20
  | .startDrill .. => 21
  | .cancelDrill .. => 22
  | .warnAck .. => 23
  | .releaseIsolation .. => 24
  | .releaseTrunk .. => 25
  | .identify .. => 26
  | .bindRequester .. => 27
  | .unbindRequester .. => 28
  | .setNotices .. => 29
  | .setTelemetry .. => 30
  | .restart .. => 31
  | .readBranches .. => 32
  | .readSupply .. => 33
  | .readPending .. => 34
  | .readPolicy .. => 35
  | .readActuators .. => 36
  | .readVerify .. => 37
  | .readChannels .. => 38
  | .readCases .. => 39
  | .readJobs .. => 40
  | .readDrillReport .. => 41
  | .readRequesters .. => 42
  | .frameArrival .. | .frameSent .. | .portLinkChange .. | .supplyAgeingExpiry | .cutDeadlineExpiry ..
  | .measurementWindowExpiry | .meterPulse .. | .senseSampleEvent .. | .senseWindowEnd .. | .caseDeadlineExpiry ..
  | .jobPhaseDeadlineExpiry .. | .uncontainedRetryExpiry .. | .drainDeadlineExpiry .. | .simulateDeadlineExpiry ..
  | .lineLevelChange .. | .lineDebounceExpiry .. | .valveReply .. | .valveReplyTimeout | .startTimerExpiry ..
  | .moveTimerExpiry .. | .trackingPollDue .. | .idlePollDue .. | .holdWriteEnd .. | .saveWriteEnd .. | .powerOn ..
  | .restartReset .. | .stopSent .. | .powerLoss .. => 0

end Sys2Proof

namespace Sys2Proof.Machine

/-! ### Bytes of a record (section 9.9) -/

/-- The byte at an offset. -/
def byteAt (b : List Byte) (i : Nat) : Nat := (b.getD i 0).toNat

/-- The two-byte field at an offset, most significant byte first (section 9.9). -/
def wordAt (b : List Byte) (i : Nat) : Nat := byteAt b i * 256 + byteAt b (i + 1)

/-- The station address at an offset, 6 bytes, most significant first. -/
def addrAt (b : List Byte) (i : Nat) : Addr :=
  BitVec.ofNat 48 (((List.range 6).foldl (fun n k => n * 256 + byteAt b (i + k)) 0))

/-- A one-byte optional field: FF stands for none (section 9.9). -/
def optByteAt (b : List Byte) (i : Nat) : Option Nat := if byteAt b i = 255 then none else some (byteAt b i)

/-- A two-byte optional field: FFFF stands for none (section 9.9). -/
def optWordAt (b : List Byte) (i : Nat) : Option Nat := if wordAt b i = 65535 then none else some (wordAt b i)

/-- A yes or no, one byte, 0 for no (section 9.9). -/
def flagAt (b : List Byte) (i : Nat) : Bool := byteAt b i ≠ 0

/-- A record header (section 9.9). -/
structure Header where
  format : Nat
  kind : Nat
  code : Nat
  flags : Byte
  tag : Byte
  bodyLength : Nat
  deriving DecidableEq, Repr

/-- The header of a record of at least 12 bytes (section 9.9). The status, reason and notice number fields of a master's
record are ignored (R170). -/
def headerOf (b : List Byte) : Header :=
  { format := byteAt b 0, kind := byteAt b 1, code := wordAt b 2, flags := b.getD 4 0, tag := b.getD 5 0
    bodyLength := wordAt b 8 }

/-- The body lengths a command allows (R175, check 3). DEDUCED: the manual gives no layout of command bodies; each field
takes the size section 9.9 gives it and stands in the order the command's rule names it. A body leaves out its last optional
field alone: BIND_REQUESTER the mask, SET_TELEMETRY the count (log 8). -/
def allowedLengths (code : Nat) : List Nat := match code with
  | 1 => [3]
  | 4 => [2]
  | 5 => [17, 19]
  | 6 => [3]
  | 7 => [4]
  | 8 => [13]
  | 9 => [9]
  | 13 | 14 | 15 | 17 | 19 | 20 | 24 | 28 | 35 => [1]
  | 16 => [3]
  | 21 => [2]
  | 27 => [8, 10]
  | 29 => [2]
  | 30 => [1, 2]
  | _ => [0]

/-- The body of STAGE_BRANCH after its position; a body two bytes shorter leaves the entry request out (R51). -/
def branchGroupOf (b : List Byte) : BranchGroup :=
  let short := b.length = 17
  let k := if short then 7 else 9
  { occupied := flagAt b 1, cls := byteAt b 2, floor := wordAt b 3, ceiling := wordAt b 5
    entryRequest := if short then none else optWordAt b 7
    urgentPermitted := flagAt b k, mode := byteAt b (k + 1), p0 := wordAt b (k + 2), pfull := wordAt b (k + 4)
    kSupply := wordAt b (k + 6), kReturn := wordAt b (k + 8) }

/-- The body of STAGE_TIMING (R53). -/
def timingOf (b : List Byte) : Timing :=
  { cutDeadline := wordAt b 0, warnDeadline := wordAt b 2, drainDelay := byteAt b 4, localizationWindow := byteAt b 5
    measurementWindow := wordAt b 6, settleTolerance := byteAt b 8, settleCount := byteAt b 9, dryWindows := byteAt b 10
    imbalanceThreshold := byteAt b 11, imbalanceWindows := byteAt b 12 }

/-- The body of STAGE_SUPPLY (R53). -/
def supplyGroupOf (b : List Byte) : SupplyGroup :=
  { reserve := wordAt b 0, assumed := wordAt b 2, ageing := wordAt b 4, unguardedCap := byteAt b 6
    hallEnable := flagAt b 7, hallPolarity := byteAt b 8 }

/-- The extent STAGE_ZONE carries: first and last position, or FF FF for the empty mark (R52). -/
def extentOf (b : List Byte) : Option (Nat × Nat) :=
  if byteAt b 1 = 255 && byteAt b 2 = 255 then none else some (byteAt b 1, byteAt b 2)

/-- The mask BIND_REQUESTER carries; absent when the body leaves it out or FFFF (R172). -/
def bindMaskOf (b : List Byte) : Option (BitVec 16) :=
  if b.length = 8 then none else (optWordAt b 8).map (BitVec.ofNat 16)

/-- The command a taken record holds, for a code 1–42 (R170). DEDUCED, as `allowedLengths` is. -/
def commandOf (code : Nat) (c : Cmd) (b : List Byte) : Option Instr := match code with
  | 1 => some (.flowRequest c (wordAt b 0) (flagAt b 2))
  | 2 => some (.flowRelease c)
  | 3 => some (.cutAck c)
  | 4 => some (.declareSupply c (wordAt b 0))
  | 5 => some (.stageBranch c (byteAt b 0) (branchGroupOf b))
  | 6 => some (.stageZone c (byteAt b 0) (extentOf b))
  | 7 => some (.stageChannelClass c (byteAt b 0) (wordAt b 1) (byteAt b 3))
  | 8 => some (.stageTiming c (timingOf b))
  | 9 => some (.stageSupply c (supplyGroupOf b))
  | 10 => some (.applyPolicy c)
  | 11 => some (.discardStaged c)
  | 12 => some (.savePolicy c)
  | 13 => some (.enterMaintenance c (byteAt b 0))
  | 14 => some (.leaveMaintenance c (byteAt b 0))
  | 15 => some (.trimOnce c (byteAt b 0))
  | 16 => some (.serviceMove c (byteAt b 0) (wordAt b 1))
  | 17 => some (.curveVerify c (byteAt b 0))
  | 18 => some (.busClear c)
  | 19 => some (.maskChannel c (byteAt b 0))
  | 20 => some (.unmaskChannel c (byteAt b 0))
  | 21 => some (.startDrill c (byteAt b 0) (byteAt b 1))
  | 22 => some (.cancelDrill c)
  | 23 => some (.warnAck c)
  | 24 => some (.releaseIsolation c (byteAt b 0))
  | 25 => some (.releaseTrunk c)
  | 26 => some (.identify c)
  | 27 => some (.bindRequester c (addrAt b 0) (byteAt b 6) (optByteAt b 7) (bindMaskOf b))
  | 28 => some (.unbindRequester c (byteAt b 0))
  | 29 => some (.setNotices c (BitVec.ofNat 16 (wordAt b 0)))
  | 30 => some (.setTelemetry c (byteAt b 0) (byteAt b 1))
  | 31 => some (.restart c)
  | 32 => some (.readBranches c)
  | 33 => some (.readSupply c)
  | 34 => some (.readPending c)
  | 35 => some (.readPolicy c (byteAt b 0))
  | 36 => some (.readActuators c)
  | 37 => some (.readVerify c)
  | 38 => some (.readChannels c)
  | 39 => some (.readCases c)
  | 40 => some (.readJobs c)
  | 41 => some (.readDrillReport c)
  | 42 => some (.readRequesters c)
  | _ => none

/-! ### Ranges (section 3.2) -/

/-- A number lies in a range, both ends included. -/
def inRange (lo hi n : Nat) : Bool := lo ≤ n && n ≤ hi

/-- The ordinal, from 1, of the first field of a list that is out of range (R50, step 5). -/
def firstOut (l : List Bool) : Option Nat := indexWhere (fun ok => !ok) l 1

/-- A control mode by its code, in the order of the table of section 3.2. -/
def modeOf (n : Nat) : ControlMode := if n = 0 then .track else .fixed

/-- The fields of STAGE_BRANCH in the order of the table, each in its range or not (R51); that the two k-factors of one row count
as two fields is the model's reading (log 8). -/
def BranchGroup.checks (g : BranchGroup) : List Bool :=
  [true, inRange 0 3 g.cls, inRange 0 600 g.floor, inRange 0 600 g.ceiling, inRange 0 600 (g.entryRequest.getD 0), true,
   inRange 0 1 g.mode, inRange 0 500 g.p0, inRange 100 1000 g.pfull, inRange 100 10000 g.kSupply,
   inRange 100 10000 g.kReturn]

/-- What a STAGE_BRANCH group stages; an absent entry request equals the ceiling (R51). -/
def BranchGroup.policy (g : BranchGroup) : BranchPolicy :=
  { occupied := g.occupied
    limits := { cls := g.cls, floor := g.floor, ceiling := g.ceiling, entryRequest := g.entryRequest.getD g.ceiling
                urgentPermitted := g.urgentPermitted, mode := modeOf g.mode, p0 := g.p0, pfull := g.pfull
                kSupply := g.kSupply, kReturn := g.kReturn } }

/-- The fields of STAGE_TIMING in the order of the table, each in its range or not (R53). -/
def timingChecks (g : Timing) : List Bool :=
  [inRange 200 10000 g.cutDeadline, inRange 0 2000 g.warnDeadline, inRange 0 30 g.drainDelay,
   inRange 0 10 g.localizationWindow, [250, 500, 1000, 2000].contains g.measurementWindow,
   inRange 1 20 g.settleTolerance, inRange 1 8 g.settleCount, inRange 5 120 g.dryWindows,
   inRange 5 100 g.imbalanceThreshold, inRange 2 20 g.imbalanceWindows]

/-- The fields of STAGE_SUPPLY in the order of the table, each in its range or not (R53). -/
def SupplyGroup.checks (g : SupplyGroup) : List Bool :=
  [inRange 0 2000 g.reserve, inRange 0 16000 g.assumed, inRange 5 300 g.ageing, inRange 0 1 g.unguardedCap, true,
   inRange 0 1 g.hallPolarity]

/-- What a STAGE_SUPPLY group stages (R53). -/
def SupplyGroup.policy (g : SupplyGroup) : SupplyPolicy :=
  { reserve := g.reserve, assumed := g.assumed, ageing := g.ageing, unguardedCap := g.unguardedCap = 0
    hallEnable := g.hallEnable, hallPolarity := if g.hallPolarity = 0 then .high else .low }

/-- The fields of STAGE_ZONE, each in its range or not (R52); that first and last of one row count as two fields is the model's
reading (log 8). -/
def extentChecks (e : Option (Nat × Nat)) : List Bool := match e with
  | none => []
  | some (first, last) => [inRange 0 23 first, inRange 0 23 last]

/-- A role by its code, in the order of R171. -/
def roleOf : Nat → Option Role
  | 0 => some .supply
  | 1 => some .rack
  | 2 => some .server
  | 3 => some .service
  | _ => none

/-- A telemetry mode by its code, in the order of R184; COUNTED takes n 1–255. That a count beside another mode is ignored is the
model's reading (log 8). -/
def telemetryOf (mode n : Nat) : Option Telemetry := match mode with
  | 0 => some .off
  | 1 => some .stream
  | 2 => some .snapshot
  | 3 => if inRange 1 255 n then some (.counted n) else none
  | _ => none

/-- A notice mask with a kind outside 1–15 (R180). -/
def maskBad (m : BitVec 16) : Bool := m.getLsbD 15

end Sys2Proof.Machine
end

