-- ==== Sys2Proof/Machine/Link.lean ====
section
/-! DEFINITION. The control link as the other blocks use it: addressing a notice and placing it in the outbound queue, replies, long-command records and the transmitter. -/

namespace Sys2Proof.Machine

/-! ### Notices (R179) -/

/-- The number of a notice kind (R179). -/
def Notice.kind : Notice → Nat
  | .grantChanged .. => 1
  | .cutWarn .. => 2
  | .isolateWarn .. => 3
  | .isolationDone .. => 4
  | .uncontained .. => 5
  | .settled .. => 6
  | .unsettled .. => 7
  | .dripChannel .. => 8
  | .dripCase .. => 8
  | .branchFault .. => 9
  | .supplyAlert .. => 10
  | .demand .. => 11
  | .policyApplied .. => 12
  | .completion .. => 13
  | .startup .. => 14
  | .telemetry .. => 15

/-- The assured kinds (R179). -/
def Notice.assured (n : Notice) : Bool := n.kind = 2 || n.kind = 3 || n.kind = 13

/-- The positions a notice concerns, for SERVER requesters (R179). -/
def Notice.concerns : Notice → List Position
  | .grantChanged n => [n.pos]
  | .cutWarn p _ _ _ _ => [p]
  | .isolateWarn p _ _ _ _ _ => [p]
  | .isolationDone j _ => j.targets.map (fun t => t.pos)
  | .uncontained _ _ _ _ ps => ps
  | .settled n => [n.pos]
  | .unsettled n => [n.pos]
  | .dripChannel n => n.watched
  | .dripCase n => n.candidates ++ (match n.request with
    | none => []
    | some (_, _, ps) => ps)
  | .branchFault p _ _ => [p]
  | .supplyAlert _ => []
  | .demand .. => []
  | .policyApplied n => n.changes.map (fun c => c.1)
  | .completion .. => []
  | .startup .. => []
  | .telemetry .. => []

/-- The branch of a warning that a later warning of the same kind replaces (R182). -/
def Notice.warned : Notice → Option Position
  | .cutWarn p _ _ _ _ => some p
  | .isolateWarn p _ _ _ _ _ => some p
  | _ => none

/-- A kind whose delivery follows the mask; the assured kinds, STARTUP and TELEMETRY do not (R179, R180). -/
def Notice.byMask (n : Notice) : Bool := !(n.assured || n.kind = 14 || n.kind = 15)

/-- A SERVER may be sent a notice its mask selects (R179). -/
def Notice.reaches (n : Notice) (branch : Option Position) : Bool :=
  if n.kind = 10 then true else if n.kind = 11 then false
  else match branch with
    | none => false
    | some p => n.concerns.contains p

/-- A requester receives a notice through its mask (R179). -/
def Requester.selects (r : Requester) (n : Notice) : Bool :=
  n.byMask && r.mask.getLsbD (n.kind - 1) && (r.role ≠ .server || n.reaches r.branch)

/-- The entries a notice reaches whatever their masks: the bound server, a named role, every requester, or the requesters
whose telemetry mode calls for it (R179). -/
def State.namedFor (s : State) (n : Notice) : List Nat :=
  let bound (p : Position) := (s.br p).boundTo.toList
  match n with
  | .grantChanged g => bound g.pos
  | .cutWarn p _ _ _ _ => bound p
  | .isolateWarn p _ _ _ _ _ => bound p
  | .settled g => bound g.pos
  | .unsettled g => bound g.pos
  | .uncontained .. => (s.entryOfRole .rack).toList ++ (s.entryOfRole .supply).toList
  | .demand .. => (s.entryOfRole .supply).toList
  | .startup .. => Config.entries.filter (fun i => (s.requester i).isSome)
  | .telemetry .. => Config.entries.filter (fun i => match s.requester i with
      | none => false
      | some r => r.telemetry ≠ .off)
  | _ => []

/-- The entries a notice goes to, each once: the named ones, then those whose mask selects it, by index (R179). -/
def State.addressees (s : State) (n : Notice) : List Nat :=
  let named := s.namedFor n
  named ++ Config.entries.filter (fun i => !named.contains i && (match s.requester i with
    | none => false
    | some r => r.selects n))

/-- The notice number after `k` (R181). -/
def nextNumber (k : Nat) : Nat := if k = 65535 then 0 else k + 1

/-- Address and next notice number of each of a list of entries (R181). -/
def State.recipients (s : State) (is : List Nat) : List (Addr × Nat) :=
  is.filterMap (fun i => (s.requester i).map (fun r => (r.addr, nextNumber r.number)))

/-- The requesters of a list of entries are named by an entry of the queue: their notice numbers advance (R181). -/
def State.countFor (s : State) (is : List Nat) : State :=
  s.forEach is (fun s i => s.setRequester i ((s.requester i).map (fun r => { r with number := nextNumber r.number })))

/-! ### The outbound queue (R182) -/

/-- A waiting warning that a new one replaces: same kind, same branch, no frame sent or being sent (R182). -/
def OutEntry.replacedBy (e n : OutEntry) : Bool :=
  e.served = 0 && n.notice.warned.isSome && e.notice.kind = n.notice.kind && e.notice.warned = n.notice.warned

/-- Drop the newest entry that is not assured, sparing the entry whose frame is being sent (R182). -/
def dropNewest (sending : Bool) (q : List OutEntry) : Option (List OutEntry) :=
  match sending, q with
  | true, e :: l => (dropLast? (fun x => !x.notice.assured) l).map (e :: ·)
  | _, l => dropLast? (fun x => !x.notice.assured) l

/-- How a new entry meets the queue (R182); `none` when the entry is discarded. `sending`: a frame of the first entry is
being sent. A full queue always holds an entry that is not assured, so an assured entry finds one to displace. -/
def makeRoom (sending : Bool) (q : List OutEntry) (n : OutEntry) : Option (List OutEntry) :=
  let waiting := if sending then q.drop 1 else q
  match indexWhere (fun e => e.replacedBy n) waiting (if sending then 1 else 0) with
  | some i => some (q.set i n)
  | none =>
    if q.length < Config.outboundSize then some (q ++ [n])
    else if n.notice.assured then (dropNewest sending q).map (· ++ [n])
    else none

/-- The transmitter is sending a frame of the first outbound entry (R183). -/
def Link.sendingNotice (k : Link) : Bool := k.sending = some .notice

/-- Put an entry for a list of requesters into the outbound queue; a discarded entry advances no number (R181, R182). -/
def State.enqueue (s : State) (e : OutEntry) (is : List Nat) : State :=
  match makeRoom s.link.sendingNotice s.link.outbound e with
  | none => s
  | some q => State.countFor { s with link.outbound := q } is

/-! ### Notices of the event in progress (R43, R98, R181) -/

/-- A notice is held with those it is made for, to be handed to the link at the end of the event. -/
def State.hold (s : State) (n : Notice) (tag : Byte) (a : Addressees) : State :=
  { s with work.held := s.work.held ++ [{ notice := n, tag := tag, whom := a }] }

/-- A block makes a notice, for the entries it goes to as the table stands (R179, R181); its tag is 0 (log 30). -/
def State.notify (s : State) (n : Notice) : State := s.hold n 0 (.entries (s.addressees n))

/-- The place of a notice of the arbiter among the notices the arbiter makes in one event; none for the notice of another
block (R43). -/
def Notice.arbiterRank : Notice → Option Nat
  | .cutWarn .. => some 0
  | .grantChanged .. => some 1
  | .demand .. => some 2
  | .supplyAlert .. => some 3
  | _ => none

/-- The position a GRANT_CHANGED names, by which those of one event are ordered (R43). -/
def Notice.grantPosition : Notice → Position
  | .grantChanged n => n.pos
  | _ => 0

/-- The held notices of one rank, in the order they were made. -/
def heldOfRank (k : Option Nat) (l : List HeldNotice) : List HeldNotice := l.filter (fun h => h.notice.arbiterRank = k)

/-- The notices of an event, those of the arbiter last and in the order of R43, whichever of two passes made them. -/
def arbiterLast (l : List HeldNotice) : List HeldNotice :=
  heldOfRank none l ++ heldOfRank (some 0) l ++
    sortBy (fun x y => x.notice.grantPosition ≤ y.notice.grantPosition) (heldOfRank (some 1) l) ++
    heldOfRank (some 2) l ++ heldOfRank (some 3) l

/-- The arbiter hands its notices to the link at the end of the event (R43; log 65). -/
def State.arbiterSpeaksLast (s : State) : State := { s with work.held := arbiterLast s.work.held }

/-- A notice that its event has overtaken: BRANCH_UNSETTLED of a branch that is not ACTIVE after the event (R98). -/
def State.overtaken (s : State) (n : Notice) : Bool := match n with
  | .unsettled u => (s.br u.pos).state ≠ .active
  | _ => false

/-- The entries of the table a held notice is for (R179, R181). -/
def State.entriesFor (s : State) : Addressees → List Nat
  | .entries is => is
  | .station a => (s.entryOf a).toList

/-- The recipients of a held notice; the station of a COMPLETION that holds no entry gets a number of its own (R178,
R181). -/
def State.recipientsFor (s : State) (a : Addressees) : List (Addr × Nat) := match a, s.recipients (s.entriesFor a) with
  | .station x, [] => [(x, Config.unregisteredNumber x)]
  | _, l => l

/-- A held notice is handed to the link (R181). A notice that finds no recipient makes no entry. -/
def State.hand (s : State) (h : HeldNotice) : State :=
  if s.overtaken h.notice || (s.recipientsFor h.whom).isEmpty then s
  else s.enqueue { notice := h.notice, tag := h.tag, recipients := s.recipientsFor h.whom, served := 0 } (s.entriesFor h.whom)

/-- The notices of an event are handed to the link in the order they stand in, and the event is over (R43, R181). -/
def State.flush (s : State) : State := { s.forEach s.work.held State.hand with work := Work.idle }

/-! ### Long commands (R178) -/

/-- A long command of a kind is in flight: its record exists (R178). -/
def State.longInFlight (s : State) (k : LongKind) : Bool := s.link.longs.any (fun r => r.kind = k)

/-- An accepted long command is recorded (R178). -/
def State.recordLong (s : State) (k : LongKind) (c : Cmd) : State :=
  { s with link.longs := s.link.longs ++ [{ kind := k, issuer := c.src, tag := c.tag, completed := false }] }

/-- The record of a long command that may still complete: none from the taking of a RESTART on (R178, R187). -/
def State.openLong (s : State) (k : LongKind) : Option LongRecord :=
  if s.link.restarting then none else s.link.longs.find? (fun r => r.kind = k && !r.completed)

/-- The owning block ends a long command: one COMPLETION is made from its record, addressed to the issuer's station
(R178, R181). -/
def State.complete (s : State) (k : LongKind) (st : Status) (body : CompletionBody) : State :=
  match s.openLong k with
  | none => s
  | some r =>
    State.hold { s with link.longs := s.link.longs.map (fun (x : LongRecord) =>
      if x.kind = k then { x with completed := true } else x) } (.completion k st body) r.tag (.station r.issuer)

/-! ### Replies and the transmitter (R176, R183) -/

/-- Hand a reply frame to the transmitter. Replies that wait together, with refusals at arrival among them, are sent in the
order they were handed over: the model's choice (log 73). -/
def State.handReply (s : State) (f : ReplyFrame) : State := { s with link.replies := s.link.replies ++ [f] }

/-- The transmitter, if free, sends the next reply frame, or else a frame of the oldest outbound entry; while the port
has no link it waits (R183). -/
def State.transmit (s : State) : State :=
  if s.link.up && s.link.sending.isNone then
    match s.link.replies with
    | f :: l => { s with link.replies := l, link.sending := some (.reply f) }
    | [] => if s.link.outbound.isEmpty then s else { s with link.sending := some .notice }
  else s

/-- A reply of a command taken from the queue is still to be sent (R174). -/
def Link.replyOpen (k : Link) : Bool :=
  k.replies.any (fun f => f.ofTaken) || (match k.sending with
    | some (.reply f) => f.ofTaken
    | _ => false)

end Sys2Proof.Machine
end

