-- ==== Sys2Proof/Machine/Bus.lean ====
section
/-! DEFINITION. The valve bus controller: the arbiter of the line, claims, reservations, the sending and the ending of moves, the fault codes of the shadows, service moves and the curve verify. -/

namespace Sys2Proof.Machine

/-! ### Reports (R72) -/

/-- Make an end or fault report to a client; it is delivered within the same event. -/
def State.report (s : State) (c : Client) (a : ActuatorNo) (k : ReportKind) : State :=
  if c = .nobody then s else { s with bus.reports := s.bus.reports ++ [{ client := c, actuator := a, kind := k }] }

/-! ### Sending (R69, R71, R75) -/

/-- A request goes out: the line is busy and the actuator's last transaction is now (R67, R69). -/
def State.sendRequest (s : State) (a : ActuatorNo) (r : Request) (attempt : Nat) : State :=
  { s.modAct a (fun x => { x with lastTx := some s.now }) with
    bus.line := .busy { actuator := a, request := r, attempt := attempt, sentAt := s.now } }

/-- The kind of client a claim's class names as move owner (R67). -/
def ownerOf (c : Client) : Owner := match c with
  | .nobody => .flow
  | .flow => .flow
  | .iso _ => .iso
  | .trunkOpening => .iso
  | .service => .svc
  | .verify => .verify
  | .verifyClosing => .verify

/-- The client of the move in progress on an actuator receives SUPERSEDED (R75). -/
def State.supersede (s : State) (a : ActuatorNo) : State := match (s.act a).move with
  | none => s
  | some m => s.report m.client a .superseded

/-- A granted MOVE claim is sent: the move in progress is superseded, an idle poll waiting for the actuator is removed,
commanded target and owner are set, both fault timers start, and the new move has no start reference before its reply
(R75, R79). -/
def State.sendMove (s : State) (c : Claim) : State :=
  let s := s.supersede c.actuator
  let s := s.modAct c.actuator (fun x => { x with
    target := some c.target, owner := some (ownerOf c.client), startRef := none
    move := some { target := c.target, client := c.client, started := false
                   startTimer := some (s.now + Config.startWait), moveTimer := s.now + Config.moveWait, sentAt := s.now } })
  let s := { s with
    bus.pollQ := s.bus.pollQ.filter (fun p => p.survey || p.actuator ≠ c.actuator)
    bus.trackDue := s.bus.trackDue.erase c.actuator }
  s.sendRequest c.actuator (.move c.target) 1

/-- The grant outside a BUS_CLEAR: the tracking poll due longest, then the oldest ISO, FLOW, SVC and POLL claim (R71). -/
def State.grantClaim (s : State) : State :=
  match s.bus.trackDue, s.bus.isoQ, s.bus.flowQ, s.bus.svcQ, s.bus.pollQ with
  | a :: l, _, _, _, _ => State.sendRequest { s with bus.trackDue := l } a .tracking 1
  | [], c :: l, _, _, _ => State.sendMove { s with bus.isoQ := l } c
  | [], [], c :: l, _, _ => State.sendMove { s with bus.flowQ := l } c
  | [], [], [], c :: l, _ => State.sendMove { s with bus.svcQ := l } c
  | [], [], [], [], p :: l =>
    State.sendRequest { s with bus.pollQ := l } p.actuator (if p.survey then .survey else .idle) 1
  | [], [], [], [], [] => s

/-- The grant while a BUS_CLEAR is in progress: the STOP, then the clear polls in address order; with none left the clear
is over (R71, R83). -/
def State.grantClear (s : State) (c : Clearing) : State :=
  if c.stopSent then
    match c.polls with
    | a :: _ => s.sendRequest a .clear 1
    | [] => State.grantClaim { s with bus.clearing := none }
  else { s with bus.line := .stopping, bus.clearing := some { c with stopSent := true } }

/-- The arbiter grants the line if it is free (R71). -/
def State.grantLine (s : State) : State :=
  if s.bus.line = .free then
    match s.bus.clearing with
    | some c => s.grantClear c
    | none => s.grantClaim
  else s

/-- Work during which the line is not granted: the claims it makes wait (R71, R100; log 65). -/
def State.holdingLine (s : State) (f : State → State) : State :=
  { f { s with bus.line := .stopping } with bus.line := s.bus.line }

/-! ### Claims (R70, R73) -/

/-- Put a claim into a queue whose claims coalesce per actuator: a waiting claim keeps its place and its time, takes the
new target and belongs to the new client (R70). The clients of one queue are one client of the controller (flow control,
or the isolation sequencer), so none is told of a replacement. -/
def coalesce (c : Claim) (q : List Claim) : List Claim :=
  if q.any (fun x => x.actuator = c.actuator)
  then q.map (fun x => if x.actuator = c.actuator then { x with target := c.target, client := c.client } else x)
  else q ++ [c]

/-- The isolation sequencer places an ISO claim; a free line is granted at once (R70, R71). -/
def State.placeIso (s : State) (a : ActuatorNo) (target : Nat) (client : Client) : State :=
  State.grantLine { s with
    bus.isoQ := coalesce { actuator := a, target := target, client := client, madeAt := s.now } s.bus.isoQ }

/-- Flow control places a FLOW claim; one for a reserved actuator is removed when it is made (R70, R73). -/
def State.placeFlow (s : State) (a : ActuatorNo) (target : Nat) : State :=
  if (s.act a).reservedBy ≠ 0 then s.report .flow a .refusedReserved
  else State.grantLine { s with
    bus.flowQ := coalesce { actuator := a, target := target, client := .flow, madeAt := s.now } s.bus.flowQ }

/-- A service move or the curve verify places an SVC claim; one for a reserved actuator is removed when it is made
(R70, R73). -/
def State.placeSvc (s : State) (a : ActuatorNo) (target : Nat) (client : Client) : State :=
  if (s.act a).reservedBy ≠ 0 then s.report client a .refusedReserved
  else State.grantLine { s with
    bus.svcQ := s.bus.svcQ ++ [{ actuator := a, target := target, client := client, madeAt := s.now }] }

/-- The controller places a POLL claim, at most one per actuator (R70). -/
def State.placePoll (s : State) (a : ActuatorNo) (survey : Bool) : State :=
  if s.bus.pollQ.any (fun p => p.actuator = a) then s
  else State.grantLine { s with
    bus.pollQ := s.bus.pollQ ++ [{ actuator := a, survey := survey, madeAt := s.now }] }

/-- A job reserves an actuator: waiting FLOW and SVC claims for it are removed with REFUSED_RESERVED, and a waiting ISO
claim of another client is removed, since only the job may move the actuator from now on (R73; log 60). -/
def State.reserve (s : State) (i : JobId) (a : ActuatorNo) : State :=
  let s := s.modAct a (fun x => { x with reservedBy := i })
  let gone := (s.bus.flowQ ++ s.bus.svcQ).filter (fun c => c.actuator = a)
  let s := { s with
    bus.isoQ := s.bus.isoQ.filter (fun c => c.actuator ≠ a || c.client = Client.iso i)
    bus.flowQ := s.bus.flowQ.filter (fun c => c.actuator ≠ a)
    bus.svcQ := s.bus.svcQ.filter (fun c => c.actuator ≠ a) }
  s.forEach gone (fun s c => s.report c.client a .refusedReserved)

/-- The reservation of an actuator is dropped (R73). -/
def State.unreserve (s : State) (a : ActuatorNo) : State := s.modAct a (fun x => { x with reservedBy := 0 })

/-- A client is told nothing further of its moves in progress, and its waiting SVC claims are removed (R87, R92). -/
def State.dismiss (s : State) (c : Client) : State :=
  { s with
    bus.svcQ := s.bus.svcQ.filter (fun x => x.client ≠ c)
    bus.actuators := s.bus.actuators.map (fun x => match x.move with
      | none => x
      | some m => if m.client = c then { x with move := some { m with client := .nobody } } else x) }

/-! ### Fault marks of a branch (R5) -/

/-- A member enters the faults set of a branch with its notice (R5). -/
def State.markFault (s : State) (p : Position) (m : FaultMember) (side : Option MeterSide) : State := match m with
  | .valveFault => if (s.br p).valveFault then s
      else (s.modBr p (fun b => { b with valveFault := true })).notify (.branchFault p m side)
  | .meterFault => if (s.br p).meterFault then s
      else (s.modBr p (fun b => { b with meterFault := true })).notify (.branchFault p m side)
  | .returnOpen => if (s.br p).returnOpen then s
      else (s.modBr p (fun b => { b with returnOpen := true })).notify (.branchFault p m side)

/-- VALVE_FAULT leaves the branch of an actuator when both of its actuators have fault code NONE (R5). -/
def State.recheckValveFault (s : State) (a : ActuatorNo) : State := match branchOf a with
  | none => s
  | some p =>
    if (s.act (supplyOf p)).fault = .none && (s.act (returnOf p)).fault = .none
    then s.modBr p (fun b => { b with valveFault := false }) else s

/-! ### The end of a move (R75–R78) -/

/-- The move in progress on an actuator ends: it is IDLE, its timers and its tracking polls stop, and its client is told;
its start reference and its commanded target stay in the shadow (R75–R78). -/
def State.endMove (s : State) (a : ActuatorNo) (k : ReportKind) : State := match (s.act a).move with
  | none => s
  | some m =>
    let s := s.modAct a (fun x => { x with moving := false, move := none })
    let s := { s with bus.trackDue := s.bus.trackDue.erase a }
    s.report m.client a k

/-- The move in progress fails: its fault code replaces the one held (R77, R78, R81). -/
def State.failMove (s : State) (a : ActuatorNo) (f : FaultCode) : State :=
  if (s.act a).move.isSome
  then (s.modAct a (fun x => { x with fault := f })).endMove a (.failed f) else s

/-- RETURN_OPEN leaves a branch when a move of its return actuator completes at 20 or less (R5). -/
def State.clearReturnOpen (s : State) (a : ActuatorNo) : State := match branchOf a with
  | none => s
  | some p => if a = returnOf p && (s.act a).atMost 20 then s.modBr p (fun b => { b with returnOpen := false }) else s

/-- The move in progress is complete: a code of MISSED_START, STALL or DRIFT becomes NONE (R75, R76, R81). -/
def State.completeMove (s : State) (a : ActuatorNo) : State :=
  if (s.act a).move.isSome then
    let s := s.modAct a (fun x => { x with fault := .none })
    let s := (s.recheckValveFault a).clearReturnOpen a
    s.endMove a .complete
  else s

/-! ### Service moves (R87) -/

/-- The branch of the service move in flight. -/
def State.serviceBranch (s : State) : Option Position := s.bus.service.bind (fun m => branchOf m.actuator)

/-- The service move in flight ends with its COMPLETION; its waiting claim is removed (R87). -/
def State.endService (s : State) (st : Status) (body : CompletionBody) : State :=
  if s.bus.service.isSome then
    let s := s.complete .service st body
    State.dismiss { s with bus.service := none } .service
  else s

/-- Both of a branch's actuators report 20 or less and it holds a draw, so a service move that ends returns the draw to
0 (R87). -/
def State.drawFreed (s : State) (p : Position) : Bool :=
  (s.br p).draw ≠ 0 && (s.act (supplyOf p)).atMost 20 && (s.act (returnOf p)).atMost 20

/-- A branch's draw returns to 0. -/
def State.clearDraw (s : State) (p : Position) : State := s.modBr p (fun b => { b with draw := 0 })

/-! ### Curve verify (R88–R92) -/

/-- A curve verify runs on a branch. -/
def State.verifyOn (s : State) (p : Position) : Bool :=
  s.bus.verify.status = .running && s.bus.verify.branch = some p

/-- The COMPLETION of a verify that ends with a status (R91). -/
def Verify.completion (v : Verify) : Status × CompletionBody := match v.status with
  | .passed => (.done, .verifyPassed)
  | .mismatch =>
    let k := v.frozen.getD 0
    let e := v.entries.getD k ⟨0, 0, 0⟩
    (.failed, .verifyMismatch k e.expected e.measured)
  | .fault f => (.failed, .verifyFault f)
  | .aborted r => (.aborted, .aborted (.verify r))
  | .none => (.done, .verifyPassed)
  | .running => (.done, .verifyPassed)

/-- The running verify ends with a status: its draw returns to 0, its waiting claim is removed, the supply close is
placed unless its valves are left to the job or to the revocation, and COMPLETION is sent (R91, R92). The pass of the
draw is the event's (R91). -/
def State.endVerify (s : State) (p : Position) (st : VerifyStatus) (closes : Bool) : State :=
  let s := { s with bus.verify := { s.bus.verify with status := st } }
  let s := (s.clearDraw p).dismiss .verify
  let s := if closes
    then State.placeSvc { s with bus.closing := some { branch := p, returnSide := false } } (supplyOf p) 0 .verifyClosing
    else s
  s.complete .verify s.bus.verify.completion.1 s.bus.verify.completion.2

/-- The closing sequence of a verify on a branch ends: its waiting claim is removed and no further one is placed (R91). -/
def State.endClosing (s : State) (p : Position) : State := match s.bus.closing with
  | none => s
  | some c => if c.branch = p
      then { s with bus.closing := none, bus.svcQ := s.bus.svcQ.filter (fun x => x.client ≠ .verifyClosing) } else s

/-- The actuator the closing sequence is closing (R91). -/
def Closing.actuator (c : Closing) : ActuatorNo := if c.returnSide then returnOf c.branch else supplyOf c.branch

/-- The actuator and target of the move a running verify waits for (R88, R89). -/
def Verify.moveOf (v : Verify) : Option (ActuatorNo × Nat) := match v.branch, v.step with
  | some p, .openReturn => some (returnOf p, 1000)
  | some p, .moving k => some (supplyOf p, 100 * k)
  | _, _ => none

end Sys2Proof.Machine
end

