-- ==== Sys2Proof/Machine/FlowControl.lean ====
section
/-! DEFINITION. Flow control: what a change of drive does to the settled flag, the control target and the valves (R97–R103), and the return of a branch's drive to 0. -/

namespace Sys2Proof.Machine

/-- The body of BRANCH_SETTLED and BRANCH_UNSETTLED as the state stands (R98). -/
def State.settleNotice (s : State) (p : Position) (cause : SettleCause) : SettleNotice :=
  { pos := p, cause := cause, drive := (s.br p).drive, supply := (s.br p).measuredSupply
    ret := (s.br p).measuredReturn, counter := s.window.counter }

/-- A branch's settle run becomes 0; if it was settled it becomes not settled, with a BRANCH_UNSETTLED that is handed over
if the branch is ACTIVE after the event (R97, R98; `State.overtaken`). -/
def State.unsettle (s : State) (p : Position) (cause : SettleCause) : State :=
  let was := (s.br p).settled
  let s := s.modBr p (fun b => { b with settleRun := 0, settled := false })
  if was then s.notify (.unsettled (s.settleNotice p cause)) else s

/-- The return rule of an ACTIVE branch: a return actuator not commanded to 1000 is moved there (R103). -/
def State.returnRule (s : State) (p : Position) : State :=
  if (s.act (returnOf p)).target = some 1000 then s else s.placeFlow (returnOf p) 1000

/-- The supply valve of an ACTIVE branch follows the curve: control target and FLOW claim (R100, R101). -/
def State.followCurve (s : State) (p : Position) : State :=
  let t := (s.br p).curveTarget (s.br p).drive
  (s.modBr p (fun b => { b with controlTarget := some t })).placeFlow (supplyOf p) t

/-- What flow control does with a drive handed to it, by the state of the branch (R100). -/
def State.actOnDrive (s : State) (p : Position) : State := match (s.br p).state with
  | .active => (s.followCurve p).returnRule p
  | .vacant => s.modBr p (fun b => { b with controlTarget := some 0 })
  | .maintenance => s.modBr p (fun b => { b with controlTarget := some 0 })
  | .isolating => s.modBr p (fun b => { b with controlTarget := some 0 })
  | .isolated => s.modBr p (fun b => { b with controlTarget := some 0 })
  | .held => s

/-- A drive is handed to the flow measurement unit as a change of drive (R97, R98, R100). -/
def State.handOver (s : State) (p : Position) : State :=
  let s := s.modBr p (fun b => { b with driveChanged := true })
  (s.unsettle p .driveChanged).actOnDrive p

/-- A branch's drive is set; a change is handed to the flow measurement unit (R3, R40). -/
def State.setDrive (s : State) (p : Position) (d : Nat) : State :=
  if (s.br p).drive = d then s
  else (s.modBr p (fun b => { b with drive := d })).handOver p

/-- FLOW claims move both actuators of a branch to 0 (R11, R14, R17, R86, R100); that the supply valve comes first is the
model's choice (log 68). -/
def State.shutValves (s : State) (p : Position) : State :=
  (s.placeFlow (supplyOf p) 0).placeFlow (returnOf p) 0

/-- A branch that has entered VACANT or MAINTENANCE: its drive becomes 0 at once and its valves are closed (R11, R100). -/
def State.shutBranch (s : State) (p : Position) : State :=
  let s := s.setDrive p 0
  (s.modBr p (fun b => { b with controlTarget := some 0 })).shutValves p

end Sys2Proof.Machine
end

