-- ==== Sys2Proof/Machine/Arbiter.lean ====
section
/-! DEFINITION. The grant arbiter: stamps, the allocation pass stage by stage, cuts, rises, their re-examination, and what a branch loses when it leaves ACTIVE (R26–R46, R11). -/

namespace Sys2Proof.Machine

/-! ### Stamps (R26) -/

/-- The ACTIVE branches in the order of their stamps (R26). -/
def State.byStamp (s : State) : List Position :=
  sortBy (fun p q => (s.br p).stamp.getD 0 ≤ (s.br q).stamp.getD 0)
    (s.activePositions.filter (fun p => (s.br p).stamp.isSome))

/-- The stamps of all ACTIVE branches become 1, 2, … in the order of their old stamps (R26). -/
def State.renumber (s : State) : State :=
  s.forEach s.byStamp (fun t p =>
    { t.modBr p (fun b => { b with stamp := some t.arb.nextStamp }) with arb.nextStamp := t.arb.nextStamp + 1 })

/-- A branch takes a new stamp (R26). -/
def State.takeStamp (s : State) (p : Position) : State :=
  let s := if s.arb.nextStamp < Config.stampMax then s else State.renumber { s with arb.nextStamp := 1 }
  { s.modBr p (fun b => { b with stamp := some s.arb.nextStamp }) with arb.nextStamp := s.arb.nextStamp + 1 }

/-! ### Leaving ACTIVE (R11) -/

/-- A trim running on a branch is cancelled with COMPLETION ABORTED. A branch that leaves ACTIVE enters VACANT, MAINTENANCE or
ISOLATING, where the control target is 0; after an apply the hand-over sets it (R100, R107). -/
def State.cancelTrim (s : State) (p : Position) (cause : TrimAbort) : State :=
  if (s.br p).trim.isSome
  then (s.modBr p (fun b => { b with
    trim := none, controlTarget := if cause = .leftActive then some 0 else b.controlTarget })).complete
      (.trim p) .aborted (.aborted (.trim cause))
  else s

/-- The arbiter fields of a branch that leaves ACTIVE are cleared before the pass (R11). -/
def State.clearArbiterFields (s : State) (p : Position) : State :=
  (s.modBr p (fun b => { b with
    request := 0, urgent := false, stamp := none, riseWaiting := false, cut := none })).cancelTrim p .leftActive

/-! ### Stage 1: draws (R32, R86) -/

/-- The controller revokes a draw inside a pass: it becomes 0, the service move or verify that held it ends, and FLOW
claims close both valves (R86). -/
def State.revokeDraw (s : State) (p : Position) : State :=
  let s := s.clearDraw p
  let s := if s.serviceBranch = some p then s.endService .aborted (.aborted (.service .revoked)) else s
  let s := if s.verifyOn p then s.endVerify p (.aborted .supplyFall) false else s
  s.shutValves p

/-- Stage 1: draws are revoked in descending position order until D fits max(0, B − Q) (R32). -/
def State.fitDraws (s : State) : State :=
  s.forEach Config.positions.reverse (fun s p =>
    if s.budget - s.quarantined < s.draws && (s.br p).draw ≠ 0 then s.revokeDraw p else s)

/-! ### Stage 3: grants (R33, R34) -/

/-- A grant is written. -/
def State.setGrant (s : State) (p : Position) (g : Nat) : State := s.modBr p (fun b => { b with grant := g })

/-- Every ACTIVE branch is granted its floor and every other branch 0 (R33). -/
def State.grantFloors (s : State) : State :=
  s.forEach Config.positions (fun s p => s.setGrant p (if (s.br p).state = .active then (s.br p).limits.floor else 0))

/-- One step of the hand-down: a branch takes min(t − floor, remainder) above its floor (R33). -/
def handDownStep (x : State × Nat) (p : Position) : State × Nat :=
  let b := x.1.br p
  let more := min (b.target - b.limits.floor) x.2
  (x.1.setGrant p (b.limits.floor + more), x.2 - more)

/-- The grants when the floors fit: floors, then the remainder handed down the standing order (R33). -/
def State.grantInFull (s : State) : State :=
  (s.standingOrder.foldl handDownStep (s.grantFloors, s.available - s.floorSum)).1

/-- The grants in SHORTFALL: ⌊floor × A / Σfloor⌋ for each ACTIVE branch (R34). -/
def State.grantShort (s : State) : State :=
  let a := s.available
  let f := s.floorSum
  s.forEach Config.positions (fun s p =>
    s.setGrant p (if (s.br p).state = .active then (s.br p).limits.floor * a / f else 0))

/-- The floors of the ACTIVE branches do not fit the available flow (R34). -/
def State.short (s : State) : Bool := s.available < s.floorSum

/-- Stage 3 (R33, R34). -/
def State.grantAll (s : State) : State := if s.short then s.grantShort else s.grantInFull

/-! ### Stage 4: cuts (R35–R37) -/

/-- Stage 4 for one branch: grant and drive are compared (R35–R37). -/
def State.compareDrive (s : State) (p : Position) : State :=
  let b := s.br p
  if b.state ≠ .active then s
  else match b.cut with
    | none =>
      if b.grant < b.drive then
        if b.boundTo.isSome then
          s.modBr p (fun b => { b with
            cut := some { newDrive := b.grant, deadline := s.now + s.pol.active.timing.cutDeadline } })
        else s.setDrive p b.grant
      else s
    | some k =>
      if b.grant < b.drive then
        if b.grant = k.newDrive then s
        else s.modBr p (fun b => { b with cut := some { k with newDrive := b.grant } })
      else s.modBr p (fun b => { b with cut := none })

/-! ### Stage 5: rises (R41, R42) -/

/-- A candidate for a rise: ACTIVE, grant above drive, no pending cut (R41). -/
def Branch.candidate (b : Branch) : Bool := b.state = .active && b.drive < b.grant && b.cut.isNone

/-- One step of a round: a candidate's drive rises toward a level by what the room allows (R41). -/
def riseStep (level : Branch → Nat) (x : State × Int) (p : Position) : State × Int :=
  let b := x.1.br p
  let more := min (level b - b.drive : Nat) x.2.toNat
  if 0 < more then (x.1.setDrive p (b.drive + more), x.2 - more) else x

/-- The floor round and the grant round over a list of candidates, from the room at their start; none while the supply
record is STALE (R41). -/
def State.rises (s : State) (ps : List Position) : State :=
  if s.arb.supply.state = .stale then s
  else
    let order := s.inKeyOrder (ps.filter (fun p => (s.br p).candidate))
    let floorRound := order.foldl (riseStep (fun b => min b.grant b.limits.floor)) (s, s.room)
    (order.foldl (riseStep (fun b => b.grant)) floorRound).1

/-- Rise waiting is yes for every ACTIVE branch whose drive is below its grant, and no for every other (R42). -/
def State.setRiseWaiting (s : State) : State :=
  s.forEach Config.positions (fun s p =>
    s.modBr p (fun b => { b with riseWaiting := b.state = .active && b.drive < b.grant }))

/-- Waiting rises are re-examined: stage 5 alone, over the branches with rise waiting yes (R42). -/
def State.reexamine (s : State) : State :=
  (s.rises (s.positionsWhere (fun b => b.riseWaiting))).setRiseWaiting

/-! ### Stages 6 and 7: pending queue and notices (R30, R43–R46) -/

/-- The standing order and the pending queue are set (R29, R30). -/
def State.setQueues (s : State) : State :=
  let order := s.standingOrder
  { s with arb.standing := order, arb.queue := order.filter (fun p => (s.br p).grant < (s.br p).target) }

/-- CUT_WARN for the pending cut of a branch as it stands (R36). -/
def State.warnCut (s : State) (p : Position) : State := match (s.br p).cut with
  | none => s
  | some k => s.notify (.cutWarn p (s.br p).drive k.newDrive (s.left k.deadline) (s.br p).grant)

/-- A pass has made the pending cut of a branch, or given it a new drive (R36, R37). -/
def cutMade (before after : State) (p : Position) : Bool :=
  (after.br p).cut.isSome && (before.br p).cut ≠ (after.br p).cut

/-- GRANT_CHANGED for a branch as it stands (R44). -/
def State.grantNotice (s : State) (p : Position) : Notice :=
  let b := s.br p
  .grantChanged { pos := p, state := b.state, request := b.request, target := b.target, grant := b.grant
                  drive := b.drive, cut := b.cut.map (fun k => (k.newDrive, s.left k.deadline))
                  shortfall := s.arb.shortfall }

/-- A branch gets a GRANT_CHANGED from a pass: its grant changed, the pass removed its pending cut, or it left ACTIVE in
the event (R44). -/
def grantMoved (before after : State) (left : List Position) (p : Position) : Bool :=
  left.contains p || (before.br p).grant ≠ (after.br p).grant ||
  ((before.br p).cut.isSome && (after.br p).cut.isNone)

/-- SUPPLY_ALERT with a cause, as the state stands (R46). -/
def State.alert (s : State) (cause : AlertCause) : State :=
  s.notify (.supplyAlert { cause := cause, state := s.arb.supply.state, supply := s.supplyInUse, budget := s.budget
                           quarantined := s.quarantined, draws := s.draws, available := s.available
                           floors := s.floorSum })

/-- DEMAND, when the sum of targets differs from that of the pass before (R45). -/
def State.demand (s : State) : State :=
  let t := s.targetSum
  let changed := t ≠ s.arb.lastTargets
  let s := { s with arb.lastTargets := t }
  if changed then s.notify (.demand t s.grantSum s.floorSum s.arb.shortfall) else s

/-- The cause of a change of SHORTFALL, if it changed (R34). -/
def shortfallCause (before after : Bool) : Option AlertCause :=
  if before = after then none else some (if after then .shortfallEntered else .shortfallLeft)

/-- Stage 7: CUT_WARN and then GRANT_CHANGED in position order, DEMAND, then SUPPLY_ALERT in the order their causes arose
(R43). -/
def State.passNotices (s before : State) (left : List Position) (alerts : List AlertCause) : State :=
  let s := s.forEach (Config.positions.filter (cutMade before s)) State.warnCut
  let s := s.forEach (Config.positions.filter (grantMoved before s left)) (fun s p => s.notify (s.grantNotice p))
  let s := s.demand
  s.forEach (alerts ++ (shortfallCause before.arb.shortfall s.arb.shortfall).toList) State.alert

/-- The allocation pass (R31). `left`: the branches that left ACTIVE in the event; `alerts`: causes of SUPPLY_ALERT that
arose in the event before the pass. The event counts as one that runs a pass (R85). -/
def State.pass (before : State) (left : List Position) (alerts : List AlertCause) : State :=
  let s := before.fitDraws
  let short := s.short
  let s := s.grantAll
  let s := { s with arb.shortfall := short }
  let s := s.forEach Config.positions State.compareDrive
  let s := s.rises Config.positions
  let s := s.setRiseWaiting.setQueues
  State.passNotices { s with work.ran := true } before left alerts

/-! ### One pass for the event (R31) -/

/-- An event asks for its pass, which runs once after the other changes of the event; some branches may have left ACTIVE
(R31). -/
def State.askPass (s : State) (left : List Position) : State :=
  { s with work.due := true, work.left := s.work.left ++ left }

/-- A draw that has returned to 0 asks for a pass unless the event has run one (R85). -/
def State.askDrawPass (s : State) : State := if s.work.ran then s else s.askPass []

/-- Something follows the pass of the event. -/
def State.afterPass (s : State) (x : AfterPass) : State := { s with work.after := s.work.after ++ [x] }

end Sys2Proof.Machine
end

