-- ==== Sys2Proof/Machine/HoldStore.lean ====
section
/-! DEFINITION. The hold store: the current slot of each pair, hold writes asked for and begun, and the image a save writes (R186–R188). -/

namespace Sys2Proof.Machine

/-! ### Sequence numbers and slots (R186) -/

/-- The sequence number after one, wrapping from 65535 to 1 (R186). -/
def nextSequence (n : Nat) : Nat := if n = 65535 then 1 else n + 1

/-- `a` is ahead of `b` on the cycle of the numbers 1–65535: it lies 1 to 32767 steps ahead (R186). -/
def ahead (a b : Nat) : Bool := inSteps ((a + 65535 - b) % 65535)
where
  /-- a number of steps that counts as ahead -/
  inSteps (k : Nat) : Bool := 1 ≤ k && k ≤ 32767

/-- The slot that is current: the valid one with the higher number, A when both hold the same (R186). -/
def currentSlot (a b : Option Nat) : Option SlotName := match a, b with
  | none, none => none
  | some _, none => some .a
  | none, some _ => some .b
  | some m, some n => if ahead n m then some .b else some .a

/-- The slot a write goes to: the one that is not current, A when there is none (R186). -/
def writeSlot (current : Option SlotName) : SlotName := match current with
  | some .a => .b
  | some .b => .a
  | none => .a

/-- The current image (R186). -/
def Store.image (k : Store) : Option Image :=
  match currentSlot (k.imageA.map (fun i => i.sequence)) (k.imageB.map (fun i => i.sequence)) with
  | some .a => k.imageA
  | some .b => k.imageB
  | none => none

/-- The slot an image write goes to (R186). -/
def Store.imageSlot (k : Store) : SlotName :=
  writeSlot (currentSlot (k.imageA.map (fun i => i.sequence)) (k.imageB.map (fun i => i.sequence)))

/-- The current hold record (R188). -/
def Store.hold (k : Store) : Option HoldRecord :=
  match currentSlot (k.holdA.map (fun i => i.sequence)) (k.holdB.map (fun i => i.sequence)) with
  | some .a => k.holdA
  | some .b => k.holdB
  | none => none

/-- The slot a hold write goes to (R188). -/
def Store.holdSlot (k : Store) : SlotName :=
  writeSlot (currentSlot (k.holdA.map (fun i => i.sequence)) (k.holdB.map (fun i => i.sequence)))

/-- Write an image slot; `none` leaves it invalid. -/
def Store.setImage (k : Store) (n : SlotName) (i : Option Image) : Store := match n with
  | .a => { k with imageA := i }
  | .b => { k with imageB := i }

/-- Write a hold slot; `none` leaves it invalid. -/
def Store.setHold (k : Store) (n : SlotName) (r : Option HoldRecord) : Store := match n with
  | .a => { k with holdA := r }
  | .b => { k with holdB := r }

/-! ### Hold writes (R188) -/

/-- The requested set under the next sequence number (R188). -/
def State.requestedRecord (s : State) : HoldRecord :=
  { sequence := match s.store.hold with
      | none => 1
      | some r => nextSequence r.sequence
    latched := s.branches.map (fun b => b.latched)
    maint := s.branches.map (fun b => b.maint)
    trunk := s.store.trunkLatch }

/-- A write of the whole requested set begins, to the slot that is not current (R188). -/
def State.beginHoldWrite (s : State) : State :=
  { s with store.holding := some (s.store.holdSlot, s.requestedRecord) }

/-- A change to the requested set asks for a hold write (R188). -/
def State.askHoldWrite (s : State) : State := match s.store.holding with
  | none => s.beginHoldWrite
  | some _ => { s with store.furtherDue := true }

/-- The requested set has changed since an earlier state (R188). -/
def State.holdChanged (s before : State) : Bool :=
  s.requestedRecord.latched ≠ before.requestedRecord.latched || s.requestedRecord.maint ≠ before.requestedRecord.maint ||
  s.requestedRecord.trunk ≠ before.requestedRecord.trunk

/-- Ask for a hold write if the requested set has changed since an earlier state (R188). -/
def State.holdIfChanged (s before : State) : State := if s.holdChanged before then s.askHoldWrite else s

/-- Set the maintenance flag of a branch, with its hold write (R12). -/
def State.setMaint (s : State) (p : Position) (on : Bool) : State :=
  (s.modBr p (fun b => { b with maint := on })).holdIfChanged s

/-! ### The image (R186, R187) -/

/-- The snapshot a save takes: active copy, mask set and requester table (R187). -/
def State.snapshot (s : State) : Image :=
  { sequence := match s.store.image with
      | none => 1
      | some i => nextSequence i.sequence
    policy := s.pol.active
    maskSet := s.pol.maskSet
    requesters := s.link.requesters.map (Option.map (fun r =>
      { addr := r.addr, role := r.role, branch := r.branch, mask := r.mask })) }

end Sys2Proof.Machine
end

