-- ==== Sys2Proof/Machine/Jobs.lean ====
section
/-! DEFINITION. The isolation sequencer: evidence lists, drill preemption, job creation, the phases of a job, escalation, transfer, the reports of its closes, and the intake of requests (chapter 8). -/

namespace Sys2Proof.Machine

/-! ### Evidence lists (R130, R146) -/

/-- An imbalance entry of an evidence list. -/
def Evidence.isImbalance (e : Evidence) : Bool := match e.item with
  | .imbalance _ => true
  | .channel _ => false

/-- An entry joins an evidence list (R130). A full list with no imbalance entry holds every channel, so the last branch
of the match is not reached by a channel entry. -/
def addEvidence (l : List Evidence) (e : Evidence) : List Evidence :=
  if l.any (fun x => x.item = e.item) then
    if e.drill then l else l.map (fun x => if x.item = e.item then { x with drill := false } else x)
  else if l.length < Config.evidenceSize then l ++ [e]
  else if e.isImbalance then l
  else match dropLast? Evidence.isImbalance l with
    | some m => m ++ [e]
    | none => l

/-- The entries of a list join another in their order (R146). -/
def mergeEvidence (l m : List Evidence) : List Evidence := m.foldl addEvidence l

/-- A request's evidence is merged into a job's list (R146). -/
def State.mergeInto (s : State) (i : JobId) (m : List Evidence) : State :=
  s.modJob i (fun j => { j with evidence := mergeEvidence j.evidence m })

/-! ### The table (R142, R164) -/

/-- The next id after the last one issued that no job holds (R142). -/
def State.issueId (s : State) : JobId :=
  (((List.range 255).map (fun k => (s.iso.lastId + k) % 255 + 1)).find?
    (fun i => !s.jobs.any (fun j => j.id = i))).getD 1

/-- A job with an id leaves the table (R164, R166). -/
def State.dropJob (s : State) (i : JobId) : State :=
  { s with iso.slots := s.iso.slots.map (fun x => match x with
      | none => none
      | some j => if j.id = i then none else some j) }

/-- Any reservation a job still holds is dropped (R164). -/
def State.unreserveAll (s : State) (i : JobId) : State :=
  { s with bus.actuators := s.bus.actuators.map (fun x => if x.reservedBy = i then { x with reservedBy := 0 } else x) }

/-- A real job with no target and no trunk is removed (R164). -/
def State.removeIfEmpty (s : State) (i : JobId) : State := match s.job? i with
  | none => s
  | some j => if j.targets.isEmpty && j.trunk.isNone then (s.dropJob i).unreserveAll i else s

/-- The branches a rack job takes up: not VACANT and a target of no real job (R145, R156, R165). -/
def State.newcomers (s : State) : List Position :=
  Config.positions.filter (fun p => (s.br p).state ≠ .vacant && (s.realJobOf p).isNone)

/-! ### The drill report and preemption (R166, R167) -/

/-- Write the outcome of a drill target, keeping a latency already recorded (R167). -/
def State.drillOutcome (s : State) (p : Position) (o : DrillOutcome) : State :=
  { s with iso.report.entries := s.iso.report.entries.map (fun e => if e.pos = p then { e with outcome := some o } else e) }

/-- Write the status of the drill report (R167). -/
def State.drillStatus (s : State) (x : DrillStatus) : State := { s with iso.report.status := x }

/-- Targets without an outcome take one (R167, R168). -/
def State.drillRest (s : State) (o : DrillOutcome) : State :=
  { s with iso.report.entries := s.iso.report.entries.map (fun e => if e.outcome.isNone then { e with outcome := some o } else e) }

/-- Real isolation takes a position from the drill job, which is removed when it has no target left (R166). -/
def State.takeFromDrill (s : State) (p : Position) : State := match s.drillJob with
  | none => s
  | some j =>
    if j.hasTarget p then
      let s := s.modJob j.id (fun j => { j with targets := j.targets.filter (fun t => t.pos ≠ p) })
      let s := s.drillOutcome p .preempted
      if (j.targets.filter (fun t => t.pos ≠ p)).isEmpty then (s.dropJob j.id).drillStatus .preempted else s
    else s

/-- The drill job is ended to free its slot, all its targets preempted (R144, R166). -/
def State.endDrill (s : State) : State := match s.drillJob with
  | none => s
  | some j => s.forEach (j.targets.map (fun t => t.pos)) State.takeFromDrill

/-! ### Phases (R151–R160) -/

/-- Set the phase of a job and its deadline. -/
def State.setPhase (s : State) (i : JobId) (ph : Phase) (d : Option Time) : State :=
  s.modJob i (fun j => { j with phase := ph, deadline := d, armed := false })

/-- On entering CONFIRM the job waits for the first window that begins after it (R159). -/
def State.enterConfirm (s : State) (i : JobId) : State := s.setPhase i .confirm none

/-- CLOSE_RETURN ends when no return-side close is PENDING (R155). -/
def State.checkReturns (s : State) (i : JobId) : State := match s.job? i with
  | none => s
  | some j => if j.phase = .closeReturn && !j.returnPending then s.enterConfirm i else s

/-- A return close that is not OK becomes PENDING (R155). -/
def Close.retried (c : Close) : Close := if c = .ok then .ok else .pending

/-- On entering CLOSE_RETURN the job closes its return side, trunk first, for each close that is not OK (R155). -/
def State.enterCloseReturn (s : State) (i : JobId) : State :=
  let s := (s.setPhase i .closeReturn none).modJob i (fun j => { j with
    targets := j.targets.map (fun t => { t with ret := t.ret.retried })
    trunk := j.trunk.map (fun k => { k with ret := k.ret.retried }) })
  match s.job? i with
  | none => s
  | some j =>
    let s := match j.trunk with
      | some { ret := .pending, .. } => s.placeIso 49 0 (.iso i)
      | _ => s
    let s := s.forEach (j.targets.filter (fun t => t.ret = .pending)) (fun s t => s.placeIso (returnOf t.pos) 0 (.iso i))
    s.checkReturns i

/-- On entering DRAIN the job waits the drain delay; a delay of 0 ends it at once (R155). -/
def State.enterDrain (s : State) (i : JobId) : State :=
  let d := s.pol.active.timing.drainDelay
  let s := s.setPhase i .drain (some (s.now + 1000 * d))
  if d = 0 then s.enterCloseReturn i else s

/-- The body of UNCONTAINED for a job as it stands (R158). -/
def Job.uncontainedNotice (j : Job) (contained : Bool) : Notice :=
  .uncontained j.id contained j.failedSupply j.quarantine (j.targets.map (fun t => t.pos))

/-- UNCONTAINED is sent for a job as it stands (R158). -/
def State.tellUncontained (s : State) (i : JobId) (contained : Bool) : State := match s.job? i with
  | none => s
  | some j => s.notify (j.uncontainedNotice contained)

/-- A job that is not contained enters UNCONTAINED; its deadline field holds the retry deadline (R158). -/
def State.enterUncontained (s : State) (i : JobId) : State :=
  (s.setPhase i .uncontained (some (s.now + Config.retryWait))).tellUncontained i false

/-- Containment is found in UNCONTAINED (R158). -/
def State.foundContained (s : State) (i : JobId) : State :=
  ((s.modJob i (fun j => { j with deadline := none })).tellUncontained i true).enterDrain i

/-- CLOSE_SUPPLY ends when no supply-side close is PENDING, and containment is judged (R153). -/
def State.checkSupply (s : State) (i : JobId) : State := match s.job? i with
  | none => s
  | some j =>
    if j.phase = .closeSupply && !j.supplyPending
    then if j.contained then s.enterDrain i else s.enterUncontained i
    else s

/-- Targets are latched, and their maintenance flags cleared (R12, R151). -/
def State.latchTargets (s : State) (l : List Target) : State :=
  s.forEach l (fun s t => s.modBr t.pos (fun b => { b with latched := true, maint := false }))

/-- The latches a job asks for at CLOSE_SUPPLY entry: its targets whose supply close is PENDING (R151) and those not latched
yet, so that every ISOLATED branch is latched (R17), and its trunk. A latched target whose close has ended keeps the
maintenance flag a restart may have left it (R190); that one whose close is PENDING again loses it is the model's choice
(log 78). That a trunk whose close ended in NOTIFY is latched with the rest is the model's reading (log 43). -/
def State.latch (s : State) (j : Job) : State :=
  let s := s.latchTargets (j.targets.filter (fun t => t.supply = .pending || !(s.br t.pos).latched))
  if j.trunk.isSome then { s with store.trunkLatch := true } else s

/-- On entering CLOSE_SUPPLY the job latches, asks for the hold write, and closes its supply side, trunk first (R151). A
close in progress since before an escalation (R156) is PENDING and is placed again with the rest: the model's reading (log 76). -/
def State.enterCloseSupply (s : State) (i : JobId) : State := match s.job? i with
  | none => s
  | some j =>
    let t := ((s.latch j).setPhase i .closeSupply none).holdIfChanged s
    let t := match j.trunk with
      | some { supply := .pending, .. } => t.placeIso 48 0 (.iso i)
      | _ => t
    let t := t.forEach (j.targets.filter (fun x => x.supply = .pending)) (fun t x => t.placeIso (supplyOf x.pos) 0 (.iso i))
    t.checkSupply i

/-- On entering SIMULATE a drill job waits its drain delay; its targets without a server that did not answer are
recorded (R167). A delay of 0 leaves SIMULATE with the expiry of a deadline of now, an event of its own: the model's choice
(log 67). -/
def State.enterSimulate (s : State) (j : Job) : State :=
  let s := s.forEach j.targets (fun s t => match t.warning with
    | .expired => s.drillOutcome t.pos .missed
    | .none => s.drillOutcome t.pos .noServer
    | _ => s)
  s.setPhase j.id .simulate (some (s.now + 1000 * j.drainDelay.getD 0))

/-- NOTIFY ends: every warning still OPEN becomes EXPIRED, and the job enters its next phase (R149). -/
def State.endNotify (s : State) (i : JobId) : State :=
  let s := s.modJob i (fun j => { j with
    targets := j.targets.map (fun t => if t.warning = .opened then { t with warning := .expired } else t) })
  match s.job? i with
  | none => s
  | some j => if j.drill then s.enterSimulate j else s.enterCloseSupply i

/-- NOTIFY ends in the event that began it when no warning is OPEN or the warn deadline is 0 (R149). -/
def State.checkNotify (s : State) (i : JobId) : State := match s.job? i with
  | none => s
  | some j =>
    if j.phase = .notify && (!j.warningOpen || s.pol.active.timing.warnDeadline = 0) then s.endNotify i else s

/-- On entering HOLD the targets become ISOLATED, the quarantine is released, and the event's pass is followed by
ISOLATION_DONE (R160). -/
def State.enterHold (s : State) (i : JobId) : State :=
  let s := (s.setPhase i .hold none).modJob i (fun j => { j with quarantine := 0 })
  match s.job? i with
  | none => s
  | some j =>
    let s := s.forEach j.targets (fun s t =>
      (s.modBr t.pos (fun b => if b.state = .isolating then { b with state := .isolated } else b)).setDrive t.pos 0)
    (s.askPass []).afterPass (.send (.isolationDone j j.clean))

/-! ### Joining and warning (R148) -/

/-- A branch joins a real job: steps 1 to 5 of R148, with what R16 ends on it. -/
def State.join (s : State) (i : JobId) (p : Position) : State :=
  let s := s.takeFromDrill p
  let s := if s.verifyOn p then s.endVerify p (.aborted .isolation) false else s
  let s := if s.serviceBranch = some p then s.endService .aborted (.aborted (.service .joined)) else s
  let s := (s.endClosing p).clearDraw p
  let s := if (s.br p).state = .active then s.clearArbiterFields p else s
  let s := s.modBr p (fun b => { b with state := .isolating, job := i })
  let s := s.modJob i (fun j => { j.addTarget
      { pos := p, warning := if (s.br p).boundTo.isSome then .opened else .none, supply := .pending, ret := .pending
        confirm := .none } with quarantine := j.quarantine + (s.br p).drive })
  (s.reserve i (supplyOf p)).reserve i (returnOf p)

/-- ISOLATE_WARN goes to the bound server of each of a list of targets whose warning is OPEN (R148). -/
def State.warnTargets (s : State) (i : JobId) (ps : List Position) : State := match s.job? i with
  | none => s
  | some j =>
    s.forEach (j.targets.filter (fun t => ps.contains t.pos && t.warning = .opened)) (fun s t =>
      s.notify (.isolateWarn t.pos j.id j.level j.origin j.drill (s.left (j.deadline.getD s.now))))

/-- The trunk actuators are reserved by a job (R73). -/
def State.reserveTrunk (s : State) (i : JobId) : State := (s.reserve i 48).reserve i 49

/-- Branches join a job that stands in NOTIFY: they join, the warnings go out before the notices of the event's pass, and
a NOTIFY that has nothing to wait for ends after it (R148, R149). -/
def State.joinAll (s : State) (i : JobId) (ps : List Position) : State :=
  let left := ps.filter (fun p => (s.br p).state = .active)
  let s := s.forEach ps (fun s p => s.join i p)
  ((s.warnTargets i ps).askPass left).afterPass (.notifyEnd i)

/-- The deadline of a NOTIFY that begins now (R148). -/
def State.warnAt (s : State) : Option Time := some (s.now + s.pol.active.timing.warnDeadline)

/-- A real job is created in a slot (R148). -/
def State.createReal (s : State) (slot : Nat) (level : JobLevel) (origin : Origin) (evidence : List Evidence)
    (ps : List Position) : State :=
  let i := s.issueId
  let rack := slot = Config.rackSlot
  let j : Job := { id := i, level := level, origin := origin, drill := false, targets := []
                   trunk := if rack then some ⟨.pending, .pending⟩ else none, phase := .notify, deadline := s.warnAt
                   drainDelay := none, quarantine := 0, evidence := evidence, createdAt := s.now, armed := false }
  let s := { s.setSlot slot (some j) with iso.lastId := i }
  (if rack then s.reserveTrunk i else s).joinAll i ps

/-! ### Trunk taken back, escalation and transfer (R156, R157) -/

/-- The job's trunk becomes yes again with both closes PENDING, or a FAILED trunk supply close becomes PENDING (R157). -/
def State.retakeTrunk (s : State) (i : JobId) : State := match s.job? i with
  | none => s
  | some j => match j.trunk with
    | none => (s.modJob i (fun j => { j with trunk := some ⟨.pending, .pending⟩ })).reserveTrunk i
    | some { supply := .failed _, .. } =>
      s.modJob i (fun j => { j with trunk := j.trunk.map (fun k => { k with supply := .pending }) })
    | some _ => s

/-- A job's trunk is taken or its supply close retried by `retakeTrunk`. -/
def Job.trunkRetaken (j : Job) : Bool := match j.trunk with
  | none => true
  | some { supply := .failed _, .. } => true
  | some _ => false

/-- What comes to a rack job past its CLOSE_SUPPLY entry is latched, with its hold write: targets from the NOTIFY of another
job, and a trunk taken back in UNCONTAINED, the model's reading (R17; log 43). -/
def State.latchArrivals (s : State) (j : Job) : State :=
  let t := s.latchTargets (j.targets.filter (fun t => !(s.br t.pos).latched))
  State.holdIfChanged { t with store.trunkLatch := true } s

/-- The trunk step and the phase step of R157 for a rack job. -/
def State.rackPhase (s : State) (i : JobId) : State := match s.job? i with
  | none => s
  | some j =>
    let s := s.retakeTrunk i
    if j.phase = .notify then s
    else if j.phase = .closeSupply || j.phase = .uncontained then
      let s := s.latchArrivals j
      if j.trunkRetaken then s.placeIso 48 0 (.iso i) else s
    else s.enterCloseSupply i

/-- Escalation into the empty rack slot (R156). -/
def State.escalate (s : State) (j : Job) : State :=
  let s := (s.dropJob j.id).setSlot Config.rackSlot (some { j with
    level := .rack, trunk := some ⟨.pending, .pending⟩, phase := .notify, deadline := s.warnAt, armed := false })
  (s.reserveTrunk j.id).joinAll j.id s.newcomers

/-- What a job's moves and claims report to another job once its targets have passed to it (R157). -/
def Client.retag (i k : JobId) (c : Client) : Client := if c = .iso i then .iso k else c

/-- The targets of a job, their reservations and their moves pass to another job (R157). -/
def State.passTargets (s : State) (j : Job) (k : JobId) : State :=
  let s := s.forEach j.targets (fun s t => s.modBr t.pos (fun b => { b with job := k }))
  { s with
    bus.actuators := s.bus.actuators.map (fun x => { x with
      reservedBy := if x.reservedBy = j.id then k else x.reservedBy
      move := x.move.map (fun m => { m with client := m.client.retag j.id k }) })
    bus.isoQ := s.bus.isoQ.map (fun x => { x with client := x.client.retag j.id k })
    bus.reports := s.bus.reports.map (fun r => { r with client := r.client.retag j.id k }) }

/-- Transfer of a failing job into the rack job (R157). -/
def State.transfer (s : State) (j r : Job) : State :=
  let s := (s.dropJob j.id).passTargets j r.id
  let s := s.modJob r.id (fun r => { j.targets.foldl Job.addTarget r with
    quarantine := r.quarantine + j.quarantine, evidence := mergeEvidence r.evidence j.evidence })
  (s.rackPhase r.id).askPass []

/-! ### Reports of closes (R152) -/

/-- The side of a job an actuator closes. -/
inductive Side where
  | targetSupply (p : Position) | targetReturn (p : Position) | trunkSupply | trunkReturn
  deriving DecidableEq, Repr

/-- The side an actuator stands on (R66). -/
def sideOf (a : ActuatorNo) : Side :=
  if a < 24 then .targetSupply a else if a < 48 then .targetReturn (a - 24)
  else if a = 48 then .trunkSupply else .trunkReturn

/-- A side is a supply side. -/
def Side.isSupply : Side → Bool
  | .targetSupply _ => true
  | .trunkSupply => true
  | .targetReturn _ => false
  | .trunkReturn => false

/-- Write the close result of a side of a job. -/
def Job.setClose (j : Job) (x : Side) (c : Close) : Job := match x with
  | .targetSupply p => j.modTarget p (fun t => { t with supply := c })
  | .targetReturn p => j.modTarget p (fun t => { t with ret := c })
  | .trunkSupply => { j with trunk := j.trunk.map (fun k => { k with supply := c }) }
  | .trunkReturn => { j with trunk := j.trunk.map (fun k => { k with ret := c }) }

/-- The positions whose drive a completed close sets to 0 (R152). -/
def Job.stopped (j : Job) : Side → List Position
  | .targetSupply p => [p]
  | .trunkSupply => j.targets.map (fun t => t.pos)
  | .targetReturn _ => []
  | .trunkReturn => []

/-- After a supply-side report: the end of CLOSE_SUPPLY, or containment found in UNCONTAINED (R153, R158). -/
def State.afterSupply (s : State) (i : JobId) : State := match s.job? i with
  | none => s
  | some j => if j.phase = .uncontained && j.contained then s.foundContained i else s.checkSupply i

/-- After a failed supply-side close of the rack job: a later failure that leaves it without containment (R158). -/
def State.afterFailure (s : State) (i : JobId) : State := match s.job? i with
  | none => s
  | some j =>
    if j.phase = .notify || j.phase = .closeSupply || j.phase = .uncontained then s.checkSupply i
    else if j.contained then s else s.enterUncontained i

/-- A close is OK (R152). -/
def State.closeOk (s : State) (j : Job) (x : Side) : State :=
  let s := s.modJob j.id (fun j => j.setClose x .ok)
  let s := s.forEach (j.stopped x) (fun s p => s.setDrive p 0)
  if x.isSupply then s.reexamine.afterSupply j.id else s.checkReturns j.id

/-- A close has failed (R152, R154, R156–R158). -/
def State.closeFailed (s : State) (j : Job) (x : Side) (f : FaultCode) : State :=
  let s := s.modJob j.id (fun j => j.setClose x (.failed f))
  match x with
  | .targetSupply _ =>
    if j.level = .rack then s.afterFailure j.id
    else match s.job? j.id, s.rackJob with
      | some j, none => s.escalate j
      | some j, some r => s.transfer j r
      | none, _ => s
  | .trunkSupply => s.afterFailure j.id
  | .targetReturn p => (s.markFault p .returnOpen none).checkReturns j.id
  | .trunkReturn => s.checkReturns j.id

/-- A close is placed again, its result PENDING (R152). -/
def State.closeAgain (s : State) (j : Job) (x : Side) (a : ActuatorNo) : State :=
  (s.modJob j.id (fun j => j.setClose x .pending)).placeIso a 0 (.iso j.id)

/-- A report of a close that no job holds any more, its branch having been released: a return close that fails places
RETURN_OPEN (R5), and nothing else follows (log 70). -/
def State.lateReport (s : State) (a : ActuatorNo) (k : ReportKind) : State := match sideOf a, k with
  | .targetReturn p, .failed _ => s.markFault p .returnOpen none
  | _, _ => s

/-- A job acts on an end report or a fault report of its closes (R152). -/
def State.isoReport (s : State) (i : JobId) (a : ActuatorNo) (k : ReportKind) : State := match s.job? i with
  | none => s.lateReport a k
  | some j =>
    if j.owns a then
      match k with
      | .complete => s.closeOk j (sideOf a)
      | .failed f => s.closeFailed j (sideOf a) f
      | .aborted => s.closeAgain j (sideOf a) a
      | .drift => s.closeAgain j (sideOf a) a
      | .superseded => s
      | .noReply => s
      | .refusedReserved => s
    else s.lateReport a k

/-- At the retry deadline every FAILED supply-side close is placed again (R158). -/
def State.retryCloses (s : State) (j : Job) : State :=
  let s := s.modJob j.id (fun j => { j with deadline := some (s.now + Config.retryWait) })
  s.forEach (j.failedSupply.map (fun x => x.1)) (fun s a => s.closeAgain j (sideOf a) a)

/-! ### Intake (R144, R145, R165) -/

/-- A RACK request that finds the rack job (R145). A job it takes from UNCONTAINED to NOTIFY retries no further, and tells of no
containment found later: the model's reading (log 72). -/
def State.rackAgain (s : State) (r : Job) (evidence : List Evidence) : State :=
  let s := s.mergeInto r.id evidence
  let ps := s.newcomers
  if ps.isEmpty then if r.trunk.isNone then s.rackPhase r.id else s
  else
    let s := if r.trunk.isNone then s.retakeTrunk r.id else s
    (s.setPhase r.id .notify s.warnAt).joinAll r.id ps

/-- A real RACK request (R145). -/
def State.takeRack (s : State) (origin : Origin) (evidence : List Evidence) : State := match s.rackJob with
  | some r => s.rackAgain r evidence
  | none => s.createReal Config.rackSlot .rack origin evidence s.newcomers

/-- A real BRANCH or ZONE request (R144). -/
def State.takeReal (s : State) (r : IsoRequest) : State :=
  let holders := s.jobs.filter (fun j => !j.drill && r.targets.any j.hasTarget)
  let rest := r.targets.filter (fun p => (s.realJobOf p).isNone)
  let s := s.forEach holders (fun s j => s.mergeInto j.id r.evidence)
  if rest.isEmpty then s
  else
    let s := s.forEach rest State.takeFromDrill
    let s := if s.emptySlot.isNone then s.endDrill else s
    match s.emptySlot with
    | some k => s.createReal k r.level r.origin r.evidence rest
    | none => s.takeRack r.origin r.evidence

/-- A drill job is created in a slot, its warnings sent and the drill report overwritten (R165, R167). Its closes
stand PENDING and its confirmations none: the model's choice (log 67). -/
def State.createDrill (s : State) (slot : Nat) (r : IsoRequest) (ps : List Position) : State :=
  let i := s.issueId
  let targets := ps.map (fun p => ({ pos := p, warning := if (s.br p).boundTo.isSome then .opened else .none
                                     supply := .pending, ret := .pending, confirm := .none } : Target))
  let j : Job := { id := i, level := r.level, origin := r.origin, drill := true, targets := targets, trunk := none
                   phase := .notify, deadline := s.warnAt, drainDelay := some s.pol.active.timing.drainDelay
                   quarantine := 0, evidence := r.evidence, createdAt := s.now, armed := false }
  let s := { s.setSlot slot (some j) with
    iso.lastId := i
    iso.report := { id := i, level := r.level, origin := r.origin, status := .running
                    entries := ps.map (fun p => { pos := p, outcome := none, latency := none }) } }
  (s.warnTargets i ps).checkNotify i

/-- A drill request (R165). -/
def State.takeDrill (s : State) (r : IsoRequest) : State :=
  let ps := if r.level = .rack then s.newcomers else r.targets.filter (fun p => (s.realJobOf p).isNone)
  if s.drillJob.isSome || ps.isEmpty then s
  else match s.emptySlot with
    | none => s
    | some k => s.createDrill k r ps

/-- The sequencer takes a request (section 8.2). -/
def State.takeRequest (s : State) (r : IsoRequest) : State :=
  if r.drill then s.takeDrill r
  else if r.level = .rack then s.takeRack r.origin r.evidence
  else s.takeReal r

end Sys2Proof.Machine
end

