-- ==== Sys2Proof/Machine/Localization.lean ====
section
/-! DEFINITION. The localization unit: active evidence, requests to the sequencer, the opening, narrowing, absorption and expiry of cases, drill marks, and the notices of cases (chapter 7). -/

namespace Sys2Proof.Machine

/-! ### Active evidence (R131) -/

/-- The tray of a position is WET with a drill mark as given (R131). -/
def State.trayWet (s : State) (p : Position) (drill : Bool) : Bool :=
  (s.chan (trayOf p)).state = .wet && (s.chan (trayOf p)).drill = drill

/-- A position has active evidence; drill evidence counts where `drill` says so (R131, R139). -/
def State.activeAt (s : State) (drill : Bool) (p : Position) : Bool :=
  s.trayWet p false || (s.br p).imbalance || (drill && s.trayWet p true)

/-- The entries of the active evidence of a position (R133). That a tray entry takes the present mark of its channel (R130), and
that it comes before the imbalance entry, is the model's choice (log 75). -/
def State.activeEvidence (s : State) (drill : Bool) (p : Position) : List Evidence :=
  (if s.trayWet p false || (drill && s.trayWet p true)
   then [{ item := .channel (trayOf p), drill := (s.chan (trayOf p)).drill }] else []) ++
  (if (s.br p).imbalance then [{ item := .imbalance p, drill := false }] else [])

/-- The entries of the active evidence of a list of positions, in its order. -/
def State.activeEvidenceOf (s : State) (drill : Bool) (ps : List Position) : List Evidence :=
  ps.flatMap (s.activeEvidence drill)

/-! ### Notices and requests (R132, R141) -/

/-- Where a request or a notice comes from: the kind of case, or none, with its candidates. -/
structure CaseSource where
  kind : Option CaseKind
  candidates : List Position
  deriving DecidableEq, Repr

/-- A DRIP_STATE of localization (R141). -/
def State.caseNotice (s : State) (ev : CaseEvent) (src : CaseSource) (drill : Bool) (evidence : List Evidence)
    (deadline : Option Time) (request : Option IsoRequest) : State :=
  s.notify (.dripCase { event := ev, kind := src.kind, drill := drill, candidates := src.candidates, evidence := evidence
                        timeLeft := deadline.map s.left
                        request := request.map (fun r => (r.level, r.origin, r.targets)) })

/-- The targets of a request as it is made: positions whose branch is VACANT are removed (R132). -/
def State.requestOf (s : State) (level : JobLevel) (drill : Bool) (origin : Origin) (ps : List Position)
    (evidence : List Evidence) : IsoRequest :=
  { level := level, drill := drill, origin := origin, targets := ps.filter (fun p => (s.br p).state ≠ .vacant)
    evidence := evidence }

/-- A request is handed to the sequencer; a BRANCH or ZONE request without targets is not, and NO_TARGET goes out in its
place (R132). -/
def State.handRequest (s : State) (src : CaseSource) (r : IsoRequest) : State :=
  if r.level ≠ .rack && r.targets.isEmpty
  then s.caseNotice .noTarget src r.drill r.evidence none (some r)
  else s.takeRequest r

/-- A request is made outside a case or at an opening check: its notice, then the request (R141). -/
def State.makeRequest (s : State) (ev : CaseEvent) (src : CaseSource) (r : IsoRequest) : State :=
  (s.caseNotice ev src r.drill r.evidence none (some r)).handRequest src r

/-! ### Opening and expiry (R133, R134, R137) -/

/-- The source an open case names. -/
def Case.source (c : Case) (e : Nat) : CaseSource := { kind := some (caseKind e), candidates := c.candidates }

/-- The request an expired case makes (R137). -/
def State.expiryRequest (s : State) (e : Nat) (c : Case) : IsoRequest :=
  if e = Config.baseEntry then s.requestOf .rack c.drill (.channel c.openedBy) [] c.evidence
  else s.requestOf .zone c.drill (.channel c.openedBy) c.candidates c.evidence

/-- The deadline of an open case expires (R137). -/
def State.expireCase (s : State) (e : Nat) : State := match s.caseAt e with
  | none => s
  | some c => (s.setCase e none).makeRequest .expired (c.source e) (s.expiryRequest e c)

/-- A case opens; a localization window of 0 expires it at once (R133, R134). -/
def State.openCase (s : State) (e : Nat) (ps : List Position) (ch : ChannelNo) (drill : Bool) : State :=
  let w := s.pol.active.timing.localizationWindow
  let c : Case := { candidates := ps, deadline := s.now + 1000 * w, openedBy := ch, drill := drill
                    evidence := [{ item := .channel ch, drill := drill }] }
  let s := (s.setCase e (some c)).caseNotice .opened (c.source e) drill c.evidence (some c.deadline) none
  if w = 0 then s.expireCase e else s

/-- Evidence joins an open case; real evidence clears a drill mark (R133, R134, R139). -/
def Case.add (c : Case) (e : Evidence) : Case :=
  { c with evidence := addEvidence c.evidence e, drill := c.drill && e.drill }

/-- Evidence joins the case of an entry, if one is open. -/
def State.addToCase (s : State) (k : Nat) (e : Evidence) : State := match s.caseAt k with
  | none => s
  | some c => s.setCase k (some (c.add e))

/-- A coarse onset that finds its entry empty: the opening check, and the case if the check finds nothing (R133,
R134). -/
def State.openOrRequest (s : State) (k : Nat) (ps : List Position) (ch : ChannelNo) (drill : Bool) : State :=
  let found := ps.filter (s.activeAt drill)
  if found.isEmpty then s.openCase k ps ch drill
  else
    let evidence := mergeEvidence [{ item := .channel ch, drill := drill }] (s.activeEvidenceOf drill found)
    s.makeRequest .narrowed { kind := some (caseKind k), candidates := ps }
      (s.requestOf .branch drill (.channel ch) found evidence)

/-! ### Rope onsets (R133, R136, R139) -/

/-- EMPTY_ZONE, naming the rope (R133). Its evidence is the rope alone, also when the base case has taken it: the model's choice
(log 61). -/
def State.emptyZone (s : State) (z : Nat) (e : Evidence) : State :=
  s.caseNotice .emptyZone { kind := some (.zone z), candidates := [] } e.drill [e] none none

/-- The base case becomes the case of a zone, and the opening check is made on it (R136). -/
def State.moveBase (s : State) (z : Nat) (b : Case) (e : Evidence) (members : List Position) : State :=
  let c : Case := { (b.add e) with candidates := members }
  let s := ((s.setCase Config.baseEntry none).setCase z (some c)).caseNotice .absorbed (c.source z) c.drill c.evidence
    (some c.deadline) none
  let found := members.filter (s.activeAt c.drill)
  if found.isEmpty then s
  else
    let evidence := mergeEvidence c.evidence (s.activeEvidenceOf c.drill found)
    (s.setCase z none).makeRequest .narrowed (c.source z)
      (s.requestOf .branch c.drill (.channel z) found evidence)

/-- The base case closes into the open case of a zone; ABSORBED shows the zone's case as it then stands (R136, R141;
log 61). -/
def State.mergeBase (s : State) (z : Nat) (b c : Case) (e : Evidence) : State :=
  let c := { c with evidence := mergeEvidence c.evidence b.evidence }.add e
  ((s.setCase Config.baseEntry none).setCase z (some c)).caseNotice .absorbed (c.source z) c.drill c.evidence
    (some c.deadline) none

/-- A rope onset that leaves the base case open: the rope joins its evidence, and EMPTY_ZONE goes out where the zone's
entry is empty and the zone has no members (R133, R136, R139). -/
def State.ropeToBase (s : State) (z : Nat) (e : Evidence) : State :=
  let t := s.addToCase Config.baseEntry e
  if (s.caseAt z).isNone && (s.zoneMembers z).isEmpty then t.emptyZone z e else t

/-- A rope onset for a zone taken while the base case `b` is open (R136, R139): drill evidence does not absorb a real base
case, and it does nothing but join a real case of its zone. -/
def State.ropeOverBase (s : State) (z : Nat) (b : Case) (e : Evidence) : State :=
  if e.drill && !b.drill then (s.addToCase z e).ropeToBase z e
  else match s.caseAt z with
    | some c => if e.drill && !c.drill then s.addToCase z e else s.mergeBase z b c e
    | none =>
      if (s.zoneMembers z).isEmpty then s.ropeToBase z e else s.moveBase z b e (s.zoneMembers z)

/-- A rope onset for a zone (R133, R136, R139). -/
def State.ropeOnset (s : State) (z : Nat) (drill : Bool) : State :=
  let e : Evidence := { item := .channel z, drill := drill }
  match s.caseAt Config.baseEntry, s.caseAt z with
  | some b, _ => s.ropeOverBase z b e
  | none, some _ => s.addToCase z e
  | none, none =>
    if (s.zoneMembers z).isEmpty then s.emptyZone z e else s.openOrRequest z (s.zoneMembers z) z drill

/-! ### Base onsets (R134) -/

/-- A base probe onset (R134, R139). The NO_TARGET of a rack with every branch VACANT shows the probe alone as its evidence:
the model's choice (log 61). -/
def State.baseOnset (s : State) (ch : ChannelNo) (drill : Bool) : State :=
  let e : Evidence := { item := .channel ch, drill := drill }
  match s.caseAt Config.baseEntry with
  | some _ => s.addToCase Config.baseEntry e
  | none =>
    let ps := s.positionsWhere (fun b => b.state ≠ .vacant)
    if ps.isEmpty then s.caseNotice .noTarget { kind := some .base, candidates := [] } drill [e] none none
    else s.openOrRequest Config.baseEntry ps ch drill

/-! ### Tray and imbalance onsets (R135, R139) -/

/-- The entries whose open case contains a position and passes a test, in table order. -/
def State.casesWith (s : State) (p : Position) (q : Case → Bool) : List (Nat × Case) :=
  (List.range 9).filterMap (fun e => match s.caseAt e with
    | none => none
    | some c => if c.candidates.contains p && q c then some (e, c) else none)

/-- The source a notice names when a list of cases has closed into one request: the first of them in table order (log 61),
or none. -/
def closingSource (closing : List (Nat × Case)) : CaseSource := match closing with
  | [] => { kind := none, candidates := [] }
  | (k, c) :: _ => c.source k

/-- An onset narrows a list of cases: all close, and one BRANCH request is made (R135). Each NARROWED notice carries the evidence
list of its case, without the onset, and the drill mark of the onset: the model's choice (log 61). -/
def State.narrow (s : State) (closing : List (Nat × Case)) (p : Position) (e : Evidence) (origin : Origin) : State :=
  let others := Config.positions.filter (fun n =>
    n ≠ p && closing.any (fun x => x.2.candidates.contains n) && s.activeAt e.drill n)
  let evidence := mergeEvidence
    (addEvidence (closing.foldl (fun l x => mergeEvidence l x.2.evidence) []) e)
    (s.activeEvidenceOf e.drill others)
  let r := s.requestOf .branch e.drill origin (insertAsc p others) evidence
  let s := s.forEach closing (fun s x =>
    (s.setCase x.1 none).caseNotice .narrowed (x.2.source x.1) e.drill x.2.evidence none (some r))
  s.handRequest (closingSource closing) r

/-- A tray or imbalance onset for a position (R135, R139). -/
def State.fineOnset (s : State) (p : Position) (e : Evidence) (origin : Origin) : State :=
  let all := s.casesWith p (fun _ => true)
  let closing := if e.drill then s.casesWith p (fun c => c.drill) else all
  if closing.isEmpty then
    if all.isEmpty then
      s.makeRequest .direct { kind := none, candidates := [] } (s.requestOf .branch e.drill origin [p] [e])
    else s.forEach all (fun s x => s.addToCase x.1 e)
  else s.narrow closing p e origin

/-! ### Events handed over (R111, R117, R118, R138) -/

/-- An imbalance event of a branch is taken; a clear event changes no case (R111, R135, R138). -/
def State.imbalanceEvent (s : State) (x : ImbalanceEvent) : State := match x.kind with
  | .onset => s.fineOnset x.pos { item := .imbalance x.pos, drill := false } (.position x.pos)
  | .clear => s

/-- A channel onset is taken (R117, section 7.3). -/
def State.channelOnset (s : State) (ch : ChannelNo) (drill : Bool) : State := match channelClass ch with
  | .rope => s.ropeOnset ch drill
  | .tray => s.fineOnset (ch - 8) { item := .channel ch, drill := drill } (.channel ch)
  | .base => s.baseOnset ch drill

/-- An event of a channel is taken; a clear event, real or drill-marked, changes no case (R117, R138). -/
def State.channelEvent (s : State) (x : ChannelEvent) : State := match x.kind with
  | .onset => s.channelOnset x.channel x.drill
  | .clear => s

/-- A fault event of a channel is taken: it closes no case (R118, R138). -/
def State.channelFault (s : State) (_ : FaultEvent) : State := s

/-! ### Cancellation (R140) -/

/-- Every open drill case closes with no request (R140). The order of the case table is the model's choice (log 61). -/
def State.cancelCases (s : State) : State :=
  s.forEach (List.range 9) (fun s e => match s.caseAt e with
    | none => s
    | some c => if c.drill
        then (s.setCase e none).caseNotice .cancelled (c.source e) c.drill c.evidence none none else s)

end Sys2Proof.Machine
end

