-- ==== Sys2Proof/Machine/Sense.lean ====
section
/-! DEFINITION. The drip sense unit: samples, classification, faults, injections, masking, its notices and the re-derivation of guards (chapter 6). -/

namespace Sys2Proof.Machine

/-! ### Guards (R9, R123) -/

/-- Guard and effective ceiling of a branch are derived anew (R8, R9). -/
def State.deriveGuard (s : State) (p : Position) : State :=
  let g := s.guardOf p
  s.modBr p (fun b => { b with
    guardLevel := g, effCeiling := ({ b with guardLevel := g } : Branch).ceilingUnder s.pol.active.supply.unguardedCap })

/-- Guard and effective ceiling of a list of branches are derived anew. -/
def State.deriveGuards (s : State) (ps : List Position) : State := s.forEach ps State.deriveGuard

/-- The branches watched by the rope and tray channels of a list (R123). -/
def State.watchedBy (s : State) (cs : List ChannelNo) : List Position :=
  Config.positions.filter (fun p => cs.any (fun c => (s.watched c).contains p))

/-- The re-derivation after channel changes, with one pass if a guard changed (R9, R123). -/
def State.rederive (s : State) (cs : List ChannelNo) : State :=
  let ps := s.watchedBy cs
  let t := s.deriveGuards ps
  if ps.any (fun p => (s.br p).guardLevel ≠ (t.br p).guardLevel) then t.pass [] [] else t

/-! ### What one event does to one channel -/

/-- An onset or clear event as a channel's classification makes it (R117). -/
structure Edge where
  kind : EdgeKind
  drill : Bool
  above : Nat
  realAbove : Nat
  onsets : Nat
  deriving DecidableEq, Repr

/-- What an event made of a channel: its record, the cause of its DRIP_STATE if its state changed, the state it left if it
entered FAULT, and its onset or clear event if it made one. -/
structure ChannelStep where
  channel : Channel
  cause : Option DripCause
  fault : Option ChannelState
  edge : Option Edge
  deriving DecidableEq, Repr

/-- A step that changes no state and makes no event. -/
def Channel.quietStep (c : Channel) : ChannelStep := { channel := c, cause := none, fault := none, edge := none }

/-- An onset or clear event with the counts the channel holds (R117). -/
def Channel.edge (c : Channel) (kind : EdgeKind) (drill : Bool) : Edge :=
  { kind := kind, drill := drill, above := c.above, realAbove := c.realAbove, onsets := c.onsets }

/-- The window in progress is injected (R124). -/
def Channel.injecting (c : Channel) : Bool := 0 < c.injected && !c.injectPending

/-- A running or pending injection and the drill mark end (R118, R121, R127). -/
def Channel.endDrill (c : Channel) : Channel := { c with injected := 0, injectPending := false, drill := false }

/-- The counts of the window and the runs at 0 (R118, R121, R122). -/
def Channel.cleared (c : Channel) : Channel :=
  { c with samples := 0, above := 0, realAbove := 0, dryRun := 0, lostRun := 0 }

/-- A channel enters FAULT (R118). -/
def Channel.enterFault (c : Channel) : ChannelStep :=
  { channel := { c.cleared.endDrill with state := .fault }, cause := some .fault, fault := some c.state, edge := none }

/-- A sample is above threshold (R115). -/
def aboveThreshold (x : Sample) (threshold : Nat) : Bool := x.sound && threshold ≤ x.code

/-- The counts of one sample in DRY, SUSPECT or WET; a channel sitting out its window counts only its lost run
(R115, R122, R125). -/
def Channel.count (c : Channel) (x : Sample) (threshold : Nat) : Channel :=
  let lost := if x.sound then 0 else c.lostRun + 1
  if c.sitOut then { c with lostRun := lost }
  else { c with
    lostRun := lost, samples := c.samples + 1
    realAbove := if aboveThreshold x threshold then c.realAbove + 1 else c.realAbove
    above := if c.injecting || aboveThreshold x threshold then c.above + 1 else c.above }

/-- A sample event's work on one channel (R115, R118, R119). -/
def Channel.sample (c : Channel) (x : Sample) (threshold : Nat) : ChannelStep :=
  let c := { c with last := some x }
  match c.state with
  | .masked => c.quietStep
  | .fault => { c with samples := if x.sound then c.samples + 1 else 0 }.quietStep
  | .dry | .suspect | .wet =>
    let c := c.count x threshold
    if 3 ≤ c.lostRun then c.enterFault else c.quietStep

/-- A window begins: a pending injection begins with it (R124). -/
def Channel.beginWindow (c : Channel) : Channel := { c with injectPending := false }

/-- The onset count advances, stopping at 65535 (R116). -/
def Channel.countOnset (c : Channel) : Channel := { c with onsets := min (c.onsets + 1) 65535 }

/-- The state a classification gives, with the cause if it changes the state, and its event. -/
def Channel.become (c : Channel) (st : ChannelState) (cause : DripCause) (edge : Option Edge) : ChannelStep :=
  { channel := { c with state := st, dryRun := 0 }, cause := if c.state = st then none else some cause, fault := none
    edge := edge }

/-- The channel is WET with a new onset, which carries a drill mark as given (R116, R125, R126). -/
def Channel.onset (c : Channel) (drill : Bool) : ChannelStep :=
  c.countOnset.become .wet .window (some (c.countOnset.edge .onset drill))

/-- The classification of a window that is not injected, on a channel with no drill mark (R116). -/
def Channel.classifyPlain (c : Channel) (k dry : Nat) : ChannelStep :=
  if c.state = .wet then
    if 0 < c.above then { c with dryRun := 0 }.quietStep
    else if dry ≤ c.dryRun + 1 then c.become .dry .window (some (c.edge .clear false))
    else { c with dryRun := c.dryRun + 1 }.quietStep
  else if k ≤ c.above then c.onset false
  else if 0 < c.above then c.become .suspect .window none
  else c.become .dry .window none

/-- The classification of an injected window (R125). -/
def Channel.classifyInjected (c : Channel) (k : Nat) : ChannelStep :=
  if k ≤ c.realAbove then { c with injected := 0, drill := false }.onset false
  else if c.state = .wet then { c with injected := c.injected - 1, dryRun := 0 }.quietStep
  else { c with injected := c.injected - 1, drill := true }.onset true

/-- The classification that ends a drill mark, judged by the real above count (R126). -/
def Channel.classifyDrillEnd (c : Channel) (k : Nat) : ChannelStep :=
  let clear := some (c.edge .clear true)
  let c := { c with drill := false }
  if k ≤ c.realAbove then c.onset false
  else if 0 < c.realAbove then c.become .suspect .injectionEnded clear
  else c.become .dry .injectionEnded clear

/-- A window end's work on one channel (R116, R119, R122, R125, R126). -/
def Channel.classify (c : Channel) (k dry : Nat) : ChannelStep := match c.state with
  | .masked => c.quietStep
  | .fault => if c.samples = 10 then c.become .dry .faultEnded none else c.quietStep
  | .dry | .suspect | .wet =>
    if c.sitOut then c.quietStep
    else if c.injecting then c.classifyInjected k
    else if c.drill then c.classifyDrillEnd k
    else c.classifyPlain k dry

/-- The counts of the window that begins (R116). The onset count is kept, for a channel that leaves FAULT too (R119; log
49). -/
def Channel.endWindow (c : Channel) : Channel := { c with samples := 0, above := 0, realAbove := 0, sitOut := false }

/-- A sample and, at a window end, the classification after it: a channel that the sample took to FAULT is not changed
again. -/
def Channel.step (c : Channel) (x : Sample) (p : ClassPolicy) (dry : Nat) (start windowEnd : Bool) : ChannelStep :=
  let a := (if start then c.beginWindow else c).sample x p.threshold
  if windowEnd then
    let b := a.channel.classify p.confirm dry
    { channel := b.channel.endWindow, cause := if a.cause.isSome then a.cause else b.cause, fault := a.fault, edge := b.edge }
  else a

/-! ### The sample event -/

/-- DRIP_STATE of the drip sense unit for a change of a channel's state (R120). -/
def State.dripNotice (s : State) (ch : ChannelNo) (before : ChannelState) (cause : DripCause) : State :=
  let c := s.chan ch
  s.notify (.dripChannel { channel := ch, cls := channelClass ch, before := before, after := c.state, cause := cause
                           drill := c.drill, onsets := c.onsets, watched := s.watched ch })

/-- What the sample event makes of each channel. -/
def State.channelSteps (s : State) (samples : List Sample) (windowEnd : Bool) : List (ChannelNo × ChannelStep) :=
  Config.channels.map (fun ch =>
    (ch, (s.chan ch).step (samples.getD ch ⟨0, false⟩) (s.pol.active.classOf (channelClass ch)) s.pol.active.timing.dryWindows
      (!s.sense.inWindow) windowEnd))

/-- A change into or out of FAULT, after which guards are derived anew (R123). -/
def ChannelStep.regards (x : ChannelStep) : Bool := x.cause = some .fault || x.cause = some .faultEnded

/-- The fault event a step hands over, if its channel entered FAULT (R118). -/
def ChannelStep.faultEvent (x : ChannelStep) (ch : ChannelNo) : Option FaultEvent :=
  x.fault.map (fun left => { channel := ch, cls := channelClass ch, left := left })

/-- The onset or clear event a step hands over, if it made one (R117). -/
def ChannelStep.event (x : ChannelStep) (ch : ChannelNo) : Option ChannelEvent :=
  x.edge.map (fun e => { channel := ch, cls := channelClass ch, kind := e.kind, drill := e.drill, above := e.above
                         realAbove := e.realAbove, onsets := e.onsets })

/-- A branch whose drive an event has changed since `before` and that joins a job later in it has the control target 0,
by its state after the event (R100). -/
def State.stillJoined (s before : State) : State :=
  s.forEach (Config.positions.filter (fun p => (s.br p).state = .isolating && (before.br p).drive ≠ (s.br p).drive))
    (fun s p => s.modBr p (fun b => { b with controlTarget := some 0 }))

/-- A sample event: every channel takes its sample; at a window end every channel is classified. Then, each in channel
order, the fault events and the DRIP_STATE notices, the re-derivation of guards, and the onset and clear events
(R115–R120, R123). What the pass of the re-derivation hands to flow control is judged by the states the onsets leave: its
claims are granted the line after them, and a branch that joined a job has lost its claims to the reservation (R73, R100;
log 65). -/
def State.sampleEvent (s : State) (samples : List Sample) (windowEnd : Bool) : State :=
  let steps := s.channelSteps samples windowEnd
  let t := { s with
    sense.channels := steps.map (fun (x : ChannelNo × ChannelStep) => x.2.channel)
    sense.index := if windowEnd then 0 else s.sense.index + 1
    sense.inWindow := !windowEnd
    sense.nextAt := s.sense.nextAt + Config.samplePeriod
    sense.lastEnd := if windowEnd then s.now else s.sense.lastEnd }
  let t := t.forEach (steps.filterMap (fun (x : ChannelNo × ChannelStep) => x.2.faultEvent x.1)) State.channelFault
  let t := t.forEach steps (fun t (x : ChannelNo × ChannelStep) => match x.2.cause with
    | none => t
    | some cause => t.dripNotice x.1 (s.chan x.1).state cause)
  let u := t.holdingLine (fun t => t.rederive ((steps.filter (fun x => x.2.regards)).map (fun x => x.1)))
  let u := u.forEach (steps.filterMap (fun (x : ChannelNo × ChannelStep) => x.2.event x.1)) State.channelEvent
  (u.stillJoined t).arbiterSpeaksLast.grantLine

/-! ### Masking and drills (R121–R124, R127) -/

/-- A channel enters MASKED (R121). -/
def State.maskChannel (s : State) (ch : ChannelNo) : State :=
  let before := (s.chan ch).state
  let s := s.modChan ch (fun c => { c.cleared.endDrill with state := .masked, sitOut := false })
  let s := { s with pol.maskSet := insertAsc ch s.pol.maskSet }
  (s.dripNotice ch before .masked).rederive [ch]

/-- A channel leaves MASKED with all its counts and runs at 0, the onset count among them; it sits out the rest of a window
in progress (R122). -/
def State.unmaskChannel (s : State) (ch : ChannelNo) : State :=
  let s := s.modChan ch (fun c => { c.cleared with state := .dry, onsets := 0, sitOut := s.sense.inWindow })
  let s := { s with pol.maskSet := s.pol.maskSet.erase ch }
  (s.dripNotice ch .masked .unmasked).rederive [ch]

/-- An injection runs or waits on some channel (R124). -/
def State.injectionOpen (s : State) : Bool := s.sense.channels.any (fun c => 0 < c.injected || c.injectPending)

/-- The time to the start of the first injected window: the sample event after the end of the window in progress, or the
next one where no window is in progress (R114, R124). -/
def State.toInjection (s : State) : Time :=
  s.left (s.sense.nextAt + (if s.sense.inWindow then (10 - s.sense.index) * Config.samplePeriod else 0))

/-- A cancelled injection: an injected window in progress is judged on its real samples (R127). -/
def Channel.cancelInjection (c : Channel) : Channel :=
  if c.injecting then { c with injected := 0, above := c.realAbove }
  else { c with injected := 0, injectPending := false }

/-- The injection, if one runs or waits, ends (R127). -/
def State.cancelInjections (s : State) : State :=
  { s with sense.channels := s.sense.channels.map (fun c =>
      if 0 < c.injected || c.injectPending then c.cancelInjection else c) }

end Sys2Proof.Machine
end

