-- ==== Sys2Proof/Machine/Startup.lean ====
section
/-! DEFINITION. Start-up: the volatile reset, the loading of the policy image and of the hold record, the restored job, the first states of the branches, the survey polls and the end of the survey (R189–R192). -/

namespace Sys2Proof.Machine

/-! ### Derived values of the policy (R59) -/

/-- The positions a policy marks occupied, ascending. -/
def Policy.occupied (p : Policy) : List Position :=
  Config.positions.filter (fun n => (p.branches.getD n BranchPolicy.factory).occupied)

/-- The sum of floors over the branches a policy marks occupied (R57, R59). -/
def Policy.floorSum (p : Policy) : Nat :=
  sumOf (fun n => (p.branches.getD n BranchPolicy.factory).limits.floor) p.occupied

/-- The positions of a zone extent (R59). -/
def extentMembers : Option (Nat × Nat) → List Position
  | none => []
  | some (first, last) => Config.positions.filter (fun p => first ≤ p && p ≤ last)

/-- The occupied positions a policy leaves in no zone (R57, R59). -/
def Policy.uncovered (p : Policy) : List Position := p.occupied.filter (fun n => (zoneOf p.zones n).isNone)

/-- The derived values of a policy under a budget (R59). -/
def Policy.derive (p : Policy) (budget : Nat) : Derived :=
  { floorSum := p.floorSum, margin := (budget : Int) - p.floorSum, zoneMembers := p.zones.map extentMembers
    uncovered := p.uncovered }

/-! ### Loading (R189) -/

/-- A stored requester entry comes up with telemetry OFF and notice number 0 (R171). -/
def StoredRequester.wake (r : StoredRequester) : Requester :=
  { addr := r.addr, role := r.role, branch := r.branch, mask := r.mask, telemetry := .off, number := 0 }

/-- The server a loaded table binds to a position (R6, R171). -/
def boundIn (rs : List (Option Requester)) (p : Position) : Option Nat :=
  indexWhere (fun r => match r with
    | none => false
    | some q => q.branch = some p) rs 0

/-- The first state of a branch (R18). -/
def firstState (latched maint occupied : Bool) : BranchState :=
  if latched then .isolated else if maint then .maintenance else if occupied then .held else .vacant

/-- A branch record after the loading of image and hold record; its guard is derived afterwards (R20). -/
def loadedBranch (pol : Policy) (rs : List (Option Requester)) (latched maint : Bool) (p : Position) : Branch :=
  let g := pol.branches.getD p BranchPolicy.factory
  { Branch.reset with
    state := firstState latched maint g.occupied, limits := g.limits, effCeiling := g.limits.ceiling
    zone := zoneOf pol.zones p, boundTo := boundIn rs p, job := if latched then 1 else 0, latched := latched, maint := maint }

/-- An empty hold record (R189). -/
def HoldRecord.empty : HoldRecord :=
  { sequence := 0, latched := List.replicate 24 false, maint := List.replicate 24 false, trunk := false }

/-- The positions a hold record latches, ascending (R190). -/
def HoldRecord.latchedPositions (h : HoldRecord) : List Position :=
  Config.positions.filter (fun p => h.latched.getD p false)

/-- A target of the restored job (R190). -/
def restoredTarget (p : Position) : Target := { pos := p, warning := .none, supply := .ok, ret := .ok, confirm := .none }

/-- The restored job of a hold record, if it latches anything (R190). -/
def HoldRecord.restoredJob (h : HoldRecord) (now : Time) : Option Job :=
  if h.latchedPositions.isEmpty && !h.trunk then none
  else some { id := 1, level := if h.trunk then .rack else .branch, origin := .restored, drill := false
              targets := h.latchedPositions.map restoredTarget, trunk := if h.trunk then some ⟨.ok, .ok⟩ else none
              phase := .hold, deadline := none, drainDelay := none, quarantine := 0, evidence := [], createdAt := now
              armed := false }

/-- The job table that holds a restored job alone (R190). -/
def restoredSlots (j : Option Job) : List (Option Job) := match j with
  | none => List.replicate 9 none
  | some j => (List.replicate 9 none).set (if j.trunk.isSome then Config.rackSlot else 0) (some j)

/-- A channel after start-up (section 6.2). -/
def wakeChannel (mask : List ChannelNo) (c : ChannelNo) : Channel :=
  if mask.contains c then { Channel.reset with state := .masked } else Channel.reset

/-- A discrete line after start-up: its debounced level is the present one (R147, R172). -/
def Pin.wake (x : Pin) : Pin := { level := x.level, debounced := x.level, deadline := none }

/-- An actuator reserved by the restored job (R190). -/
def wakeActuator (j : Option Job) (a : ActuatorNo) : Actuator := match j with
  | none => Actuator.reset
  | some j => if j.owns a then { Actuator.reset with reservedBy := j.id } else Actuator.reset

/-- Steps 1 to 3 of start-up (R189): volatile reset, loading of image and hold record, first states. The restored job that
STARTUP names is kept as it is formed here: the model's choice (log 74). -/
def State.wake (s : State) (cause : StartCause) : State :=
  let image := s.store.image
  let pol := (image.map (fun i => i.policy)).getD Policy.factory
  let mask := (image.map (fun i => i.maskSet)).getD []
  let rs := (image.map (fun i => i.requesters.map (Option.map StoredRequester.wake))).getD (List.replicate 32 none)
  let hold := s.store.hold.getD HoldRecord.empty
  let job := hold.restoredJob s.now
  let t : State :=
    { pending := s.pending, now := s.now, powered := true, stationAddr := s.stationAddr
      hall := s.hall.wake, commissioning := s.commissioning.wake
      branches := Config.positions.map (fun p =>
        loadedBranch pol rs (hold.latched.getD p false) (hold.maint.getD p false) p)
      arb := Arbiter.reset
      pol := { staged := pol, active := pol, dirty := false, maskSet := mask, applied := ApplyResult.reset
               derived := pol.derive (pol.supply.assumed - pol.supply.reserve) }
      bus := { Bus.reset with actuators := Config.actuators.map (wakeActuator job) }
      window := { counter := 0, deadline := s.now + pol.timing.measurementWindow, length := pol.timing.measurementWindow }
      sense := { channels := Config.channels.map (wakeChannel mask), index := 0, inWindow := true
                 nextAt := s.now + Config.samplePeriod, lastEnd := s.now }
      cases := List.replicate 9 none
      iso := { Sequencer.reset with slots := restoredSlots job, lastId := if job.isSome then 1 else 0 }
      link := { Link.reset with up := s.link.up, requesters := rs }
      store := { s.store with saving := none, holding := none, furtherDue := false, trunkLatch := hold.trunk }
      boot := { cause := cause, stored := image.isSome, imageSequence := image.map (fun i => i.sequence)
                holdValid := s.store.hold.isSome, holdSequence := s.store.hold.map (fun h => h.sequence)
                restored := job.map (fun j => (j.level, j.targets.map (fun t => t.pos)))
                inMaintenance := Config.positions.filter (fun p => !hold.latched.getD p false && hold.maint.getD p false)
                survey := some Config.actuators }
      work := Work.idle }
  t.deriveGuards Config.positions

/-- Start-up up to the survey: steps 1 to 4 of R189; the first survey poll is granted at once. -/
def State.startUp (s : State) (cause : StartCause) : State :=
  (s.wake cause).forEach Config.actuators (fun s a => s.placePoll a true)

/-! ### What the store is left with (R186–R188) -/

/-- A write cut short: an image slot complete or invalid as the operand says, a hold slot invalid (R186–R188). -/
def Store.cutShort (k : Store) (imageWritten : Bool) : Store :=
  let k := match k.saving with
    | none => k
    | some (slot, i) => k.setImage slot (if imageWritten then some i else none)
  let k := match k.holding with
    | none => k
    | some (slot, _) => k.setHold slot none
  { k with saving := none, holding := none, furtherDue := false }

/-! ### The end of the survey (R191) -/

/-- An actuator of the restored job that the survey did not find closed (R191). -/
def Actuator.stray (x : Actuator) (i : JobId) : Bool := x.reservedBy = i && (x.above 20 || !x.present)

/-- Step 1: the restored job closes what the survey did not find closed (R191), in the order of the addresses: the model's
choice (log 45). -/
def State.closeStrays (s : State) : State := match s.jobs.find? (fun j => j.origin = .restored) with
  | none => s
  | some j =>
    s.forEach (Config.actuators.filter (fun a => (s.act a).stray j.id)) (fun s a => s.closeAgain j (sideOf a) a)

/-- The drive a surveyed branch already delivers, or its ceiling where its supply actuator is ABSENT (R191). -/
def State.surveyedDrive (s : State) (p : Position) : Nat :=
  match (s.act (supplyOf p)).present, (s.act (supplyOf p)).position with
  | true, some q => (s.br p).curveDrive q
  | _, _ => (s.br p).limits.ceiling

/-- Step 2 for a branch that leaves HELD; its drive is a change of drive, and no return claim is placed (R191, R103,
R113). -/
def State.leaveHeld (s : State) (p : Position) : State :=
  if (s.policyOf p).occupied then
    let s := (s.modBr p (fun b => { b with state := .active, request := b.limits.entryRequest })).takeStamp p
    let d := s.surveyedDrive p
    let s := s.modBr p (fun b => { b with drive := d, driveChanged := true })
    (s.unsettle p .driveChanged).followCurve p
  else s.modBr p (fun b => { b with state := .vacant })

/-- Step 3 for a branch (R191); the order, by position and the supply valve first, is the model's choice (log 45). -/
def State.shutIdle (s : State) (p : Position) : State :=
  if (s.br p).state = .vacant || (s.br p).state = .maintenance then s.shutValves p else s

/-- The number of actuators found ABSENT (R192): those not present when the survey ends, whatever showed it, the model's choice
(log 74). -/
def State.absentCount (s : State) : Nat := (s.bus.actuators.filter (fun x => !x.present)).length

/-- The survey ends, and its event asks for the pass. A drive that this pass changes counts as changed after the survey's
end, so it brings the return valve of a branch just out of HELD to 1000 (R103, R191; log 45). -/
def State.endSurvey (s : State) : State :=
  let s := { s with boot.survey := none }
  let s := s.closeStrays
  let s := s.forEach (s.positionsWhere (fun b => b.state = .held)) State.leaveHeld
  let s := s.forEach Config.positions State.shutIdle
  (s.notify (.startup s.boot s.absentCount)).askPass []

/-- A survey poll is done; the last one ends the survey (R79, R191). -/
def State.surveyDone (s : State) (a : ActuatorNo) : State := match s.boot.survey with
  | none => s
  | some l =>
    let l := l.erase a
    if l.isEmpty then s.endSurvey else { s with boot.survey := some l }

end Sys2Proof.Machine
end

