-- ==== Sys2Proof/Machine/Window.lean ====
section
/-! DEFINITION. The measurement window expiry: flows, meter marks, settling, TRACK and trim work, imbalance, telemetry, the stops of a curve verify and the confirmation of jobs (chapter 5; R89, R90, R159). -/

namespace Sys2Proof.Machine

/-! ### Stage 1: flows (R95) -/

/-- The measured flows of the window just ended (R95). -/
def State.measure (s : State) (p : Position) : State :=
  s.modBr p (fun b => { b with
    measuredSupply := flowOf b.supplyMeter.pulses b.limits.kSupply s.window.length
    measuredReturn := flowOf b.returnMeter.pulses b.limits.kReturn s.window.length })

/-! ### Stage 2: meter marks (R108, R109) -/

/-- The judgement of one meter (R108). -/
def Meter.judge (m : Meter) (expected : Bool) : Meter :=
  if m.marked then
    let live := if 0 < m.pulses then m.liveRun + 1 else 0
    if 2 ≤ live then { m with marked := false, silentRun := 0, liveRun := 0 } else { m with liveRun := live }
  else
    let silent := if expected && m.pulses = 0 then m.silentRun + 1 else 0
    if 5 ≤ silent then { m with marked := true, silentRun := 0, liveRun := 0 } else { m with silentRun := silent }

/-- METER_FAULT follows the marks of a branch: it enters with a notice and with the imbalance runs and flag cleared, and
it leaves with the last mark (R108, R109). -/
def State.followMarks (s : State) (p : Position) (side : MeterSide) : State :=
  if (s.br p).meterMarked then
    if (s.br p).meterFault then s
    else (s.markFault p .meterFault (some side)).modBr p
      (fun b => { b with imbalance := false, imbalanceRun := 0, clearRun := 0 })
  else s.modBr p (fun b => { b with meterFault := false })

/-- Stage 2 for a branch: its supply meter, then its return meter (R108). -/
def State.judgeMeters (s : State) (p : Position) : State :=
  let expected := s.flowExpected p
  let s := (s.modBr p (fun b => { b with supplyMeter := b.supplyMeter.judge expected })).followMarks p .supply
  (s.modBr p (fun b => { b with returnMeter := b.returnMeter.judge expected })).followMarks p .ret

/-! ### Stage 3: settling (R97, R98) -/

/-- The window counts for a branch's settle run (R97). -/
def State.settling (s : State) (p : Position) : Bool :=
  s.quiet p && (s.br p).inTolerance s.pol.active.timing.settleTolerance

/-- A branch becomes settled at this expiry (R97). -/
def State.settlesNow (s : State) (p : Position) : Bool :=
  s.settling p && !(s.br p).settled && s.pol.active.timing.settleCount ≤ (s.br p).settleRun + 1

/-- Stage 3 for a branch (R97, R98). -/
def State.judgeSettle (s : State) (p : Position) : State :=
  if s.settling p then
    let count := s.pol.active.timing.settleCount
    let now := s.settlesNow p
    let s := s.modBr p (fun b => { b with
      settleRun := if b.settleRun < count then b.settleRun + 1 else b.settleRun
      settled := b.settled || now })
    if now && (s.br p).state = .active then s.notify (.settled (s.settleNotice p .window)) else s
  else s.unsettle p .window

/-! ### Stage 4: TRACK and trim (R102, R106, R107) -/

/-- The TRACK adjustment of a branch (R102). -/
def State.adjust (s : State) (p : Position) (quiet : Bool) : State :=
  let b := s.br p
  if b.state = .active && b.tracks && !b.settled && quiet && 0 < b.drive then
    let held := b.controlTarget.getD 0
    let t := clampNat 0 1000 (held + b.adjustment)
    if t = held then s
    else (s.modBr p (fun b => { b with controlTarget := some t })).placeFlow (supplyOf p) t
  else s

/-- A trim ends: the control target is the curve target, claimed when it differs by more than 5 from the commanded
target, and the record is removed (R106, R107). -/
def State.finishTrim (s : State) (p : Position) : State :=
  let t := (s.br p).curveTarget (s.br p).drive
  let s := s.modBr p (fun b => { b with controlTarget := some t, trim := none })
  let far := match (s.act (supplyOf p)).target with
    | none => true
    | some c => 5 < gap c t
  if far then s.placeFlow (supplyOf p) t else s

/-- Stage 4 for a running trim (R106, R107). -/
def State.advanceTrim (s : State) (p : Position) (settledNow : Bool) : State := match (s.br p).trim with
  | none => s
  | some tr =>
    let n := tr.windows + 1
    let s := s.modBr p (fun b => { b with trim := some { tr with windows := n } })
    match settledNow && 0 < (s.br p).drive, (s.act (supplyOf p)).position with
    | true, some q =>
      let offset := clampInt (-200) 200 ((q : Int) - (s.br p).limits.curvePosition (s.br p).drive)
      ((s.modBr p (fun b => { b with trimOffset := offset })).finishTrim p).complete (.trim p) .done (.trimmed offset n)
    | _, _ => if 20 ≤ n then (s.finishTrim p).complete (.trim p) .failed (.trimFailed n) else s

/-! ### Stage 5: imbalance (R110) -/

/-- A branch's window qualifies for the imbalance judgement (R110). -/
def State.qualifies (s : State) (p : Position) : Bool :=
  !(s.br p).meterMarked && 50 ≤ (s.br p).drive && s.bothStill p

/-- The difference of a branch's flows is above the threshold (R110). -/
def Branch.excess (b : Branch) (threshold : Nat) : Bool := b.measuredReturn + threshold < b.measuredSupply

/-- The imbalance judgement of a qualifying window (R110). -/
def Branch.judgeImbalance (b : Branch) (threshold windows : Nat) : Branch :=
  if b.imbalance then
    let run := if b.excess threshold then 0 else b.clearRun + 1
    if windows ≤ run then { b with imbalance := false, imbalanceRun := 0, clearRun := 0 } else { b with clearRun := run }
  else
    let run := if b.excess threshold then b.imbalanceRun + 1 else 0
    if 0 < run && windows ≤ run then { b with imbalance := true, imbalanceRun := 0, clearRun := 0 }
    else { b with imbalanceRun := run }

/-- Stage 5 for a branch (R110). -/
def State.judgeImbalance (s : State) (p : Position) : State :=
  let t := s.pol.active.timing
  if (s.br p).drive = 0 then s.modBr p (fun b => { b with imbalance := false, imbalanceRun := 0, clearRun := 0 })
  else if s.qualifies p then s.modBr p (fun b => b.judgeImbalance t.imbalanceThreshold t.imbalanceWindows)
  else s

/-! ### One branch at an expiry (R96) -/

/-- Stage 6, and the pulse counts of the window that begins (R94, R96). -/
def State.closeWindow (s : State) (p : Position) : State :=
  s.modBr p (fun b => { b with
    driveChanged := false, supplyMeter := { b.supplyMeter with pulses := 0 }
    returnMeter := { b.returnMeter with pulses := 0 } })

/-- The work of an expiry on one branch (R96). -/
def State.branchWindow (s : State) (p : Position) : State :=
  let s := (s.measure p).judgeMeters p
  let quiet := s.quiet p
  let settledNow := s.settlesNow p
  let s := (s.judgeSettle p).adjust p quiet
  ((s.advanceTrim p settledNow).judgeImbalance p).closeWindow p

/-! ### Telemetry (R112, R184) -/

/-- The telemetry entry of an expiry (R112). -/
def State.telemetryEntry (s : State) : Notice :=
  .telemetry s.window.counter (s.branches.map (fun b =>
    { state := b.state, settled := b.settled, grant := b.grant, drive := b.drive, supply := b.measuredSupply
      ret := b.measuredReturn }))

/-- A telemetry mode after an expiry (R184). -/
def Telemetry.countDown : Telemetry → Telemetry
  | .off => .off
  | .stream => .stream
  | .snapshot => .off
  | .counted n => if n ≤ 1 then .off else .counted (n - 1)

/-- One TELEMETRY notice is made, and the modes count down (R184). -/
def State.sendTelemetry (s : State) : State :=
  let s := s.notify s.telemetryEntry
  { s with link.requesters := s.link.requesters.map (Option.map (fun r => { r with telemetry := r.telemetry.countDown })) }

/-! ### Curve verify at an expiry (R89, R90) -/

/-- Stop k of a verify is judged (R90, R91). -/
def State.judgeStop (s : State) (p : Position) (k : Nat) : State :=
  let v := s.bus.verify
  let e : StopEntry := { position := 100 * k, expected := v.expected (100 * k), measured := (s.br p).measuredSupply }
  let s := { s with bus.verify := { v with entries := v.entries ++ [e] } }
  if v.mismatch (100 * k) e.measured then
    (State.endVerify { s with bus.verify := { s.bus.verify with frozen := some k } } p .mismatch true).askDrawPass
  else if k = 10 then (s.endVerify p .passed true).askDrawPass
  else State.placeSvc { s with bus.verify := { s.bus.verify with step := .moving (k + 1) } } (supplyOf p)
    (100 * (k + 1)) .verify

/-- A running verify at an expiry: the window in progress when a stop was reached is skipped, the next one is judged
(R89). -/
def State.verifyWindow (s : State) : State :=
  if s.bus.verify.status = .running then
    match s.bus.verify.branch, s.bus.verify.step with
    | some _, .skipping k => { s with bus.verify := { s.bus.verify with step := .measuring k } }
    | some p, .measuring k => s.judgeStop p k
    | _, _ => s
  else s

/-! ### CONFIRM at an expiry (R159) -/

/-- The confirmation of a target (R159). -/
def State.confirmation (s : State) (p : Position) : Confirmation :=
  if !(s.act (supplyOf p)).atMost 20 then .supplyPosition
  else if !(s.act (returnOf p)).atMost 20 then .returnPosition
  else if 2 < (s.br p).measuredSupply then .flow else .confirmed

/-- A job in CONFIRM at an expiry: its first whole window begins, or has ended and is judged (R159). -/
def State.confirmJob (s : State) (j : Job) : State :=
  if j.phase ≠ .confirm then s
  else if j.armed then
    (s.modJob j.id (fun j => { j with
      targets := j.targets.map (fun t => { t with confirm := s.confirmation t.pos }) })).enterHold j.id
  else s.modJob j.id (fun j => { j with armed := true })

/-! ### The expiry (R94, R96) -/

/-- The window counter advances (R94). -/
def State.advanceCounter (s : State) : State :=
  { s with window.counter := if s.window.counter = 255 then 0 else s.window.counter + 1 }

/-- The next window begins with the length the active policy gives (R94, R60). -/
def State.nextWindow (s : State) : State :=
  { s with window := { s.window with
      deadline := s.window.deadline + s.pol.active.timing.measurementWindow
      length := s.pol.active.timing.measurementWindow } }

/-- The imbalance event of a branch whose flag an expiry has set or cleared (R109–R111). -/
def State.imbalanceEdge (s before : State) (p : Position) : Option ImbalanceEvent :=
  if (s.br p).imbalance = (before.br p).imbalance then none
  else some { pos := p, kind := if (s.br p).imbalance then .onset else .clear, supply := (s.br p).measuredSupply
              ret := (s.br p).measuredReturn, counter := s.window.counter }

/-- A measurement window expires: the work of every branch in position order, telemetry, the imbalance events in position
order, the verify and the jobs in CONFIRM (R96, R112), these in slot order: the model's choice (log 68). -/
def State.windowExpiry (before : State) : State :=
  let s := before.advanceCounter.forEach Config.positions State.branchWindow
  let events := Config.positions.filterMap (s.imbalanceEdge before)
  let s := s.sendTelemetry.nextWindow
  let s := (s.forEach events State.imbalanceEvent).verifyWindow
  s.forEach (s.jobs.filter (fun j => j.phase = .confirm)) State.confirmJob

end Sys2Proof.Machine
end

