-- ==== Sys2Proof/Machine/Reports.lean ====
section
/-! DEFINITION. How each client of the valve bus acts on the reports made to it, and the end of every event: reports delivered, the free line granted, the transmitter started (R72, R80, R87, R89, R91, R104, R163). -/

namespace Sys2Proof.Machine

/-! ### Flow control (R104) -/

/-- Where flow control sends an actuator again after ABORTED (R104). -/
def State.flowTarget (s : State) (p : Position) (a : ActuatorNo) : Option Nat := match (s.br p).state with
  | .active => if a = supplyOf p then (s.br p).controlTarget else some 1000
  | .vacant => some 0
  | .maintenance => some 0
  | .held => none
  | .isolating => none
  | .isolated => none

/-- Flow control acts on a report of its moves (R104). -/
def State.flowReport (s : State) (a : ActuatorNo) (k : ReportKind) : State := match branchOf a with
  | none => s
  | some p => match k with
    | .complete => s
    | .failed _ => s.markFault p .valveFault none
    | .superseded => s
    | .aborted => match s.flowTarget p a with
        | some t => if (s.act a).reservedBy = 0 then s.placeFlow a t else s
        | none => s
    | .refusedReserved => s
    | .drift => match (s.act a).target with
        | some t => (s.markFault p .valveFault none).placeFlow a t
        | none => s.markFault p .valveFault none
    | .noReply => s.markFault p .valveFault none

/-! ### The opening moves of RELEASE_TRUNK (R163) -/

/-- An opening move of the trunk that was aborted is placed again, while no job has reserved the trunk (R163, R73). -/
def State.openingReport (s : State) (a : ActuatorNo) (k : ReportKind) : State := match k with
  | .aborted => if (s.act a).reservedBy = 0 then s.placeIso a 1000 .trunkOpening else s
  | _ => s

/-! ### Service moves (R87) -/

/-- COMPLETION of a service move by the report that ends it (R87). A reservation is the branch joining a job (log 62). -/
def State.serviceResult (s : State) (a : ActuatorNo) (k : ReportKind) : Status × CompletionBody := match k with
  | .complete => (.done, .moved (s.act a).position)
  | .failed f => (.failed, .moveFailed f)
  | .superseded => (.aborted, .aborted (.service .superseded))
  | .aborted => (.aborted, .aborted (.service .aborted))
  | .refusedReserved => (.aborted, .aborted (.service .joined))
  | .drift => (.failed, .moveFailed .drift)
  | .noReply => (.failed, .moveFailed .noReply)

/-- When a service move ends with both valves of its branch at 20 or less, the draw returns to 0 and a pass runs in the
event (R85, R87). -/
def State.freeDraw (s : State) (p : Position) : State := if s.drawFreed p then (s.clearDraw p).askDrawPass else s

/-- The service move in flight ends by a report of the bus (R87). -/
def State.serviceReport (s : State) (a : ActuatorNo) (k : ReportKind) : State := match s.bus.service with
  | none => s
  | some m =>
    if m.actuator = a then
      let s := s.endService (s.serviceResult a k).1 (s.serviceResult a k).2
      match branchOf a with
      | none => s
      | some p => s.freeDraw p
    else s

/-! ### The curve verify (R89, R91) -/

/-- The next move of a running verify (R89). -/
def State.verifyMove (s : State) (x : VerifyStep) : State :=
  let s := { s with bus.verify := { s.bus.verify with step := x } }
  match s.bus.verify.moveOf with
  | none => s
  | some (a, t) => s.placeSvc a t .verify

/-- A running verify ends with a fault (R89, R91). -/
def State.verifyFault (s : State) (p : Position) (f : FaultCode) : State := (s.endVerify p (.fault f) true).askDrawPass

/-- A running verify acts on a report (R89). -/
def State.verifyReport (s : State) (k : ReportKind) : State :=
  if s.bus.verify.status = .running then
    match s.bus.verify.branch, k with
    | none, _ => s
    | some _, .complete => match s.bus.verify.step with
        | .openReturn => s.verifyMove (.moving 0)
        | .moving n => s.verifyMove (.skipping n)
        | .skipping _ => s
        | .measuring _ => s
    | some p, .failed f => s.verifyFault p f
    | some _, .superseded => s.verifyMove s.bus.verify.step
    | some p, .drift => s.verifyFault p .drift
    | some p, .noReply => s.verifyFault p .noReply
    | some _, .aborted => s
    | some _, .refusedReserved => s
  else s

/-- The closing sequence of an ended verify acts on a report (R91). -/
def State.closingReport (s : State) (a : ActuatorNo) (k : ReportKind) : State := match s.bus.closing with
  | none => s
  | some c =>
    if c.actuator = a then
      match k with
      | .complete =>
        if c.returnSide then { s with bus.closing := none }
        else State.placeSvc { s with bus.closing := some { c with returnSide := true } } (returnOf c.branch) 0 .verifyClosing
      | .aborted => s.placeSvc a 0 .verifyClosing
      | _ => { s with bus.closing := none }
    else s

/-! ### Delivery (R72) -/

/-- A report reaches its client. -/
def State.deliverOne (s : State) (r : Report) : State := match r.client with
  | .nobody => s
  | .flow => s.flowReport r.actuator r.kind
  | .iso i => s.isoReport i r.actuator r.kind
  | .trunkOpening => s.openingReport r.actuator r.kind
  | .service => s.serviceReport r.actuator r.kind
  | .verify => s.verifyReport r.kind
  | .verifyClosing => s.closingReport r.actuator r.kind

/-- The reports made in an event are delivered in the order they were made, with those that their delivery makes. The
bound is above what one event can make; nothing is left behind at it (log 7). -/
def State.deliverSome : Nat → State → State
  | 0, s => { s with bus.reports := [] }
  | n + 1, s => match s.bus.reports with
    | [] => s
    | r :: l => State.deliverSome n (State.deliverOne { s with bus.reports := l } r)

/-- More reports than one event makes. -/
def reportBound : Nat := 1024

/-- All reports of an event are delivered. -/
def State.deliver (s : State) : State := State.deliverSome reportBound s

/-- What follows the pass of an event (R149, R160). -/
def State.follow (s : State) (x : AfterPass) : State := match x with
  | .send n => s.notify n
  | .notifyEnd i => s.checkNotify i

/-- The pass an event has asked for, run once, and what follows it (R31). -/
def State.runPass (s : State) : State :=
  let t := if s.work.due
    then (State.pass { s with work.due := false, work.left := [] } s.work.left []).arbiterSpeaksLast else s
  State.forEach { t with work.after := [] } t.work.after State.follow

/-- Reports are delivered, then the pass is run if one is due, and what its claims report is delivered. -/
def State.settle (s : State) : State := s.deliver.runPass.deliver

/-- The end of an event: its reports and its pass, the line granted if it is free, what the grant reports, the notices
handed to the link in the order they were made, and the transmitter started (R31, R43, R71, R181). -/
def State.finish (s : State) : State := s.settle.grantLine.settle.flush.transmit

/-- The end of an event that ends a transaction: its reports and its pass come first, then the line becomes free (R71). -/
def State.finishLine (s : State) : State :=
  let s := s.settle
  State.finish { s with bus.line := .free }

end Sys2Proof.Machine
end

