-- ==== Sys2Proof/Machine/Valves.lean ====
section
/-! DEFINITION. The events of the valve bus: replies, failures and retries of transactions, the timers of moves, polls that fall due, the STOP, and what BUS_CLEAR does (sections 4.2–4.7). -/

namespace Sys2Proof.Machine

/-! ### The shadow (R67, R81) -/

/-- A valid reply updates the shadow: presence, position and flags; a commanded target of none takes the position; a
NO_REPLY code is cleared (R67, R81). -/
def State.hear (s : State) (a : ActuatorNo) (q : Nat) (f : ActuatorFlags) : State :=
  (s.modAct a (fun x => { x with
    present := true, position := some q, flags := f, target := some (x.target.getD q)
    fault := if x.fault = .noReply then .none else x.fault })).recheckValveFault a

/-- A transaction ends in failure: fault code NO_REPLY and presence ABSENT (R69). -/
def State.unheard (s : State) (a : ActuatorNo) : State :=
  s.modAct a (fun x => { x with present := false, fault := .noReply })

/-! ### Faults found by idle polls (R80) -/

/-- The one recipient of a fault that an idle poll found (R80). -/
def State.faultClient (s : State) (a : ActuatorNo) : Client :=
  let x := s.act a
  if x.reservedBy ≠ 0 then .iso x.reservedBy
  else if x.owner = some .flow then .flow
  else if x.owner = some .verify && (branchOf a).any (fun p => s.verifyOn p) then .verify
  else .nobody

/-- An IDLE actuator has drifted (R80). -/
def Actuator.drifted (x : Actuator) : Bool :=
  !x.moving && x.move.isNone && x.fault = .none && (match x.position, x.target with
    | some q, some t => 20 < gap q t
    | _, _ => false)

/-- The reply to an idle poll is judged for drift (R80). -/
def State.judgeIdle (s : State) (a : ActuatorNo) : State :=
  if (s.act a).drifted
  then (s.modAct a (fun x => { x with fault := .drift })).report (s.faultClient a) a .drift
  else s

/-! ### Replies to the requests of a move (R75–R78) -/

/-- The reply to a MOVE decides its first outcome (R75, R78). -/
def State.judgeMove (s : State) (a : ActuatorNo) (q : Nat) (f : ActuatorFlags) : State := match (s.act a).move with
  | none => s
  | some m =>
    if f.overtorque then s.failMove a .stall
    else if gap q m.target ≤ 5 then s.completeMove a
    else s.modAct a (fun x => { x with moving := true, startRef := some q })

/-- A reply shows that the move last sent has started: it differs from the start reference by 5 or more (R77). -/
def Actuator.showsStart (x : Actuator) (q : Nat) : Bool := match x.startRef with
  | none => false
  | some r => 5 ≤ gap q r

/-- A reply notes that a move has started (R77). -/
def State.noteStart (s : State) (a : ActuatorNo) (q : Nat) : State :=
  s.modAct a (fun x => { x with move := x.move.map (fun m => { m with started := m.started || x.showsStart q }) })

/-- The reply to a tracking poll is judged against the move (R76); with no move in progress it is judged as an idle
reply (R77). -/
def State.judgeTracking (s : State) (a : ActuatorNo) (q : Nat) (f : ActuatorFlags) : State := match (s.act a).move with
  | none => if s.bus.clearing.isSome then s else s.judgeIdle a
  | some m =>
    if f.overtorque then s.failMove a .stall
    else if gap q m.target ≤ 5 then s.completeMove a
    else s.noteStart a q

/-- The reply to a survey poll of an actuator that is moving (R77, R78). -/
def State.judgeSurvey (s : State) (a : ActuatorNo) (q : Nat) (f : ActuatorFlags) : State :=
  if (s.act a).move.isSome && f.overtorque then s.failMove a .stall else s.noteStart a q

/-! ### Clear polls (R83) -/

/-- A clear poll of an actuator has ended; the last one ends CLEARING (R83). -/
def State.clearPollDone (s : State) (a : ActuatorNo) : State :=
  { s with bus.clearing := match s.bus.clearing with
      | none => none
      | some c => if (c.polls.erase a).isEmpty then none else some { c with polls := c.polls.erase a } }

/-- An actuator comes to rest at its clear poll: IDLE, commanded to its reported position (R83). -/
def State.restActuator (s : State) (a : ActuatorNo) : State :=
  s.modAct a (fun x => { x with moving := false, target := x.position })

/-! ### The end of a transaction (R69) -/

/-- What a valid reply does beyond the shadow, by the request it answers. -/
def State.answered (s : State) (t : Transaction) (q : Nat) (f : ActuatorFlags) : State := match t.request with
  | .move _ => s.judgeMove t.actuator q f
  | .tracking => s.judgeTracking t.actuator q f
  | .idle => s.judgeIdle t.actuator
  | .survey => (s.judgeSurvey t.actuator q f).surveyDone t.actuator
  | .clear => (s.restActuator t.actuator).clearPollDone t.actuator

/-- What the failure of both attempts does beyond the shadow, by the request. A tracking poll whose move has ended meanwhile
tells nobody, a survey poll of an actuator with a move in progress lets the move run on, and a clear poll tells nobody: that
VALVE_FAULT then waits for the next idle poll is the model's reading (log 53). -/
def State.unanswered (s : State) (t : Transaction) : State := match t.request with
  | .move _ => s.failMove t.actuator .noReply
  | .tracking => s.failMove t.actuator .noReply
  | .idle => s.report (s.faultClient t.actuator) t.actuator .noReply
  | .survey => s.surveyDone t.actuator
  | .clear => (s.restActuator t.actuator).clearPollDone t.actuator

/-- An attempt has failed: the same request goes out again at once, or the transaction ends in failure (R69). -/
def State.attemptFailed (s : State) (t : Transaction) : State :=
  if t.attempt = 1 then (s.sendRequest t.actuator t.request 2).finish
  else ((s.unheard t.actuator).unanswered t).finishLine

/-- A reply is valid: its check value agrees and it names the actuator addressed (R69). -/
def ValidReply (r : ValveReply) (t : Transaction) : Bool := r.checkOk && r.actuator = t.actuator

/-- A reply arrives while a transaction is on the line (R69). -/
def State.replyArrives (s : State) (r : ValveReply) (t : Transaction) : State :=
  if ValidReply r t
  then ((s.hear t.actuator r.position r.flags).answered t r.position r.flags).finishLine
  else s.attemptFailed t

/-! ### Timers (R76–R79) -/

/-- The start timer of a move expires (R77). -/
def State.startTimerOut (s : State) (a : ActuatorNo) (m : Move) : State :=
  if m.started then s.modAct a (fun x => { x with move := some { m with startTimer := none } })
  else s.failMove a .missedStart

/-- The line carries a transaction with an actuator. -/
def State.lineOn (s : State) (a : ActuatorNo) : Bool := match s.bus.line with
  | .busy t => t.actuator = a
  | .free => false
  | .stopping => false

/-- A tracking poll of a MOVING actuator falls due (R76). -/
def State.trackingDue (s : State) (a : ActuatorNo) : State :=
  if (s.act a).moving && (s.act a).move.isSome && !s.bus.trackDue.contains a && !s.lineOn a
  then { s with bus.trackDue := s.bus.trackDue ++ [a] } else s

/-- The idle poll of an IDLE actuator falls due (R79). -/
def State.idleDue (s : State) (a : ActuatorNo) : State :=
  let waits := match s.bus.clearing with
    | none => false
    | some c => c.polls.contains a
  if (s.act a).moving || (s.act a).move.isSome || waits || s.lineOn a then s else s.placePoll a false

/-! ### BUS_CLEAR (R82) -/

/-- The actuators with a move in progress, or with a MOVE on the line (R82). -/
def State.clearList (s : State) : List ActuatorNo :=
  Config.actuators.filter (fun a => (s.act a).move.isSome || (match s.bus.line with
    | .busy { actuator := b, request := .move _, .. } => a = b
    | _ => false))

/-- A client that acts on ABORTED from a bus clear; a running verify and the service move are ended by the clear
itself (R82). -/
def Client.actsOnClear : Client → Bool
  | .service => false
  | .verify => false
  | .nobody => false
  | .flow => true
  | .iso _ => true
  | .trunkOpening => true
  | .verifyClosing => true

/-- Report ABORTED to the client of a dropped claim or an ended move (R82). -/
def State.abortReport (s : State) (c : Client) (a : ActuatorNo) : State :=
  if c.actsOnClear then s.report c a .aborted else s

/-- Steps 1 to 4 and 7 of R82. The clients are told in the order of the ISO, FLOW and SVC queues, then of the moves in
progress by actuator address, the MOVE on the line among them (log 63). -/
def State.clearBus (s : State) : State :=
  let claims := s.bus.isoQ ++ s.bus.flowQ ++ s.bus.svcQ
  let moves := Config.actuators.filterMap (fun a => (s.act a).move.map (fun m => (m.client, a)))
  let polls := s.clearList
  let s := s.forEach claims (fun s c => s.abortReport c.client c.actuator)
  let s := s.forEach moves (fun s x => s.abortReport x.1 x.2)
  { s with
    bus.isoQ := [], bus.flowQ := [], bus.svcQ := [], bus.trackDue := []
    bus.actuators := s.bus.actuators.map (fun x => { x with move := none, fault := .none })
    bus.clearing := some { stopSent := false, polls := polls }
    branches := s.branches.map (fun b => { b with valveFault := false }) }

/-- Step 5 of R82: a running verify is ended; the pass of its draw is the event's. -/
def State.clearVerify (s : State) : State :=
  match s.bus.verify.status, s.bus.verify.branch with
  | .running, some p => s.endVerify p (.aborted .busClear) true
  | _, _ => s

/-- Step 6 of R82: a running service move is ended; its draw returns to 0 when both valves stand at 20 or less (R87). -/
def State.clearService (s : State) : State := match s.serviceBranch with
  | none => s
  | some p =>
    let s := s.endService .aborted (.aborted (.service .busClear))
    if s.drawFreed p then s.clearDraw p else s

/-- BUS_CLEAR is taken (R82); one pass runs in the event if a draw returned to 0 (R85). -/
def State.busClear (s : State) : State :=
  let t := s.clearBus.clearVerify.clearService
  if t.draws ≠ s.draws then t.askDrawPass else t

end Sys2Proof.Machine
end

