-- ==== Sys2Proof/Machine/Taking.lean ====
section
/-! DEFINITION. The taking of a command: the inbound queue, the checks of the link, answers and their frames (R174–R177). -/

namespace Sys2Proof.Machine

/-! ### The inbound queue (R174) -/

/-- A command is urgent: its URGENT flag is set, or it is an acknowledgement (R174). -/
def urgentCommand (i : Instr) : Bool := match i with
  | .cutAck _ => true
  | .warnAck _ => true
  | _ => (i.cmd?.map (fun c => c.urgent)).getD false

/-- The place of an arriving command: after the last urgent one, or at the tail (R174). -/
def enqueueCommand (i : Instr) (q : List Instr) : List Instr :=
  if urgentCommand i then q.takeWhile urgentCommand ++ i :: q.dropWhile urgentCommand else q ++ [i]

/-- The refusal of a command at its arrival (R169, R174). -/
def refusedAtArrival (dest : Addr) (code : Nat) (tag : Byte) (r : Reason) : ReplyFrame :=
  { dest := dest, code := code, tag := tag, status := .refused, reason := r, first := true, more := false, body := .empty
    ofTaken := false }

/-- A command is offered to the inbound queue (R174). -/
def State.offer (s : State) (i : Instr) (c : Cmd) : State :=
  if s.link.inbound.length < Config.inboundSize
  then { s with link.inbound := enqueueCommand i s.link.inbound }
  else s.handReply (refusedAtArrival c.src i.code c.tag .queueFull)

/-- The link may take the head of its queue: the survey has ended, no RESTART is accepted, and no reply of a command
taken before waits or is being sent (R174, R189, R192). -/
def State.linkReady (s : State) : Bool := s.boot.survey.isNone && !s.link.restarting && !s.link.replyOpen

/-! ### Answers (R176, R177) -/

/-- What a block answers to a command: status, reason, and the body of each reply record. -/
structure Answer where
  status : Status
  reason : Reason
  bodies : List ReplyBody
  deriving DecidableEq, Repr

/-- An answer of one record. -/
def answer (st : Status) (b : ReplyBody) : Answer := { status := st, reason := .none, bodies := [b] }

/-- A refusal. -/
def refuse (r : Reason) (b : ReplyBody) : Answer := { status := .refused, reason := r, bodies := [b] }

/-- The answer of a read: one record per body, or one empty record (R177). -/
def readAnswer (l : List ReplyBody) : Answer :=
  { status := .done, reason := .none, bodies := if l.isEmpty then [.empty] else l }

/-- The frames of an answer, the first marked FIRST and all but the last MORE (R177). -/
def replyFrames (c : Cmd) (code : Nat) (a : Answer) : List ReplyFrame :=
  a.bodies.zipIdx.map (fun (b, k) =>
    { dest := c.src, code := code, tag := c.tag, status := a.status, reason := a.reason, first := k = 0
      more := k + 1 < a.bodies.length, body := b, ofTaken := true })

/-- When a command is answered (R176). -/
inductive Answering where
  | always | wanted
  deriving DecidableEq, Repr

/-- An answer is handed to the transmitter, if the command is answered (R176). -/
def State.reply (s : State) (w : Answering) (c : Cmd) (code : Nat) (a : Answer) : State :=
  if w = .always || c.wantReply then { s with link.replies := s.link.replies ++ replyFrames c code a } else s

/-! ### The checks of the link (R175, R19) -/

/-- Who may issue a command (command tables of the Introduction). -/
inductive Permitted where
  | anyStation | anyRegistered | commissioning | roles (l : List Role) | boundServer
  deriving DecidableEq, Repr

/-- The requester that sends a command. -/
def State.sender (s : State) (c : Cmd) : Option Requester := (s.entryOf c.src).bind s.requester

/-- The bound branch of the sender of a command. -/
def State.boundBranch (s : State) (c : Cmd) : Option Position := (s.sender c).bind (fun r => r.branch)

/-- The role check for a registered sender (R175, R19). -/
def roleFits (p : Permitted) (r : Requester) : Bool := match p with
  | .anyStation => true
  | .anyRegistered => true
  | .commissioning => r.role = .rack
  | .roles l => l.contains r.role
  | .boundServer => r.role = .server && r.branch.isSome

/-- The command is taken from any station: IDENTIFY, and BIND_REQUESTER while the commissioning line is asserted
(R175). -/
def State.exempt (s : State) : Permitted → Bool
  | .anyStation => true
  | .commissioning => s.commissioned
  | _ => false

/-- The checks of the link in their order; `none` when the command passes to its block (R175). -/
def State.linkCheck (s : State) (p : Permitted) (c : Cmd) : Option Reason :=
  if s.exempt p then if c.lengthOk then none else some .format
  else match s.sender c with
    | none => some .notRegistered
    | some r => if !roleFits p r then some .role else if c.lengthOk then none else some .format

/-- What a block does with a command that passed the checks: the part after it, and its answer. -/
abbrev Block := State → State × Answer

/-- A refusal by a block changes nothing. -/
def State.refuses (s : State) (r : Reason) (b : ReplyBody) : State × Answer := (s, refuse r b)

/-- The taking of the head of the queue: checks, the block's work, the answer, the end of the event (R174–R176). -/
def State.carryOut (s : State) (i : Instr) (c : Cmd) (p : Permitted) (w : Answering) (run : Block) : State :=
  let s := { s with link.inbound := s.link.inbound.tail }
  match s.linkCheck p c with
  | some r => (s.reply w c i.code (refuse r .empty)).finish
  | none => ((run s).1.reply w c i.code (run s).2).finish

/-- A command is the head of the inbound queue, or it can still reach the link: no frame arrives while the port has no
link, and what is queued is still taken (R169). -/
def State.receives (s : State) (i : Instr) : Bool := s.link.up || s.link.inbound.head? = some i

/-- A command reaches the link and is taken, or it waits in the queue (log 1): the command at the head of the queue is
that command itself, any other is offered to the queue first. A part without power takes nothing, and while the port has
no link nothing new reaches it (R169). -/
def State.command (s : State) (i : Instr) (c : Cmd) (p : Permitted) (w : Answering) (run : Block) : State :=
  if s.powered && s.receives i then
    let s := s.advance c.time
    let s := if s.link.inbound.head? = some i then s else s.offer i c
    if s.linkReady && s.link.inbound.head? = some i then s.carryOut i c p w run else s.transmit
  else s

/-- A command that acts on the sender's bound branch (R19). -/
def onBound (c : Cmd) (run : Position → Block) : Block := fun s => match s.boundBranch c with
  | some p => run p s
  | none => s.refuses .role .empty

end Sys2Proof.Machine
end

