-- ==== Sys2Proof/Machine/DripCommands.lean ====
section
/-! DEFINITION. The commands of the group Drip sense, drills and isolation: MASK_CHANNEL, UNMASK_CHANNEL, START_DRILL, CANCEL_DRILL, WARN_ACK, RELEASE_ISOLATION, RELEASE_TRUNK (R121, R122, R124, R150, R162, R163, R168). -/

namespace Sys2Proof.Machine

/-! ### Masking (R121, R122) -/

/-- A channel is in the evidence list of a real job before HOLD (R121). -/
def State.inOpenEvidence (s : State) (ch : ChannelNo) : Bool :=
  s.jobs.any (fun j => j.beforeHold && j.evidence.any (fun e => e.item = .channel ch))

/-- MASK_CHANNEL after the checks of the link (R121). -/
def maskBlock (ch : ChannelNo) : Block := fun s =>
  if 33 < ch then s.refuses .range .empty
  else if s.inOpenEvidence ch then s.refuses .isolating .empty
  else if (s.chan ch).state = .masked then (s, answer .doneWarn .empty)
  else (s.maskChannel ch, answer .done .empty)

/-- MASK_CHANNEL (R121). -/
def execMaskChannel (c : Cmd) (channel : Nat) (s : State) : Host.Outcome State Fault Refusal :=
  .next (s.command (.maskChannel c channel) c (.roles [.rack]) .wanted (maskBlock channel))

/-- UNMASK_CHANNEL after the checks of the link (R122). -/
def unmaskBlock (ch : ChannelNo) : Block := fun s =>
  if 33 < ch then s.refuses .range .empty
  else if (s.chan ch).state ≠ .masked then (s, answer .doneWarn .empty)
  else (s.unmaskChannel ch, answer .done .empty)

/-- UNMASK_CHANNEL (R122). -/
def execUnmaskChannel (c : Cmd) (channel : Nat) (s : State) : Host.Outcome State Fault Refusal :=
  .next (s.command (.unmaskChannel c channel) c (.roles [.rack]) .wanted (unmaskBlock channel))

/-! ### Drills (R124, R168) -/

/-- START_DRILL after the checks of the link (R124). -/
def startDrillBlock (ch : ChannelNo) (windows : Nat) : Block := fun s =>
  if 33 < ch || !inRange 1 60 windows then s.refuses .range .empty
  else match (s.chan ch).state with
    | .suspect => s.refuses .wetStill .empty
    | .wet => s.refuses .wetStill .empty
    | .fault => s.refuses .branchState .empty
    | .masked => s.refuses .branchState .empty
    | .dry =>
      if s.drillJob.isSome || s.injectionOpen then s.refuses .busy .empty
      else (s.modChan ch (fun x => { x with injected := windows, injectPending := true }), answer .done (.drillStart s.toInjection))

/-- START_DRILL (R124). -/
def execStartDrill (c : Cmd) (channel windows : Nat) (s : State) : Host.Outcome State Fault Refusal :=
  .next (s.command (.startDrill c channel windows) c (.roles [.rack]) .wanted (startDrillBlock channel windows))

/-- The drill job, if one exists, is removed and the report closed (R168). -/
def State.cancelDrillJob (s : State) : State := match s.drillJob with
  | none => s
  | some j => ((s.dropJob j.id).drillRest .missed).drillStatus .cancelled

/-- A drill-marked case is open (R168). -/
def State.drillCaseOpen (s : State) : Bool := s.cases.any (fun x => match x with
  | none => false
  | some c => c.drill)

/-- CANCEL_DRILL after the checks of the link (R168). -/
def cancelDrillBlock : Block := fun s =>
  if s.drillJob.isNone && !s.injectionOpen && !s.drillCaseOpen then s.refuses .notFound .empty
  else (s.cancelDrillJob.cancelInjections.cancelCases, answer .done .empty)

/-- CANCEL_DRILL (R168). -/
def execCancelDrill (c : Cmd) (s : State) : Host.Outcome State Fault Refusal :=
  .next (s.command (.cancelDrill c) c (.roles [.rack]) .wanted cancelDrillBlock)

/-! ### WARN_ACK (R150) -/

/-- A drill target's acknowledgement is recorded with its latency (R167). -/
def State.recordAck (s : State) (j : Job) (p : Position) : State :=
  if j.drill then
    { s with iso.report.entries := s.iso.report.entries.map (fun e =>
        if e.pos = p then { e with outcome := some .acked, latency := some (s.since j.createdAt) } else e) }
  else s

/-- A warning becomes ACKED; NOTIFY ends if that was the last OPEN one (R149, R150). -/
def State.ackWarning (s : State) (j : Job) (p : Position) (wasOpen : Bool) : State :=
  let s := (s.modJob j.id (fun j => j.modTarget p (fun t => { t with warning := .acked }))).recordAck j p
  match s.job? j.id with
  | none => s
  | some j => if wasOpen && !j.warningOpen then s.endNotify j.id else s

/-- WARN_ACK for a branch (R150). Taken while the drill job stands in SIMULATE it is answered LATE whatever the warning, as
R167 says; the row of R150 for an ACKED warning gives way there (log 66). -/
def warnAckOn (p : Position) : Block := fun s =>
  match s.jobs.find? (fun j => j.hasTarget p) with
  | none => (s, answer .late .empty)
  | some j => match j.targets.find? (fun t => t.pos = p) with
    | none => (s, answer .late .empty)
    | some t => match t.warning with
      | .acked => (s, answer (if j.phase = .simulate then .late else .doneWarn) .empty)
      | .expired => (s, answer .late .empty)
      | .opened => if j.phase = .notify then (s.ackWarning j p true, answer .done .empty) else (s, answer .late .empty)
      | .none => if j.phase = .notify then (s.ackWarning j p false, answer .done .empty) else (s, answer .late .empty)

/-- WARN_ACK (R150). -/
def execWarnAck (c : Cmd) (s : State) : Host.Outcome State Fault Refusal :=
  .next (s.command (.warnAck c) c .boundServer .wanted (onBound c warnAckOn))

/-! ### Release (R162, R163) -/

/-- An ISOLATED branch is released to MAINTENANCE: one hold write, its reservation dropped, its valves closed by FLOW
claims (R17). -/
def State.releaseBranch (s : State) (p : Position) : State :=
  let t := s.modBr p (fun b => { b with state := .maintenance, job := 0, latched := false, maint := true })
  let t := ((t.holdIfChanged s).unreserve (supplyOf p)).unreserve (returnOf p)
  t.shutBranch p

/-- A target leaves a job (R162). -/
def State.removeTarget (s : State) (i : JobId) (p : Position) : State :=
  s.modJob i (fun j => { j with targets := j.targets.filter (fun t => t.pos ≠ p) })

/-- RELEASE_ISOLATION after the checks of the link (R162). -/
def releaseIsolationBlock (p : Position) : Block := fun s =>
  if 23 < p then s.refuses .range .empty
  else if (s.br p).state ≠ .isolated && (s.br p).state ≠ .isolating then s.refuses .branchState .empty
  else match s.job? (s.br p).job with
    | none => s.refuses .isolating .empty
    | some j =>
      if j.phase ≠ .hold then s.refuses .isolating .empty
      else match s.wetCause j [p] with
        | some w => s.refuses .wetStill (.wet w)
        | none => ((((s.releaseBranch p).pass [] []).removeTarget j.id p).removeIfEmpty j.id, answer .done .empty)

/-- RELEASE_ISOLATION (R162). -/
def execReleaseIsolation (c : Cmd) (position : Nat) (s : State) : Host.Outcome State Fault Refusal :=
  .next (s.command (.releaseIsolation c position) c (.roles [.rack]) .wanted (releaseIsolationBlock position))

/-- The trunk of the rack job is released: its latch cleared, its reservation dropped, and both valves opened, the return
first (R163). -/
def State.releaseTrunk (s : State) (j : Job) : State :=
  let t := State.holdIfChanged { s with store.trunkLatch := false } s
  let t := ((t.modJob j.id (fun j => { j with trunk := none })).unreserve 48).unreserve 49
  ((t.placeIso 49 1000 .trunkOpening).placeIso 48 1000 .trunkOpening).removeIfEmpty j.id

/-- RELEASE_TRUNK after the checks of the link (R163). -/
def releaseTrunkBlock : Block := fun s => match s.rackJob with
  | none => s.refuses .notFound .empty
  | some j =>
    if j.trunk.isNone then s.refuses .notFound .empty
    else if j.phase ≠ .hold then s.refuses .isolating .empty
    else match s.wetCause j (j.targets.map (fun t => t.pos)) with
      | some w => s.refuses .wetStill (.wet w)
      | none => match j.targets.find? (fun t => t.supply ≠ .ok) with
        | some t => s.refuses .branchState (.position t.pos)
        | none => (s.releaseTrunk j, answer .done .empty)

/-- RELEASE_TRUNK (R163). -/
def execReleaseTrunk (c : Cmd) (s : State) : Host.Outcome State Fault Refusal :=
  .next (s.command (.releaseTrunk c) c (.roles [.rack]) .wanted releaseTrunkBlock)

end Sys2Proof.Machine
end

