-- ==== Sys2Proof/Machine/FlowCommands.lean ====
section
/-! DEFINITION. The commands of the group Flow and supply: FLOW_REQUEST, FLOW_RELEASE, CUT_ACK, DECLARE_SUPPLY (chapter 2). -/

namespace Sys2Proof.Machine

/-- What the reply to a flow command carries (R25, R28). -/
def State.flowBody (s : State) (p : Position) : ReplyBody :=
  .flow (s.br p).request (s.br p).target (s.br p).grant (s.br p).drive

/-- A request is written: a new stamp if it is greater than the one held, the flow, and the urgent flag where the policy
permits it (R25–R27). -/
def State.writeRequest (s : State) (p : Position) (flow : Nat) (urgent : Bool) : State :=
  let s := if (s.br p).request < flow then s.takeStamp p else s
  s.modBr p (fun b => { b with request := flow, urgent := urgent && b.limits.urgentPermitted })

/-- FLOW_REQUEST for a branch (R25). -/
def flowRequestOn (flow : Nat) (urgent : Bool) (p : Position) : Block := fun s =>
  if 600 < flow then s.refuses .range .empty
  else if (s.br p).state ≠ .active then s.refuses .branchState .empty
  else
    let t := (s.writeRequest p flow urgent).pass [] []
    (t, answer (if urgent && !(s.br p).limits.urgentPermitted then .doneWarn else .done) (t.flowBody p))

/-- FLOW_REQUEST (R25). -/
def execFlowRequest (c : Cmd) (flow : Nat) (urgent : Bool) (s : State) : Host.Outcome State Fault Refusal :=
  .next (s.command (.flowRequest c flow urgent) c .boundServer .wanted (onBound c (flowRequestOn flow urgent)))

/-- FLOW_RELEASE for a branch (R28). -/
def flowReleaseOn (p : Position) : Block := fun s =>
  if (s.br p).state ≠ .active then s.refuses .branchState .empty
  else
    let t := (s.modBr p (fun b => { b with request := 0, urgent := false })).pass [] []
    (t, answer .done (t.flowBody p))

/-- FLOW_RELEASE (R28). -/
def execFlowRelease (c : Cmd) (s : State) : Host.Outcome State Fault Refusal :=
  .next (s.command (.flowRelease c) c .boundServer .wanted (onBound c flowReleaseOn))

/-- A pending cut is carried out: the drive falls to its new drive, the cut is removed, and waiting rises are
re-examined (R38, R39). -/
def State.carryCut (s : State) (p : Position) (k : PendingCut) : State :=
  ((s.modBr p (fun b => { b with cut := none })).setDrive p k.newDrive).reexamine

/-- CUT_ACK for a branch (R38). -/
def cutAckOn (p : Position) : Block := fun s => match (s.br p).cut with
  | some k => (s.carryCut p k, answer .done .empty)
  | none => (s, answer .late .empty)

/-- CUT_ACK (R38). -/
def execCutAck (c : Cmd) (s : State) : Host.Outcome State Fault Refusal :=
  .next (s.command (.cutAck c) c .boundServer .wanted (onBound c cutAckOn))

/-- The supply record after a declaration (R23). -/
def State.declared (s : State) (supply : Nat) : State :=
  { s with arb.supply := { state := .fresh, declared := supply, lastAt := some s.now
                           deadline := some (s.now + 1000 * s.pol.active.supply.ageing) } }

/-- DECLARE_SUPPLY after the checks of the link (R23). -/
def declareSupplyBlock (supply : Nat) : Block := fun s =>
  if 16000 < supply then s.refuses .range .empty
  else
    let t := (s.declared supply).pass [] (if s.arb.supply.state = .stale then [.staleEnded] else [])
    (t, answer .done (.supplyAnswer t.supplyInUse t.budget t.available))

/-- DECLARE_SUPPLY (R23). -/
def execDeclareSupply (c : Cmd) (supply : Nat) (s : State) : Host.Outcome State Fault Refusal :=
  .next (s.command (.declareSupply c supply) c (.roles [.supply]) .wanted (declareSupplyBlock supply))

end Sys2Proof.Machine
end

