-- ==== Sys2Proof/Machine/Events.lean ====
section
/-! DEFINITION. The events of the other blocks: deadlines and windows, meter pulses, sense samples, discrete lines, the valve bus, the store, power and restart. -/

namespace Sys2Proof.Machine

/-- An event of the part: it has an effect only under power. -/
def State.event (s : State) (f : State → State) : Host.Outcome State Fault Refusal :=
  .next (if s.powered then f s else s)

/-- An event that names a unit of the part: it is a fault where the part has no such unit. -/
def State.unitEvent (s : State) (known : Bool) (f : State → State) : Host.Outcome State Fault Refusal :=
  if known then s.event f else .fault .noSuchUnit

/-- A deadline expires, if it runs: the event is taken at the deadline, or now if it is past (log 2). -/
def State.atDeadline (s : State) (d : Option Time) (f : State → State) : State := match d with
  | none => s
  | some t => f (s.advance t)

/-! ### Arbiter and flow -/

/-- The supply record enters STALE, with one pass (R24). -/
def State.goStale (s : State) : State :=
  (State.pass { s with arb.supply := { s.arb.supply with state := .stale, deadline := none } } [] [.staleEntered]).finish

/-- SUPPLY_AGEING_EXPIRY (R24). -/
def execSupplyAgeingExpiry (s : State) : Host.Outcome State Fault Refusal :=
  s.event (fun s => s.atDeadline (if s.arb.supply.state = .fresh then s.arb.supply.deadline else none) State.goStale)

/-- A pending cut expires: the drive falls and the overdue counter advances, stopping at 255 (R39). -/
def State.expireCut (s : State) (p : Position) (k : PendingCut) : State :=
  ((s.modBr p (fun b => { b with overdue := min (b.overdue + 1) 255 })).carryCut p k).finish

/-- CUT_DEADLINE_EXPIRY (R39). -/
def execCutDeadlineExpiry (p : Nat) (s : State) : Host.Outcome State Fault Refusal :=
  s.unitEvent (p ≤ 23) (fun s => match (s.br p).cut with
    | none => s
    | some k => (s.advance k.deadline).expireCut p k)

/-- MEASUREMENT_WINDOW_EXPIRY (R94–R112, R159). -/
def execMeasurementWindowExpiry (s : State) : Host.Outcome State Fault Refusal :=
  s.event (fun s => (s.advance s.window.deadline).windowExpiry.finish)

/-- A pulse adds one to a meter's count (R94). -/
def Meter.pulse (m : Meter) : Meter := { m with pulses := m.pulses + 1 }

/-- METER_PULSE: meters 0–23 are the supply meters, 24–47 the return meters (R94). -/
def execMeterPulse (t : Time) (meter : Nat) (s : State) : Host.Outcome State Fault Refusal :=
  s.unitEvent (meter ≤ 47) (fun s =>
    if meter < 24 then (s.advance t).modBr meter (fun b => { b with supplyMeter := b.supplyMeter.pulse })
    else (s.advance t).modBr (meter - 24) (fun b => { b with returnMeter := b.returnMeter.pulse }))

/-! ### Drip sense and localization -/

/-- SENSE_SAMPLE_EVENT; the tenth of a window is its window end (R114, R115). -/
def execSenseSampleEvent (samples : List Sample) (s : State) : Host.Outcome State Fault Refusal :=
  s.unitEvent (samples.length = 34) (fun s =>
    ((s.advance s.sense.nextAt).sampleEvent samples (9 ≤ s.sense.index)).finish)

/-- SENSE_WINDOW_END: the sample is taken, and the window is classified (R114, R116). -/
def execSenseWindowEnd (samples : List Sample) (s : State) : Host.Outcome State Fault Refusal :=
  s.unitEvent (samples.length = 34) (fun s => ((s.advance s.sense.nextAt).sampleEvent samples true).finish)

/-- CASE_DEADLINE_EXPIRY (R137). -/
def execCaseDeadlineExpiry (e : Nat) (s : State) : Host.Outcome State Fault Refusal :=
  s.unitEvent (e ≤ 8) (fun s => s.atDeadline ((s.caseAt e).map (fun c => c.deadline)) (fun s => (s.expireCase e).finish))

/-! ### Isolation sequencer -/

/-- The deadline of a job, while it is in a phase. -/
def State.phaseDeadline (s : State) (i : JobId) (ph : Phase) : Option Time :=
  (s.job? i).bind (fun j => if j.phase = ph then j.deadline else none)

/-- JOB_PHASE_DEADLINE_EXPIRY: the warn deadline of a job in NOTIFY (R149). -/
def execJobPhaseDeadlineExpiry (i : JobId) (s : State) : Host.Outcome State Fault Refusal :=
  s.event (fun s => s.atDeadline (s.phaseDeadline i .notify) (fun s => (s.endNotify i).finish))

/-- The retry of a job in UNCONTAINED (R158). -/
def State.retryJob (s : State) (i : JobId) : State := match s.job? i with
  | none => s
  | some j => (s.retryCloses j).finish

/-- UNCONTAINED_RETRY_EXPIRY (R158). -/
def execUncontainedRetryExpiry (i : JobId) (s : State) : Host.Outcome State Fault Refusal :=
  s.event (fun s => s.atDeadline (s.phaseDeadline i .uncontained) (fun s => s.retryJob i))

/-- DRAIN_DEADLINE_EXPIRY (R155). -/
def execDrainDeadlineExpiry (i : JobId) (s : State) : Host.Outcome State Fault Refusal :=
  s.event (fun s => s.atDeadline (s.phaseDeadline i .drain) (fun s => (s.enterCloseReturn i).finish))

/-- SIMULATE_DEADLINE_EXPIRY: the drill job is removed and its report COMPLETE (R167). -/
def execSimulateDeadlineExpiry (i : JobId) (s : State) : Host.Outcome State Fault Refusal :=
  s.event (fun s => s.atDeadline (s.phaseDeadline i .simulate) (fun s => ((s.dropJob i).drillStatus .complete).finish))

/-! ### Discrete lines (R147, R172) -/

/-- A line takes a level; a level that differs from the debounced one must hold 50 ms (R147). -/
def Pin.change (x : Pin) (now : Time) (l : Level) (powered : Bool) : Pin :=
  if x.level = l then x
  else { level := l, debounced := x.debounced
         deadline := if powered && l ≠ x.debounced then some (now + Config.debounce) else none }

/-- LINE_LEVEL_CHANGE (R147, R172). -/
def execLineLevelChange (t : Time) (line : LineName) (l : Level) (s : State) : Host.Outcome State Fault Refusal :=
  let s := s.advance t
  .next (match line with
    | .hall => { s with hall := s.hall.change s.now l s.powered }
    | .commissioning => { s with commissioning := s.commissioning.change s.now l s.powered })

/-- The debounced level takes the line's level. -/
def Pin.settle (x : Pin) : Pin := { level := x.level, debounced := x.level, deadline := none }

/-- The hall line's debounced level has changed: an asserting edge under the enable makes a RACK request (R147). -/
def State.hallSettled (s : State) : State :=
  let was := s.hallAsserted
  let s := { s with hall := s.hall.settle }
  if s.pol.active.supply.hallEnable && !was && s.hallAsserted then (s.takeRack .hallLine []).finish else s

/-- LINE_DEBOUNCE_EXPIRY (R147, R172). -/
def execLineDebounceExpiry (line : LineName) (s : State) : Host.Outcome State Fault Refusal :=
  s.event (fun s => match line with
    | .hall => s.atDeadline s.hall.deadline State.hallSettled
    | .commissioning => s.atDeadline s.commissioning.deadline (fun s => { s with commissioning := s.commissioning.settle }))

/-! ### Valve bus -/

/-- VALVE_REPLY (R69); a reply while no transaction is on the line is heard by nobody. -/
def execValveReply (t : Time) (r : ValveReply) (s : State) : Host.Outcome State Fault Refusal :=
  s.event (fun s => match s.bus.line with
    | .busy x => (s.advance t).replyArrives r x
    | .free => s.advance t
    | .stopping => s.advance t)

/-- VALVE_REPLY_TIMEOUT: 20 ms after the request (R69). -/
def execValveReplyTimeout (s : State) : Host.Outcome State Fault Refusal :=
  s.event (fun s => match s.bus.line with
    | .busy x => (s.advance (x.sentAt + Config.replyWait)).attemptFailed x
    | .free => s
    | .stopping => s)

/-- START_TIMER_EXPIRY (R77). -/
def execStartTimerExpiry (a : Nat) (s : State) : Host.Outcome State Fault Refusal :=
  s.unitEvent (a ≤ 49) (fun s => match (s.act a).move with
    | none => s
    | some m => s.atDeadline m.startTimer (fun s => (s.startTimerOut a m).finish))

/-- MOVE_TIMER_EXPIRY (R78). -/
def execMoveTimerExpiry (a : Nat) (s : State) : Host.Outcome State Fault Refusal :=
  s.unitEvent (a ≤ 49) (fun s => match (s.act a).move with
    | none => s
    | some m => ((s.advance m.moveTimer).failMove a .stall).finish)

/-- TRACKING_POLL_DUE: 100 ms after the last transaction (R76). -/
def execTrackingPollDue (a : Nat) (s : State) : Host.Outcome State Fault Refusal :=
  s.unitEvent (a ≤ 49) (fun s => s.atDeadline ((s.act a).lastTx.map (· + Config.trackingWait))
    (fun s => (s.trackingDue a).finish))

/-- IDLE_POLL_DUE: 5 s after the last transaction (R79). -/
def execIdlePollDue (a : Nat) (s : State) : Host.Outcome State Fault Refusal :=
  s.unitEvent (a ≤ 49) (fun s => s.atDeadline ((s.act a).lastTx.map (· + Config.idleWait))
    (fun s => (s.idleDue a).finish))

/-- A bus clear with an empty clear list ends as soon as its STOP is sent (R83). -/
def State.stopGone (s : State) : State :=
  State.finish { s with
    bus.line := .free
    bus.clearing := match s.bus.clearing with
      | none => none
      | some c => if c.polls.isEmpty then none else some c }

/-- STOP_SENT (R69, R83). -/
def execStopSent (t : Time) (s : State) : Host.Outcome State Fault Refusal :=
  s.event (fun s => if s.bus.line = .stopping then (s.advance t).stopGone else s.advance t)

/-! ### Store (R187, R188) -/

/-- A hold write has ended and its read-back check passes: the slot becomes current, and a further write that is due
begins (R188). -/
def State.holdWritten (s : State) (slot : SlotName) (r : HoldRecord) : State :=
  let s := { s with store := { (s.store.setHold slot (some r)) with holding := none } }
  if s.store.furtherDue then State.beginHoldWrite { s with store.furtherDue := false } else s

/-- A hold write whose check fails is begun again at once with the set as it stands (R188). -/
def State.holdFailed (s : State) (slot : SlotName) : State :=
  State.beginHoldWrite { s with store := s.store.setHold slot none }

/-- HOLD_WRITE_END (R188). -/
def execHoldWriteEnd (t : Time) (ok : Bool) (s : State) : Host.Outcome State Fault Refusal :=
  s.event (fun s => match s.store.holding with
    | none => s.advance t
    | some (slot, r) => if ok then (s.advance t).holdWritten slot r else (s.advance t).holdFailed slot)

/-- A save has ended: the slot becomes current with COMPLETION DONE, or stays invalid with COMPLETION FAILED (R187). -/
def State.saveEnded (s : State) (slot : SlotName) (i : Image) (ok : Bool) : State :=
  let s := { s with store := { (s.store.setImage slot (if ok then some i else none)) with saving := none } }
  if ok then s.complete .save .done (.saved i.sequence) else s.complete .save .failed .saveFailed

/-- SAVE_WRITE_END (R187). -/
def execSaveWriteEnd (t : Time) (ok : Bool) (s : State) : Host.Outcome State Fault Refusal :=
  s.event (fun s => match s.store.saving with
    | none => s.advance t
    | some (slot, i) => ((s.advance t).saveEnded slot i ok).finish)

/-! ### Power and restart (R189, R192) -/

/-- POWER_ON; power that comes while the part has power is a reset too (R189). -/
def execPowerOn (t : Time) (s : State) : Host.Outcome State Fault Refusal :=
  let s := s.advance t
  .next (State.startUp { s with store := s.store.cutShort false } .powerOn)

/-- The reset of an accepted RESTART may be made: its reply has been sent and every hold write has ended (R188, R192). -/
def State.restartDue (s : State) : Bool :=
  s.link.restarting && !s.link.replyOpen && s.store.holding.isNone && !s.store.furtherDue

/-- RESTART_RESET (R192). -/
def execRestartReset (t : Time) (imageWritten : Bool) (s : State) : Host.Outcome State Fault Refusal :=
  s.event (fun s =>
    if s.restartDue then
      let s := s.advance t
      State.startUp { s with store := s.store.cutShort imageWritten } .restart
    else s.advance t)

/-- POWER_LOSS: writes are cut short, and the part acts on nothing until power returns (R186, R188). -/
def execPowerLoss (t : Time) (imageWritten : Bool) (s : State) : Host.Outcome State Fault Refusal :=
  s.event (fun s =>
    let s := s.advance t
    { s with powered := false, store := s.store.cutShort imageWritten })

end Sys2Proof.Machine
end

