-- ==== Sys2Proof/Machine/LinkCommands.lean ====
section
/-! DEFINITION. The commands of the group Link, requesters and the part: IDENTIFY, BIND_REQUESTER, UNBIND_REQUESTER, SET_NOTICES, SET_TELEMETRY, RESTART (R172, R173, R180, R184, R185, R192). -/

namespace Sys2Proof.Machine

/-! ### IDENTIFY (R185) -/

/-- What IDENTIFY carries (R185). -/
def State.identity (s : State) (c : Cmd) : Identity :=
  { vendor := Config.vendorCode, part := 2434, revision := Config.revision, addr := s.stationAddr, branches := 24
    actuators := 50, channels := 34, ordinarySlots := 8, rackSlots := 1, entries := 32
    sender := (s.entryOf c.src).bind (fun i => (s.requester i).map (fun r => (i, r.role)))
    commissioning := s.commissioning.debounced }

/-- IDENTIFY after the checks of the link (R185). -/
def identifyBlock (c : Cmd) : Block := fun s => (s, answer .done (.identity (s.identity c)))

/-- IDENTIFY (R185). -/
def execIdentify (c : Cmd) (s : State) : Host.Outcome State Fault Refusal :=
  .next (s.command (.identify c) c .anyStation .always (identifyBlock c))

/-! ### BIND_REQUESTER (R172) -/

/-- The mask that selects every kind. -/
def fullMask : BitVec 16 := 0x7FFF#16

/-- The operands of BIND_REQUESTER are in range; the role if they are (R172, checks 1 and 2; R180). That the
mask is checked here, before the limits of the table, is the model's choice (log 71). -/
def State.bindRole (s : State) (addr : Addr) (role : Nat) (branch : Option Nat) (mask : Option (BitVec 16)) : Option Role :=
  match roleOf role with
  | none => none
  | some r =>
    let branchOk := match branch with
      | none => true
      | some p => p ≤ 23 && r = .server
    if branchOk && !(mask.any maskBad) && addr ≠ Config.broadcast && addr ≠ s.stationAddr then some r else none

/-- A requester holds a role or a branch that a new binding may not share with it (R171). -/
def Requester.clashes (q : Requester) (r : Role) (branch : Option Position) : Bool := match r with
  | .rack => q.role = .rack
  | .supply => q.role = .supply
  | .server => branch.isSome && q.branch = branch
  | .service => false

/-- The entry, other than the one the address holds, that a binding would clash with (R172, check 3). -/
def State.clash (s : State) (addr : Addr) (r : Role) (branch : Option Position) : Option Nat :=
  Config.entries.find? (fun i => match s.requester i with
    | none => false
    | some q => q.addr ≠ addr && q.clashes r branch)

/-- The bound requester field of a branch is set or cleared (R6). -/
def State.setBound (s : State) (p : Option Position) (i : Option Nat) : State := match p with
  | none => s
  | some p => s.modBr p (fun b => { b with boundTo := i })

/-- An entry is written; the branch it left and the branch it names follow (R172). -/
def State.bindEntry (s : State) (i : Nat) (addr : Addr) (r : Role) (branch : Option Position) (mask : BitVec 16) : State :=
  let old := s.requester i
  let new : Requester := { addr := addr, role := r, branch := branch, mask := mask
                           telemetry := (old.map (fun q => q.telemetry)).getD .off
                           number := (old.map (fun q => q.number)).getD 0 }
  ((s.setRequester i (some new)).setBound (old.bind (fun q => q.branch)) none).setBound branch (some i)

/-- BIND_REQUESTER after the checks of the link (R172). -/
def bindBlock (addr : Addr) (role : Nat) (branch : Option Nat) (mask : Option (BitVec 16)) : Block := fun s =>
  match s.bindRole addr role branch mask with
  | none => s.refuses .range .empty
  | some r => match s.clash addr r branch with
    | some i => s.refuses .busy (.entry i)
    | none => match (s.entryOf addr).or s.emptyEntry with
      | none => s.refuses .busy .noEntry
      | some i => (s.bindEntry i addr r branch (mask.getD fullMask), answer .done (.entry i))

/-- BIND_REQUESTER (R172). -/
def execBindRequester (c : Cmd) (addr : Addr) (role : Nat) (branch : Option Nat) (mask : Option (BitVec 16)) (s : State) :
    Host.Outcome State Fault Refusal :=
  .next (s.command (.bindRequester c addr role branch mask) c .commissioning .wanted (bindBlock addr role branch mask))

/-! ### UNBIND_REQUESTER (R173) -/

/-- UNBIND_REQUESTER after the checks of the link (R173). -/
def unbindBlock (i : Nat) : Block := fun s =>
  if 31 < i then s.refuses .range .empty
  else match s.requester i with
    | none => s.refuses .notFound .empty
    | some r => ((s.setRequester i none).setBound r.branch none, answer .done .empty)

/-- UNBIND_REQUESTER (R173). -/
def execUnbindRequester (c : Cmd) (entry : Nat) (s : State) : Host.Outcome State Fault Refusal :=
  .next (s.command (.unbindRequester c entry) c (.roles [.rack]) .wanted (unbindBlock entry))

/-! ### SET_NOTICES and SET_TELEMETRY (R180, R184) -/

/-- The sender's entry is changed. -/
def State.modSender (s : State) (c : Cmd) (f : Requester → Requester) : State := match s.entryOf c.src with
  | none => s
  | some i => s.setRequester i ((s.requester i).map f)

/-- SET_NOTICES after the checks of the link (R180). -/
def setNoticesBlock (c : Cmd) (mask : BitVec 16) : Block := fun s =>
  if maskBad mask then s.refuses .range .empty
  else (s.modSender c (fun r => { r with mask := mask }), answer .done (.mask mask))

/-- SET_NOTICES (R180). -/
def execSetNotices (c : Cmd) (mask : BitVec 16) (s : State) : Host.Outcome State Fault Refusal :=
  .next (s.command (.setNotices c mask) c .anyRegistered .wanted (setNoticesBlock c mask))

/-- The mode held after a request, and the status of the answer (R184). -/
def Telemetry.judge (held asked : Telemetry) : Telemetry × Status := match held, asked with
  | _, .off => (.off, .done)
  | _, .stream => (.stream, .done)
  | .off, .snapshot => (.snapshot, .done)
  | .off, .counted m => (.counted m, .done)
  | .stream, .snapshot => (.stream, .doneWarn)
  | .stream, .counted _ => (.stream, .doneWarn)
  | .snapshot, .snapshot => (.snapshot, .done)
  | .snapshot, .counted _ => (.snapshot, .doneWarn)
  | .counted k, .snapshot => (.counted k, .doneWarn)
  | .counted _, .counted m => (.counted m, .done)

/-- SET_TELEMETRY after the checks of the link (R184). -/
def setTelemetryBlock (c : Cmd) (mode n : Nat) : Block := fun s => match telemetryOf mode n with
  | none => s.refuses .range .empty
  | some asked => match s.sender c with
    | none => s.refuses .notRegistered .empty
    | some r =>
      (s.modSender c (fun q => { q with telemetry := (r.telemetry.judge asked).1 }),
       answer (r.telemetry.judge asked).2 .empty)

/-- SET_TELEMETRY (R184). -/
def execSetTelemetry (c : Cmd) (mode count : Nat) (s : State) : Host.Outcome State Fault Refusal :=
  .next (s.command (.setTelemetry c mode count) c .anyRegistered .wanted (setTelemetryBlock c mode count))

/-! ### RESTART (R192) -/

/-- RESTART after the checks of the link: the link takes no further command until the reset (R192). -/
def restartBlock : Block := fun s => ({ s with link.restarting := true }, answer .done .empty)

/-- RESTART (R192). -/
def execRestart (c : Cmd) (s : State) : Host.Outcome State Fault Refusal :=
  .next (s.command (.restart c) c (.roles [.rack]) .wanted restartBlock)

end Sys2Proof.Machine
end

