-- ==== Sys2Proof/Machine/LinkEvents.lean ====
section
/-! DEFINITION. The events of the port: FRAME_ARRIVAL, FRAME_SENT, PORT_LINK_CHANGE (R169, R170, R174, R183). -/

namespace Sys2Proof.Machine

/-! ### FRAME_ARRIVAL (R169) -/

/-- What the header and source of a frame give a command (R169, R170). -/
def frameCmd (t : Time) (f : RawFrame) (h : Header) : Cmd :=
  { src := f.src, time := t, urgent := h.flags.getLsbD 0, wantReply := h.flags.getLsbD 1, tag := h.tag
    lengthOk := (allowedLengths h.code).contains h.bodyLength }

/-- The record of a frame is at least a header and as long as its header says (R169). -/
def recordWhole (b : List Byte) : Bool := 12 ≤ b.length && b.length = 12 + (headerOf b).bodyLength

/-- The record is a REPLY or a NOTICE (R169). -/
def fromPart (h : Header) : Bool := h.kind = 2 || h.kind = 3

/-- The record is refused at arrival with FORMAT (R169). -/
def badFormat (h : Header) : Bool := h.format ≠ 1 || 480 < h.bodyLength || !inRange 1 42 h.code

/-- The frame carries an IDENTIFY command (R169, R185): kind COMMAND and good format, the model's reading (log 9). -/
def carriesIdentify (h : Header) : Bool := h.kind = 1 && h.code = 26 && !badFormat h

/-- The frame is for the part: its own address, or the broadcast address with an IDENTIFY command (R169). -/
def State.addressed (s : State) (f : RawFrame) : Bool :=
  f.etype = Config.protocolType && (f.dest = s.stationAddr || (f.dest = Config.broadcast && carriesIdentify (headerOf f.payload)))

/-- A frame that the link takes is judged (R169). -/
def State.frameArrives (s : State) (t : Time) (f : RawFrame) : State :=
  let h := headerOf f.payload
  if !recordWhole f.payload || !s.addressed f || fromPart h then s
  else if badFormat h then (s.handReply (refusedAtArrival f.src h.code h.tag .format)).transmit
  else match commandOf h.code (frameCmd t f h) (f.payload.drop 12) with
    | none => s
    | some i => (s.offer i (frameCmd t f h)).transmit

/-- FRAME_ARRIVAL: no frame arrives without power or while the port has no link (R169). -/
def execFrameArrival (t : Time) (f : RawFrame) (s : State) : Host.Outcome State Fault Refusal :=
  .next (if s.powered && s.link.up then (s.advance t).frameArrives t f else s)

/-! ### FRAME_SENT (R183) -/

/-- A long-command record is removed once its COMPLETION has been sent (R178). -/
def State.forgetLong (s : State) (n : Notice) : State := match n with
  | .completion k _ _ => { s with link.longs := s.link.longs.filter (fun r => !(r.kind = k && r.completed)) }
  | _ => s

/-- The frame of the oldest entry has been sent to its next recipient; an entry served to all is removed (R181, R183). -/
def State.noticeSent (s : State) : State := match s.link.outbound with
  | [] => s
  | e :: l =>
    if e.served + 1 < e.recipients.length
    then { s with link.outbound := { e with served := e.served + 1 } :: l }
    else State.forgetLong { s with link.outbound := l } e.notice

/-- FRAME_SENT: the frame being sent has gone, and the transmitter takes the next (R183). -/
def execFrameSent (t : Time) (s : State) : Host.Outcome State Fault Refusal :=
  .next (if s.powered then
    let s := s.advance t
    match s.link.sending with
    | none => s
    | some (.reply _) => State.transmit { s with link.sending := none }
    | some .notice => (State.noticeSent { s with link.sending := none }).transmit
  else s)

/-! ### PORT_LINK_CHANGE (R169, R183) -/

/-- The frame being sent when the port loses its link is not sent, and waits again (log 20). -/
def State.unsend (s : State) : State := match s.link.sending with
  | none => s
  | some (.reply f) => { s with link.sending := none, link.replies := f :: s.link.replies }
  | some .notice => { s with link.sending := none }

/-- PORT_LINK_CHANGE: without link the transmitter waits (R169, R183). -/
def execPortLinkChange (t : Time) (up : Bool) (s : State) : Host.Outcome State Fault Refusal :=
  let s := { s.advance t with link.up := up }
  .next (if s.powered then if up then s.transmit else s.unsend else s)

end Sys2Proof.Machine
end

