-- ==== Sys2Proof/Machine/PolicyCommands.lean ====
section
/-! DEFINITION. The commands of the group Policy: the STAGE commands, APPLY_POLICY, DISCARD_STAGED and SAVE_POLICY (chapter 3, R187). -/

namespace Sys2Proof.Machine

/-! ### Staging (R50–R53) -/

/-- A group is written into the staged copy, and staged-dirty becomes yes (R50). -/
def State.stage (s : State) (f : Policy → Policy) : State :=
  { s with pol.staged := f s.pol.staged, pol.dirty := true }

/-- A STAGE command after the checks of the link: its index, then its fields in order; a field out of range is named by
its ordinal (R50). -/
def stageBlock (indexOk : Bool) (checks : List Bool) (f : Policy → Policy) : Block := fun s =>
  if !indexOk then s.refuses .range .empty
  else match firstOut checks with
    | some n => s.refuses .range (.ordinal n)
    | none => (s.stage f, answer .done .empty)

/-- STAGE_BRANCH (R51). -/
def execStageBranch (c : Cmd) (position : Nat) (g : BranchGroup) (s : State) : Host.Outcome State Fault Refusal :=
  .next (s.command (.stageBranch c position g) c (.roles [.rack]) .wanted
    (stageBlock (inRange 0 23 position) (BranchGroup.checks g)
      (fun p => { p with branches := p.branches.set position (BranchGroup.policy g) })))

/-- STAGE_ZONE (R52). -/
def execStageZone (c : Cmd) (zone : Nat) (extent : Option (Nat × Nat)) (s : State) : Host.Outcome State Fault Refusal :=
  .next (s.command (.stageZone c zone extent) c (.roles [.rack]) .wanted
    (stageBlock (inRange 0 7 zone) (extentChecks extent) (fun p => { p with zones := p.zones.set zone extent })))

/-- A channel class by its code writes its threshold and count (R52). -/
def Policy.setClass (p : Policy) (cls : Nat) (x : ClassPolicy) : Policy := match cls with
  | 0 => { p with rope := x }
  | 1 => { p with tray := x }
  | _ => { p with base := x }

/-- STAGE_CHANNEL_CLASS (R52). -/
def execStageChannelClass (c : Cmd) (cls threshold confirm : Nat) (s : State) : Host.Outcome State Fault Refusal :=
  .next (s.command (.stageChannelClass c cls threshold confirm) c (.roles [.rack]) .wanted
    (stageBlock (inRange 0 2 cls) [inRange 1 1023 threshold, inRange 1 10 confirm]
      (fun p => p.setClass cls { threshold := threshold, confirm := confirm })))

/-- STAGE_TIMING (R53). -/
def execStageTiming (c : Cmd) (g : Timing) (s : State) : Host.Outcome State Fault Refusal :=
  .next (s.command (.stageTiming c g) c (.roles [.rack]) .wanted
    (stageBlock true (timingChecks g) (fun p => { p with timing := g })))

/-- STAGE_SUPPLY (R53). -/
def execStageSupply (c : Cmd) (g : SupplyGroup) (s : State) : Host.Outcome State Fault Refusal :=
  .next (s.command (.stageSupply c g) c (.roles [.rack]) .wanted
    (stageBlock true (SupplyGroup.checks g) (fun p => { p with supply := SupplyGroup.policy g })))

/-! ### Validation (R56, R57) -/

/-- The error of a branch group (R56, step 1). -/
def BranchPolicy.error (b : BranchPolicy) : Option ApplyCode :=
  if b.limits.ceiling < b.limits.floor then some .floorAboveCeiling
  else if b.limits.pfull < b.limits.p0 + 100 then some .curveOrder else none

/-- Two extents share a position. -/
def overlaps (a b : Nat × Nat) : Bool := a.1 ≤ b.2 && b.1 ≤ a.2

/-- The error of zone z against its order and the lower-numbered zones (R56, step 2). -/
def zoneError (zones : List (Option (Nat × Nat))) (z : Nat) : Option ApplyCode := match zones.getD z none with
  | none => none
  | some e =>
    if e.2 < e.1 then some .zoneOrder
    else if (zones.take z).any (fun x => match x with
        | none => false
        | some a => overlaps a e) then some .zoneOverlap else none

/-- The first error of a policy, with its index (R56). -/
def Policy.error (p : Policy) : Option (ApplyCode × Nat) :=
  match Config.positions.findSome? (fun n => ((p.branches.getD n BranchPolicy.factory).error).map (fun e => (e, n))) with
  | some x => some x
  | none => Config.zones.findSome? (fun z => (zoneError p.zones z).map (fun e => (e, z)))

/-- The budget an apply of a policy gives (R57). -/
def State.budgetUnder (s : State) (p : Policy) : Nat :=
  (match s.arb.supply.state with
    | .undeclared => p.supply.assumed
    | .fresh => s.arb.supply.declared
    | .stale => s.arb.supply.declared) - p.supply.reserve

/-- The warnings of a policy, each with its index (R57). -/
def State.applyWarnings (s : State) (p : Policy) : List (ApplyCode × Option Nat) :=
  (if s.budgetUnder p < p.floorSum then [(.floorSumOverBudget, none)] else []) ++
  (match p.uncovered with
    | [] => []
    | n :: _ => [(.branchUncovered, some n)])

/-! ### The apply (R58) -/

/-- A curve or control mode that differs (R60). -/
def Limits.recurved (a b : Limits) : Bool := a.p0 ≠ b.p0 || a.pfull ≠ b.pfull || a.mode ≠ b.mode

/-- Step 2 for a branch: its policy fields are copied, and a trim offset against another curve becomes 0 (R2). -/
def State.copyLimits (s : State) (p : Position) : State :=
  let new := (s.policyOf p).limits
  s.modBr p (fun b => { b with
    limits := new, trimOffset := if b.limits.p0 ≠ new.p0 || b.limits.pfull ≠ new.pfull then 0 else b.trimOffset })

/-- Steps 1 to 3 (R58). -/
def State.copyPolicy (s : State) : State :=
  let new := s.pol.staged
  let s := { s with pol.active := new, pol.dirty := false }
  let s := s.forEach Config.positions State.copyLimits
  let s := { s with pol.derived := new.derive s.budget }
  let s := s.forEach Config.positions (fun s p => s.modBr p (fun b => { b with zone := zoneOf new.zones p }))
  s.deriveGuards Config.positions

/-- Step 4: the ageing deadline of a FRESH record moves with the ageing time, and may be past (R24, R58). -/
def State.reage (s before : State) : State :=
  if s.arb.supply.state = .fresh && s.pol.active.supply.ageing ≠ before.pol.active.supply.ageing then
    let d := s.arb.supply.lastAt.getD s.now + 1000 * s.pol.active.supply.ageing
    if d ≤ s.now then { s with arb.supply := { s.arb.supply with state := .stale, deadline := none } }
    else { s with arb.supply := { s.arb.supply with deadline := some d } }
  else s

/-- Step 4: an ACTIVE branch whose curve or mode changed has its trim cancelled and its drive handed over (R60, R101,
R107). For a branch that step 5 makes VACANT it counts as a change of drive, but its valves are closed there, so nothing is
placed for it here (R100). That the COMPLETION of the trim comes before BRANCH_UNSETTLED is the model's choice (log 68). -/
def State.recurve (s before : State) (p : Position) : State :=
  if (s.br p).state = .active && (before.br p).limits.recurved (s.br p).limits then
    let s := s.cancelTrim p .policyChanged
    if (s.policyOf p).occupied then s.handOver p
    else (s.modBr p (fun b => { b with driveChanged := true })).unsettle p .driveChanged
  else s

/-- Step 4: the hall line is judged afresh when its enable or polarity changed (R61, R147). -/
def State.rehall (s before : State) : State :=
  if s.pol.active.supply.hallEnable ≠ before.pol.active.supply.hallEnable ||
     s.pol.active.supply.hallPolarity ≠ before.pol.active.supply.hallPolarity
  then { s with hall := s.hall.wake } else s

/-- A branch enters ACTIVE from VACANT on an apply (R15). Its drive does not change, and the control target is 0 until it does
(R100 names none here; log 33). -/
def State.occupy (s : State) (p : Position) : State :=
  let s := s.modBr p (fun b => { b with state := .active, request := b.limits.entryRequest, controlTarget := some 0 })
  (s.takeStamp p).returnRule p

/-- A branch leaves ACTIVE for VACANT on an apply (R15, R11). -/
def State.vacate (s : State) (p : Position) : State :=
  (((s.modBr p (fun b => { b with state := .vacant })).clearArbiterFields p).shutBranch p)

/-- Step 5 for a branch (R15). -/
def State.occupancy (s : State) (p : Position) : State :=
  match (s.br p).state, (s.policyOf p).occupied with
  | .active, false => s.vacate p
  | .vacant, true => s.occupy p
  | _, _ => s

/-- The positions whose state an event changed, each with its new state (R62). -/
def State.stateChanges (s before : State) : List (Position × BranchState) :=
  (Config.positions.filter (fun p => (s.br p).state ≠ (before.br p).state)).map (fun p => (p, (s.br p).state))

/-- Steps 1 to 6 (R58). That step 4 goes by ascending position is the model's choice (log 68). -/
def State.applyPolicy (before : State) : State :=
  let s := before.copyPolicy
  let s := s.reage before
  let stale := s.arb.supply.state = .stale && before.arb.supply.state ≠ .stale
  let s := (s.forEach Config.positions (fun s p => s.recurve before p)).rehall before
  let s := s.forEach Config.positions State.occupancy
  let left := Config.positions.filter (fun p => (before.br p).state = .active && (s.br p).state ≠ .active)
  s.pass left (if stale then [.staleEntered] else [])

/-- The apply result record of an apply (R56, R57, R63). -/
def applyRecord (now : Time) (o : ApplyOutcome) (l : List (ApplyCode × Option Nat)) (warnings : List ApplyCode) :
    ApplyResult :=
  { result := o, code := l.head?.map (fun x => x.1), index := (l.head?.map (fun x => x.2)).join, warnings := warnings
    time := some now }

/-- POLICY_APPLIED (R62). -/
def State.tellApplied (s before : State) : State :=
  s.notify (.policyApplied {
    result := s.pol.applied.result, warnings := s.pol.applied.warnings
    uncovered := if s.pol.applied.warnings.contains .branchUncovered then s.pol.derived.uncovered.head? else none
    floorSum := s.pol.derived.floorSum, margin := s.pol.derived.margin, changes := s.stateChanges before
    shortfall := shortfallCause before.arb.shortfall s.arb.shortfall })

/-- APPLY_POLICY after the checks of the link (R54–R58). -/
def applyPolicyBlock : Block := fun s =>
  if s.jobs.any Job.beforeHold then s.refuses .isolating .empty
  else match s.pol.staged.error with
    | some (e, n) =>
      ({ s with pol.applied := applyRecord s.now .refused [(e, some n)] [] },
       refuse .range (.applyCode (some e) (some n)))
    | none =>
      let warnings := s.applyWarnings s.pol.staged
      let o := if warnings.isEmpty then .done else .doneWarn
      let r := applyRecord s.now o warnings (warnings.map (fun x => x.1))
      let t := State.tellApplied { s.applyPolicy with pol.applied := r } s
      (t, answer (if warnings.isEmpty then .done else .doneWarn) (.applyCode r.code r.index))

/-- APPLY_POLICY (R54). -/
def execApplyPolicy (c : Cmd) (s : State) : Host.Outcome State Fault Refusal :=
  .next (s.command (.applyPolicy c) c (.roles [.rack]) .wanted applyPolicyBlock)

/-! ### Discarding and saving (R64, R187) -/

/-- DISCARD_STAGED after the checks of the link (R64). -/
def discardBlock : Block := fun s =>
  ({ s with pol.staged := s.pol.active, pol.dirty := false }, answer .done .empty)

/-- DISCARD_STAGED (R64). -/
def execDiscardStaged (c : Cmd) (s : State) : Host.Outcome State Fault Refusal :=
  .next (s.command (.discardStaged c) c (.roles [.rack]) .wanted discardBlock)

/-- SAVE_POLICY after the checks of the link (R187). -/
def saveBlock (c : Cmd) : Block := fun s =>
  if s.longInFlight .save then s.refuses .busy .empty
  else
    (State.recordLong { s with store.saving := some (s.store.imageSlot, s.snapshot) } .save c, answer .pending .empty)

/-- SAVE_POLICY (R187). -/
def execSavePolicy (c : Cmd) (s : State) : Host.Outcome State Fault Refusal :=
  .next (s.command (.savePolicy c) c (.roles [.rack]) .always (saveBlock c))

end Sys2Proof.Machine
end

