-- ==== Sys2Proof/Machine/Reads.lean ====
section
/-! DEFINITION. The commands of the group Reads: what each of the eleven reads returns (R1, R21, R30, R65, R68, R93, R128, R129, R143, R167, R171, R177). -/

namespace Sys2Proof.Machine

/-- READ_BRANCHES: 24 records in position order, 8 to a record (R1). -/
def State.branchBodies (s : State) : List ReplyBody :=
  (chunks 8 3 (Config.positions.map (fun p =>
    ({ pos := p, branch := s.br p, target := (s.br p).target
       cutLeft := (s.br p).cut.map (fun k => s.left k.deadline), counter := s.window.counter } : BranchView)))).map .branches

/-- READ_BRANCHES (R1). -/
def execReadBranches (c : Cmd) (s : State) : Host.Outcome State Fault Refusal :=
  .next (s.command (.readBranches c) c (.roles [.supply, .rack, .service]) .always
    (fun s => (s, readAnswer s.branchBodies)))

/-- What READ_SUPPLY returns (R21). -/
def State.supplyView (s : State) : SupplyView :=
  { state := s.arb.supply.state, declared := s.arb.supply.declared, sinceDeclared := s.arb.supply.lastAt.map s.since
    ageingLeft := (s.arb.supply.deadline.map s.left).getD 0, supply := s.supplyInUse, reserve := s.pol.active.supply.reserve
    budget := s.budget, quarantined := s.quarantined, draws := s.draws, available := s.available, floors := s.floorSum
    targets := s.targetSum, grants := s.grantSum, drives := s.driveSum, room := s.room, shortfall := s.arb.shortfall }

/-- READ_SUPPLY (R21). -/
def execReadSupply (c : Cmd) (s : State) : Host.Outcome State Fault Refusal :=
  .next (s.command (.readSupply c) c (.roles [.supply, .rack, .service]) .always
    (fun s => (s, readAnswer [.supply s.supplyView])))

/-- What READ_PENDING returns (R30). -/
def State.pendingView (s : State) : List PendingView :=
  s.arb.queue.map (fun p =>
    { pos := p, cls := (s.br p).limits.cls, urgent := (s.br p).urgent, stamp := (s.br p).stamp, target := (s.br p).target
      grant := (s.br p).grant, drive := (s.br p).drive, riseWaiting := (s.br p).riseWaiting })

/-- READ_PENDING (R30). -/
def execReadPending (c : Cmd) (s : State) : Host.Outcome State Fault Refusal :=
  .next (s.command (.readPending c) c (.roles [.supply, .rack, .service]) .always
    (fun s => (s, readAnswer (if s.pendingView.isEmpty then [] else [.pending s.pendingView]))))

/-- The bodies of READ_POLICY for a copy: the branch groups eight to a record, then the shared groups (R65, R177). -/
def State.policyBodies (s : State) (p : Policy) : List ReplyBody :=
  ((chunks 8 3 p.branches).zipIdx.map (fun (l, k) => ReplyBody.policyBranches (8 * k) l)) ++
  [.policy { zones := p.zones, rope := p.rope, tray := p.tray, base := p.base, timing := p.timing, supply := p.supply
             dirty := s.pol.dirty, maskSet := s.pol.maskSet, applied := s.pol.applied
             sinceApply := s.pol.applied.time.map s.since, derived := s.pol.derived }]

/-- READ_POLICY after the checks of the link (R65). -/
def readPolicyBlock (copy : Nat) : Block := fun s => match copy with
  | 0 => (s, readAnswer (s.policyBodies s.pol.staged))
  | 1 => (s, readAnswer (s.policyBodies s.pol.active))
  | _ => s.refuses .range .empty

/-- READ_POLICY (R65). -/
def execReadPolicy (c : Cmd) (copy : Nat) (s : State) : Host.Outcome State Fault Refusal :=
  .next (s.command (.readPolicy c copy) c (.roles [.rack, .service]) .always (readPolicyBlock copy))

/-- A shadow record as READ_ACTUATORS returns it (R68). -/
def State.actuatorView (s : State) (a : ActuatorNo) : ActuatorView :=
  let x := s.act a
  { number := a, shadow := x, sinceTx := x.lastTx.map s.since
    moveTarget := if x.moving then x.move.map (fun m => m.target) else none
    sinceMove := if x.moving then x.move.map (fun m => s.since m.sentAt) else none }

/-- READ_ACTUATORS: 50 records in address order, 10 to a record; the last also gives the claims waiting and whether a
bus clear is in progress (R68). -/
def State.actuatorBodies (s : State) : List ReplyBody :=
  ((chunks 10 4 (Config.actuators.map s.actuatorView)).map .actuators) ++
  [.busState ((Config.actuators.drop 40).map s.actuatorView) s.bus.isoQ.length s.bus.flowQ.length s.bus.svcQ.length
    s.bus.pollQ.length s.bus.clearing.isSome]

/-- READ_ACTUATORS (R68). -/
def execReadActuators (c : Cmd) (s : State) : Host.Outcome State Fault Refusal :=
  .next (s.command (.readActuators c) c (.roles [.rack, .service]) .always (fun s => (s, readAnswer s.actuatorBodies)))

/-- READ_VERIFY (R93). -/
def execReadVerify (c : Cmd) (s : State) : Host.Outcome State Fault Refusal :=
  .next (s.command (.readVerify c) c (.roles [.rack, .service]) .always (fun s => (s, readAnswer [.verify s.bus.verify])))

/-- A channel record as READ_CHANNELS returns it (R128). -/
def State.channelView (s : State) (ch : ChannelNo) : ChannelView :=
  { number := ch, cls := channelClass ch, channel := s.chan ch, policy := s.pol.active.classOf (channelClass ch)
    sinceEnd := s.since s.sense.lastEnd, watched := s.watched ch }

/-- READ_CHANNELS (R128). -/
def execReadChannels (c : Cmd) (s : State) : Host.Outcome State Fault Refusal :=
  .next (s.command (.readChannels c) c (.roles [.rack, .service]) .always
    (fun s => (s, readAnswer ((chunks 16 3 (Config.channels.map s.channelView)).map .channels))))

/-- The open cases in table order (R129). -/
def State.caseViews (s : State) : List CaseView :=
  (List.range 9).filterMap (fun e => (s.caseAt e).map (fun c =>
    { kind := caseKind e, case := c, timeLeft := s.left c.deadline }))

/-- READ_CASES (R129). -/
def execReadCases (c : Cmd) (s : State) : Host.Outcome State Fault Refusal :=
  .next (s.command (.readCases c) c (.roles [.rack, .service]) .always
    (fun s => (s, readAnswer (if s.caseViews.isEmpty then [] else [.cases s.caseViews]))))

/-- The present state of what an evidence entry names (R143). -/
def State.evidenceNow (s : State) (e : Evidence) : EvidenceNow := match e.item with
  | .channel ch => .channel (s.chan ch).state (s.chan ch).drill
  | .imbalance p => .imbalance (s.br p).imbalance (s.br p).imbalanceRun (s.br p).clearRun

/-- The evidence of a job is dry, judged for all its targets (R143, R161): for a RESTORED job the model's choice (log 69). -/
def State.jobDry (s : State) (j : Job) : Bool := (s.wetCause j (j.targets.map (fun t => t.pos))).isNone

/-- A job as READ_JOBS returns it (R143). -/
def State.jobView (s : State) (slot : Nat) (j : Job) : JobView :=
  { slot := slot, job := j, timeLeft := j.deadline.map s.left, evidence := j.evidence.map (fun e => (e, s.evidenceNow e))
    dry := s.jobDry j }

/-- READ_JOBS: one job to a record, in slot order (R143, R177). -/
def State.jobBodies (s : State) : List ReplyBody :=
  s.iso.slots.zipIdx.filterMap (fun (x, k) => x.map (fun j => ReplyBody.job (s.jobView k j)))

/-- READ_JOBS (R143). -/
def execReadJobs (c : Cmd) (s : State) : Host.Outcome State Fault Refusal :=
  .next (s.command (.readJobs c) c (.roles [.supply, .rack, .service]) .always (fun s => (s, readAnswer s.jobBodies)))

/-- READ_DRILL_REPORT (R167). -/
def execReadDrillReport (c : Cmd) (s : State) : Host.Outcome State Fault Refusal :=
  .next (s.command (.readDrillReport c) c (.roles [.rack, .service]) .always
    (fun s => (s, readAnswer [.drillReport s.iso.report])))

/-- READ_REQUESTERS: 32 entries, 16 to a record, each with the level of the commissioning line at its
end (R171; the model's reading, log 30). -/
def State.requesterBodies (s : State) : List ReplyBody :=
  (chunks 16 2 s.link.requesters).zipIdx.map (fun (l, k) => .requesters (16 * k) l s.commissioning.debounced)

/-- READ_REQUESTERS (R171). -/
def execReadRequesters (c : Cmd) (s : State) : Host.Outcome State Fault Refusal :=
  .next (s.command (.readRequesters c) c (.roles [.rack]) .always (fun s => (s, readAnswer s.requesterBodies)))

end Sys2Proof.Machine
end

