-- ==== Sys2Proof/Machine/ServiceCommands.lean ====
section
/-! DEFINITION. The commands of the group Branch maintenance and valve service: ENTER_MAINTENANCE, LEAVE_MAINTENANCE, TRIM_ONCE, SERVICE_MOVE, CURVE_VERIFY, BUS_CLEAR (R13, R14, R82, R87, R88, R105). -/

namespace Sys2Proof.Machine

/-! ### Maintenance (R13, R14) -/

/-- ENTER_MAINTENANCE after the checks of the link (R13). -/
def enterMaintenanceBlock (p : Position) : Block := fun s =>
  if 23 < p then s.refuses .range .empty
  else if (s.br p).state ≠ .active then s.refuses .branchState .empty
  else
    let s := (s.modBr p (fun b => { b with state := .maintenance })).clearArbiterFields p
    (((s.shutBranch p).setMaint p true).pass [p] [], answer .done .empty)

/-- ENTER_MAINTENANCE (R13). -/
def execEnterMaintenance (c : Cmd) (position : Nat) (s : State) : Host.Outcome State Fault Refusal :=
  .next (s.command (.enterMaintenance c position) c (.roles [.rack]) .wanted (enterMaintenanceBlock position))

/-- A service move or a curve verify is in flight on a branch (R14). -/
def State.inService (s : State) (p : Position) : Bool := s.serviceBranch = some p || s.verifyOn p

/-- A branch leaves MAINTENANCE for ACTIVE or VACANT by its occupancy (R14). -/
def State.leaveMaintenance (s : State) (p : Position) : State :=
  let s := ((s.clearDraw p).setMaint p false).endClosing p
  if (s.policyOf p).occupied then
    let s := s.modBr p (fun b => { b with state := .active, request := b.limits.entryRequest })
    ((s.takeStamp p).followCurve p).returnRule p
  else (s.modBr p (fun b => { b with state := .vacant })).shutBranch p

/-- LEAVE_MAINTENANCE after the checks of the link (R14). -/
def leaveMaintenanceBlock (p : Position) : Block := fun s =>
  if 23 < p then s.refuses .range .empty
  else if (s.br p).state ≠ .maintenance then s.refuses .branchState .empty
  else if s.inService p then s.refuses .busy .empty
  else ((s.leaveMaintenance p).pass [] [], answer .done .empty)

/-- LEAVE_MAINTENANCE (R14). -/
def execLeaveMaintenance (c : Cmd) (position : Nat) (s : State) : Host.Outcome State Fault Refusal :=
  .next (s.command (.leaveMaintenance c position) c (.roles [.rack]) .wanted (leaveMaintenanceBlock position))

/-! ### TRIM_ONCE (R105) -/

/-- A trim starts on a branch (R105). -/
def State.startTrim (s : State) (p : Position) (c : Cmd) : State :=
  let s := (s.recordLong (.trim p) c).modBr p (fun b => { b with trim := some ⟨c.src, c.tag, 0⟩ })
  s.unsettle p .trim

/-- TRIM_ONCE after the checks of the link (R105). -/
def trimOnceBlock (c : Cmd) (p : Position) : Block := fun s =>
  if 23 < p then s.refuses .range .empty
  else if (s.br p).state ≠ .active || (s.br p).limits.mode ≠ .fixed then s.refuses .branchState .empty
  else if (s.br p).trim.isSome || s.longInFlight (.trim p) then s.refuses .busy .empty
  else (s.startTrim p c, answer .pending .empty)

/-- TRIM_ONCE (R105). -/
def execTrimOnce (c : Cmd) (position : Nat) (s : State) : Host.Outcome State Fault Refusal :=
  .next (s.command (.trimOnce c position) c (.roles [.rack]) .always (trimOnceBlock c position))

/-! ### Draws (R85) -/

/-- A branch's ceiling does not fit the available flow (R87, R88). -/
def State.noBudget (s : State) (p : Position) : Bool := (s.br p).draw = 0 && s.available < (s.br p).limits.ceiling

/-- A draw is set to the ceiling, with its pass, unless it is set already (R85). -/
def State.setDraw (s : State) (p : Position) : State :=
  if (s.br p).draw = 0 then (s.modBr p (fun b => { b with draw := b.limits.ceiling })).pass [] [] else s

/-! ### SERVICE_MOVE (R87) -/

/-- The move opens a supply valve above 20 (R85). -/
def opensSupply (a q : Nat) : Bool := a < 24 && 20 < q

/-- An accepted service move: the draw, the end of a closing sequence on the branch, and the SVC claim (R87, R91). -/
def State.startService (s : State) (c : Cmd) (p : Position) (a q : Nat) : State :=
  let s := (s.recordLong .service c).endClosing p
  let s := if opensSupply a q then s.setDraw p else s
  State.placeSvc { s with bus.service := some ⟨a, q⟩ } a q .service

/-- SERVICE_MOVE after the checks of the link (R87). -/
def serviceMoveBlock (c : Cmd) (a q : Nat) : Block := fun s =>
  if 49 < a || 1000 < q then s.refuses .range .empty
  else if (s.act a).reservedBy ≠ 0 then s.refuses .refusedReserved .empty
  else match branchOf a with
    | none => s.refuses .branchState .empty
    | some p =>
      if (s.br p).state ≠ .maintenance then s.refuses .branchState .empty
      else if s.bus.service.isSome || s.longInFlight .service || s.verifyOn p then s.refuses .busy .empty
      else if opensSupply a q && s.noBudget p then s.refuses .noBudget .empty
      else (s.startService c p a q, answer .pending .empty)

/-- SERVICE_MOVE (R87). -/
def execServiceMove (c : Cmd) (actuator position : Nat) (s : State) : Host.Outcome State Fault Refusal :=
  .next (s.command (.serviceMove c actuator position) c (.roles [.service, .rack]) .always
    (serviceMoveBlock c actuator position))

/-! ### CURVE_VERIFY (R88) -/

/-- A closing move of an ended verify waits or is in progress (R88). -/
def State.closingOpen (s : State) : Bool :=
  s.bus.closing.isSome || s.bus.svcQ.any (fun x => x.client = .verifyClosing) ||
  s.bus.actuators.any (fun x => match x.move with
    | none => false
    | some m => m.client = .verifyClosing)

/-- The verify record at the start of a verify (R88). -/
def State.newVerify (s : State) (p : Position) : Verify :=
  let l := (s.br p).limits
  { branch := some p, status := .running, ceiling := l.ceiling, p0 := l.p0, pfull := l.pfull
    tolerance := s.pol.active.timing.settleTolerance, entries := [], frozen := none, step := .openReturn }

/-- An accepted curve verify: record, draw with its pass, and the claim that opens the return valve (R88). -/
def State.startVerify (s : State) (c : Cmd) (p : Position) : State :=
  let s := s.recordLong .verify c
  let s := State.setDraw { s with bus.verify := s.newVerify p } p
  s.placeSvc (returnOf p) 1000 .verify

/-- CURVE_VERIFY after the checks of the link (R88). -/
def curveVerifyBlock (c : Cmd) (p : Position) : Block := fun s =>
  if 23 < p then s.refuses .range .empty
  else if (s.act (supplyOf p)).reservedBy ≠ 0 || (s.act (returnOf p)).reservedBy ≠ 0 then s.refuses .refusedReserved .empty
  else if (s.br p).state ≠ .maintenance then s.refuses .branchState .empty
  else if s.bus.verify.status = .running || s.longInFlight .verify || s.closingOpen then s.refuses .busy .empty
  else if s.serviceBranch = some p then s.refuses .busy .empty
  else if s.noBudget p then s.refuses .noBudget .empty
  else (s.startVerify c p, answer .pending .empty)

/-- CURVE_VERIFY (R88). -/
def execCurveVerify (c : Cmd) (position : Nat) (s : State) : Host.Outcome State Fault Refusal :=
  .next (s.command (.curveVerify c position) c (.roles [.service, .rack]) .always (curveVerifyBlock c position))

/-! ### BUS_CLEAR (R82) -/

/-- BUS_CLEAR after the checks of the link (R82). -/
def busClearBlock : Block := fun s =>
  if s.bus.clearing.isSome then s.refuses .busy .empty
  else (s.busClear, answer .done (.clearCount s.clearList.length))

/-- BUS_CLEAR (R82). -/
def execBusClear (c : Cmd) (s : State) : Host.Outcome State Fault Refusal :=
  .next (s.command (.busClear c) c (.roles [.service, .rack]) .wanted busClearBlock)

end Sys2Proof.Machine
end

