-- ==== Sys2Proof/Machine/Dispatch.lean ====
section
/-! DEFINITION. The meaning of every command and event: one arm per constructor of Instr. -/

namespace Sys2Proof.Machine

/-- What a command or an event does to the part. -/
def exec (i : Instr) (s : State) : Host.Outcome State Fault Refusal :=
  match i with
  | .flowRequest c flow urgent => Sys2Proof.Machine.execFlowRequest c flow urgent s
  | .flowRelease c => Sys2Proof.Machine.execFlowRelease c s
  | .cutAck c => Sys2Proof.Machine.execCutAck c s
  | .declareSupply c supply => Sys2Proof.Machine.execDeclareSupply c supply s
  | .stageBranch c position group => Sys2Proof.Machine.execStageBranch c position group s
  | .stageZone c zone extent => Sys2Proof.Machine.execStageZone c zone extent s
  | .stageChannelClass c cls threshold confirm => Sys2Proof.Machine.execStageChannelClass c cls threshold confirm s
  | .stageTiming c group => Sys2Proof.Machine.execStageTiming c group s
  | .stageSupply c group => Sys2Proof.Machine.execStageSupply c group s
  | .applyPolicy c => Sys2Proof.Machine.execApplyPolicy c s
  | .discardStaged c => Sys2Proof.Machine.execDiscardStaged c s
  | .savePolicy c => Sys2Proof.Machine.execSavePolicy c s
  | .enterMaintenance c position => Sys2Proof.Machine.execEnterMaintenance c position s
  | .leaveMaintenance c position => Sys2Proof.Machine.execLeaveMaintenance c position s
  | .trimOnce c position => Sys2Proof.Machine.execTrimOnce c position s
  | .serviceMove c actuator position => Sys2Proof.Machine.execServiceMove c actuator position s
  | .curveVerify c position => Sys2Proof.Machine.execCurveVerify c position s
  | .busClear c => Sys2Proof.Machine.execBusClear c s
  | .maskChannel c channel => Sys2Proof.Machine.execMaskChannel c channel s
  | .unmaskChannel c channel => Sys2Proof.Machine.execUnmaskChannel c channel s
  | .startDrill c channel windows => Sys2Proof.Machine.execStartDrill c channel windows s
  | .cancelDrill c => Sys2Proof.Machine.execCancelDrill c s
  | .warnAck c => Sys2Proof.Machine.execWarnAck c s
  | .releaseIsolation c position => Sys2Proof.Machine.execReleaseIsolation c position s
  | .releaseTrunk c => Sys2Proof.Machine.execReleaseTrunk c s
  | .identify c => Sys2Proof.Machine.execIdentify c s
  | .bindRequester c addr role branch mask => Sys2Proof.Machine.execBindRequester c addr role branch mask s
  | .unbindRequester c entry => Sys2Proof.Machine.execUnbindRequester c entry s
  | .setNotices c mask => Sys2Proof.Machine.execSetNotices c mask s
  | .setTelemetry c mode count => Sys2Proof.Machine.execSetTelemetry c mode count s
  | .restart c => Sys2Proof.Machine.execRestart c s
  | .readBranches c => Sys2Proof.Machine.execReadBranches c s
  | .readSupply c => Sys2Proof.Machine.execReadSupply c s
  | .readPending c => Sys2Proof.Machine.execReadPending c s
  | .readPolicy c copy => Sys2Proof.Machine.execReadPolicy c copy s
  | .readActuators c => Sys2Proof.Machine.execReadActuators c s
  | .readVerify c => Sys2Proof.Machine.execReadVerify c s
  | .readChannels c => Sys2Proof.Machine.execReadChannels c s
  | .readCases c => Sys2Proof.Machine.execReadCases c s
  | .readJobs c => Sys2Proof.Machine.execReadJobs c s
  | .readDrillReport c => Sys2Proof.Machine.execReadDrillReport c s
  | .readRequesters c => Sys2Proof.Machine.execReadRequesters c s
  | .frameArrival t frame => Sys2Proof.Machine.execFrameArrival t frame s
  | .frameSent t => Sys2Proof.Machine.execFrameSent t s
  | .portLinkChange t up => Sys2Proof.Machine.execPortLinkChange t up s
  | .supplyAgeingExpiry => Sys2Proof.Machine.execSupplyAgeingExpiry s
  | .cutDeadlineExpiry position => Sys2Proof.Machine.execCutDeadlineExpiry position s
  | .measurementWindowExpiry => Sys2Proof.Machine.execMeasurementWindowExpiry s
  | .meterPulse t meter => Sys2Proof.Machine.execMeterPulse t meter s
  | .senseSampleEvent samples => Sys2Proof.Machine.execSenseSampleEvent samples s
  | .senseWindowEnd samples => Sys2Proof.Machine.execSenseWindowEnd samples s
  | .caseDeadlineExpiry entry => Sys2Proof.Machine.execCaseDeadlineExpiry entry s
  | .jobPhaseDeadlineExpiry job => Sys2Proof.Machine.execJobPhaseDeadlineExpiry job s
  | .uncontainedRetryExpiry job => Sys2Proof.Machine.execUncontainedRetryExpiry job s
  | .drainDeadlineExpiry job => Sys2Proof.Machine.execDrainDeadlineExpiry job s
  | .simulateDeadlineExpiry job => Sys2Proof.Machine.execSimulateDeadlineExpiry job s
  | .lineLevelChange t line level => Sys2Proof.Machine.execLineLevelChange t line level s
  | .lineDebounceExpiry line => Sys2Proof.Machine.execLineDebounceExpiry line s
  | .valveReply t reply => Sys2Proof.Machine.execValveReply t reply s
  | .valveReplyTimeout => Sys2Proof.Machine.execValveReplyTimeout s
  | .startTimerExpiry actuator => Sys2Proof.Machine.execStartTimerExpiry actuator s
  | .moveTimerExpiry actuator => Sys2Proof.Machine.execMoveTimerExpiry actuator s
  | .trackingPollDue actuator => Sys2Proof.Machine.execTrackingPollDue actuator s
  | .idlePollDue actuator => Sys2Proof.Machine.execIdlePollDue actuator s
  | .holdWriteEnd t ok => Sys2Proof.Machine.execHoldWriteEnd t ok s
  | .saveWriteEnd t ok => Sys2Proof.Machine.execSaveWriteEnd t ok s
  | .powerOn t => Sys2Proof.Machine.execPowerOn t s
  | .restartReset t imageWritten => Sys2Proof.Machine.execRestartReset t imageWritten s
  | .stopSent t => Sys2Proof.Machine.execStopSent t s
  | .powerLoss t imageWritten => Sys2Proof.Machine.execPowerLoss t imageWritten s

end Sys2Proof.Machine
end

