-- ==== Sys2Proof/Machine/Step.lean ====
section
/-! DEFINITION. One step of the part: the front of the queue is taken, or the link takes the head of its inbound queue, or the part idles. -/

namespace Sys2Proof.Machine

/-- The command the link may take from the head of its inbound queue (R174). -/
def State.headReady (s : State) : Option Instr := match s.link.inbound with
  | [] => none
  | i :: _ => if s.powered && s.linkReady && i.cmd?.isSome then some i else none

/-- One step: the command or event at the front of `pending` with the queue's rest; on an empty queue the link takes the
head of its inbound queue if it may, and the part idles otherwise. -/
def step (s : State) : Host.Outcome State Fault Refusal := match s.pending with
  | i :: rest => exec i { s with pending := rest }
  | [] => match s.headReady with
    | some i => exec i s
    | none => .next s

/-- The state with the command a table word spells at the front of its queue; no word spells one. -/
def State.withFetchWord (s : State) (nbits w : Nat) : State := match Sys2Proof.decodeTableWord nbits w with
  | some i => { s with pending := i :: s.pending }
  | none => s

end Sys2Proof.Machine
end

