-- ==== Sys2Proof/Safety.lean ====
section
/-! DEFINITION. What the statements about the part are made of: who may issue a command and when it is answered, when a command is taken, the invariants of the part, and the parts of a state that an event leaves alone. -/

namespace Sys2Proof

/-- Who may issue a command (command tables of the Introduction); an event of the part is issued by nobody. -/
def Instr.permitted : Instr → Option Machine.Permitted
  | .flowRequest .. | .flowRelease .. | .cutAck .. | .warnAck .. => some .boundServer
  | .declareSupply .. => some (.roles [.supply])
  | .stageBranch .. | .stageZone .. | .stageChannelClass .. | .stageTiming .. | .stageSupply .. | .applyPolicy ..
  | .discardStaged .. | .savePolicy .. | .enterMaintenance .. | .leaveMaintenance .. | .trimOnce .. | .maskChannel ..
  | .unmaskChannel .. | .startDrill .. | .cancelDrill .. | .releaseIsolation .. | .releaseTrunk ..
  | .unbindRequester .. | .restart .. | .readRequesters .. => some (.roles [.rack])
  | .serviceMove .. | .curveVerify .. | .busClear .. => some (.roles [.service, .rack])
  | .identify .. => some .anyStation
  | .bindRequester .. => some .commissioning
  | .setNotices .. | .setTelemetry .. => some .anyRegistered
  | .readBranches .. | .readSupply .. | .readPending .. | .readJobs .. => some (.roles [.supply, .rack, .service])
  | .readPolicy .. | .readActuators .. | .readVerify .. | .readChannels .. | .readCases .. | .readDrillReport .. =>
    some (.roles [.rack, .service])
  | .frameArrival .. | .frameSent .. | .portLinkChange .. | .supplyAgeingExpiry | .cutDeadlineExpiry ..
  | .measurementWindowExpiry | .meterPulse .. | .senseSampleEvent .. | .senseWindowEnd .. | .caseDeadlineExpiry ..
  | .jobPhaseDeadlineExpiry .. | .uncontainedRetryExpiry .. | .drainDeadlineExpiry .. | .simulateDeadlineExpiry ..
  | .lineLevelChange .. | .lineDebounceExpiry .. | .valveReply .. | .valveReplyTimeout | .startTimerExpiry ..
  | .moveTimerExpiry .. | .trackingPollDue .. | .idlePollDue .. | .holdWriteEnd .. | .saveWriteEnd .. | .powerOn ..
  | .restartReset .. | .stopSent .. | .powerLoss .. => none

/-- When a command is answered: a read, a long command and IDENTIFY always, any other when it asks for it (R176). -/
def Instr.answering : Instr → Machine.Answering
  | .savePolicy .. | .trimOnce .. | .serviceMove .. | .curveVerify .. | .identify .. | .readBranches .. | .readSupply ..
  | .readPending .. | .readPolicy .. | .readActuators .. | .readVerify .. | .readChannels .. | .readCases ..
  | .readJobs .. | .readDrillReport .. | .readRequesters .. => .always
  | _ => .wanted

end Sys2Proof

namespace Sys2Proof.Machine

/-! ### When a command is taken (R174) -/

/-- A command that reaches the link is taken at once: the part has power, the link may take the head of its queue, and
the command stands at that head, or it arrives while the port has its link and comes to stand there (R169, R174). -/
def State.takes (s : State) (i : Instr) : Prop :=
  s.powered = true ∧ s.linkReady = true ∧
  (s.link.inbound.head? = some i ∨
   (s.link.up = true ∧ s.link.inbound.length < Config.inboundSize ∧
    (enqueueCommand i s.link.inbound).head? = some i))

/-- The state in which the block of a taken command works: the time has come, and the command has left the queue. -/
def State.taking (s : State) (i : Instr) (c : Cmd) : State :=
  { s.advance c.time with
    link.inbound := if s.link.inbound.head? = some i then s.link.inbound.tail else s.link.inbound }

/-- A command that has passed the checks of the link is taken (R174, R175). -/
def State.admits (s : State) (i : Instr) (c : Cmd) : Prop :=
  s.takes i ∧ i.permitted.all (fun p => (s.linkCheck p c).isNone) = true

/-- A state that a command leaves, answered, at the end of its event (R176). -/
def State.concluded (t : State) (i : Instr) (c : Cmd) (a : Answer) : State := (t.reply i.answering c i.code a).finish

/-- A state that a command leaves, answered, when it has left the valve bus alone, made no notice and asked for no pass:
the transmitter alone acts at the end of its event (R176, R183). -/
def State.replied (t : State) (i : Instr) (c : Cmd) (a : Answer) : State := (t.reply i.answering c i.code a).transmit

/-- A command is refused: the answer, and nothing else. -/
def State.refused (s : State) (i : Instr) (c : Cmd) (r : Reason) (b : ReplyBody) : State :=
  (s.taking i c).replied i c (refuse r b)

/-! ### Ranges (R50) -/

/-- The n-th field of a group, counted from 1, is the first that is out of its range (R50, step 5). -/
abbrev FirstOutOfRange (inRange : List Bool) (n : Nat) : Prop :=
  1 ≤ n ∧ inRange[n - 1]? = some false ∧ ∀ k, k < n - 1 → inRange[k]? = some true

/-! ### Invariants -/

/-- The tables of the part have the sizes of the manual, those a stored image brings back included. -/
structure State.Sized (s : State) : Prop where
  branches : s.branches.length = 24
  actuators : s.bus.actuators.length = 50
  channels : s.sense.channels.length = 34
  cases : s.cases.length = 9
  slots : s.iso.slots.length = 9
  requesters : s.link.requesters.length = 32
  imageA : ∀ i, s.store.imageA = some i → i.requesters.length = 32
  imageB : ∀ i, s.store.imageB = some i → i.requesters.length = 32
  saving : ∀ x, s.store.saving = some x → x.2.requesters.length = 32

/-- The line is busy, or nothing waits for it (R71). -/
def Bus.Granted (b : Bus) : Prop :=
  b.line ≠ .free ∨
  (b.clearing = none ∧ b.trackDue = [] ∧ b.isoQ = [] ∧ b.flowQ = [] ∧ b.svcQ = [] ∧ b.pollQ = [])

/-- Between events: no report of the bus is left undelivered, a free line means that nothing waits for it, and no notice
or pass of an event is still due (R31, R43, R71, R72). -/
structure State.AtRest (s : State) : Prop where
  reports : s.bus.reports = []
  granted : s.bus.Granted
  work : s.work = Work.idle

/-- The queues and the counter keep their bounds, and the inbound queue holds commands (R94, R174, R181). -/
structure State.Bounded (s : State) : Prop where
  inbound : s.link.inbound.length ≤ Config.inboundSize
  commands : ∀ i ∈ s.link.inbound, i.cmd?.isSome = true
  outbound : s.link.outbound.length ≤ Config.outboundSize
  counter : s.window.counter ≤ 255

/-- Floor and ceiling of a branch group are in order (R56). -/
def Limits.Fit (l : Limits) : Prop := l.floor ≤ l.ceiling

/-- METER_FAULT stands while a meter is marked, and a branch under it shows no imbalance (R108, R109). -/
def Branch.MetersAgree (b : Branch) : Prop :=
  b.meterFault = b.meterMarked ∧
  (b.meterFault = true → b.imbalance = false ∧ b.imbalanceRun = 0 ∧ b.clearRun = 0)

/-- The effective ceiling of a branch is its ceiling or its floor, the floor fits under both, and METER_FAULT agrees with
the meter marks (R9, R56, R108). -/
def Branch.Fit (b : Branch) : Prop :=
  b.limits.Fit ∧ (b.effCeiling = b.limits.ceiling ∨ b.effCeiling = b.limits.floor) ∧ b.MetersAgree

/-- Every branch group of a policy has its floor and ceiling in order (R56). -/
def Policy.Fit (p : Policy) : Prop := ∀ n, n < 24 → (p.branches.getD n BranchPolicy.factory).limits.Fit

/-- Branches, active policy and stored images have their floors and ceilings in order, and METER_FAULT agrees with the
meter marks (R56, R108). -/
structure State.Fit (s : State) : Prop where
  branches : ∀ b ∈ s.branches, b.Fit
  active : s.pol.active.Fit
  imageA : ∀ i, s.store.imageA = some i → i.policy.Fit
  imageB : ∀ i, s.store.imageB = some i → i.policy.Fit
  saving : ∀ x, s.store.saving = some x → x.2.policy.Fit

/-- No two jobs share an id, and a real job in HOLD holds no quarantine (R142, R160). -/
structure State.JobsInOrder (s : State) : Prop where
  ids : (s.jobs.map (fun j => j.id)).Nodup
  released : ∀ j ∈ s.jobs, j.drill = false → j.beforeHold = false → j.quarantine = 0

/-- What every step keeps: the sizes and bounds of the tables, the order of floors and ceilings, the order of the jobs, and
the rest of the part between events. -/
structure State.Orderly (s : State) : Prop where
  sized : s.Sized
  bounded : s.Bounded
  fit : s.Fit
  jobs : s.JobsInOrder
  atRest : s.AtRest

/-! ### Start-up (R18, R47, R113, R189) -/

/-- The policy a store brings up (R189). -/
def Store.policy (k : Store) : Policy := match k.image with
  | none => Policy.factory
  | some i => i.policy

/-- The first state of a position by a store: latched, in maintenance, occupied or none (R18). -/
def Store.firstState (k : Store) (p : Position) : BranchState :=
  let h := k.hold.getD HoldRecord.empty
  if h.latched.getD p false then .isolated else if h.maint.getD p false then .maintenance
  else if (k.policy.branches.getD p BranchPolicy.factory).occupied then .held else .vacant

/-- The hold record a store brings up, an empty one where no slot is valid (R189). -/
def Store.record (k : Store) : HoldRecord := k.hold.getD HoldRecord.empty

/-- A store latches a position (R188). -/
def Store.latches (k : Store) (p : Position) : Bool := k.record.latched.getD p false

/-- The requester table a store brings up: the entries of the image, with telemetry OFF and notice number 0 (R171, R189). -/
def Store.requesters (k : Store) : List (Option Requester) := match k.image with
  | none => List.replicate 32 none
  | some i => i.requesters.map (Option.map (fun r =>
      { addr := r.addr, role := r.role, branch := r.branch, mask := r.mask, telemetry := .off, number := 0 }))

/-- The channel mask set a store brings up (R49, R189). -/
def Store.maskSet (k : Store) : List ChannelNo := match k.image with
  | none => []
  | some i => i.maskSet

/-- The restored job reserves an actuator: one of a latched branch, or of the latched trunk (R190). -/
def Store.reserves (k : Store) (a : ActuatorNo) : Bool := if a < 48 then k.latches (a % 24) else k.record.trunk

/-- The restored job of a store that latches something (R190). -/
def Store.restoredJob (k : Store) (now : Time) : Job :=
  { id := 1, level := if k.record.trunk then .rack else .branch, origin := .restored, drill := false
    targets := (Config.positions.filter k.latches).map (fun p =>
      { pos := p, warning := .none, supply := .ok, ret := .ok, confirm := .none })
    trunk := if k.record.trunk then some { supply := .ok, ret := .ok } else none, phase := .hold, deadline := none
    drainDelay := none, quarantine := 0, evidence := [], createdAt := now, armed := false }

/-- A store latches a branch or the trunk, so that a job is restored (R190). -/
def Store.restores (k : Store) : Bool := k.record.trunk || !(Config.positions.filter k.latches).isEmpty

/-- What a start-up from a store makes of a state, before the survey: every block at its reset values, the policy, the mask
set and the requesters of the image, the hold record with its restored job, the branches in their first states, and the
survey under way, its first poll on the line (R18, R20, R47, R67, R79, R93, R113, R142, R171, R189, R190). -/
structure State.StartedUp (s : State) (k : Store) (u : State) : Prop where
  power : u.powered = true ∧ u.now = s.now ∧ u.pending = s.pending ∧ u.stationAddr = s.stationAddr
  lines : u.hall = { level := s.hall.level, debounced := s.hall.level, deadline := none } ∧
    u.commissioning = { level := s.commissioning.level, debounced := s.commissioning.level, deadline := none }
  arbiter : u.arb.supply = { state := .undeclared, declared := 0, lastAt := none, deadline := none } ∧ u.arb.nextStamp = 1 ∧ u.arb.standing = [] ∧ u.arb.queue = [] ∧
    u.arb.shortfall = false ∧ u.arb.lastTargets = 0
  policy : u.pol.active = k.policy ∧ u.pol.staged = k.policy ∧ u.pol.dirty = false ∧ u.pol.maskSet = k.maskSet ∧
    u.pol.derived = k.policy.derive (k.policy.supply.assumed - k.policy.supply.reserve)
  applied : u.pol.applied.result = .none ∧ u.pol.applied.code = none ∧ u.pol.applied.index = none ∧
    u.pol.applied.warnings = []
  size : u.branches.length = 24
  branches : ∀ p, p < 24 → (u.br p).state = k.firstState p ∧ (u.br p).request = 0 ∧ (u.br p).stamp = none ∧
    (u.br p).grant = 0 ∧ (u.br p).drive = 0 ∧ (u.br p).cut = none ∧ (u.br p).riseWaiting = false ∧
    (u.br p).overdue = 0 ∧ (u.br p).draw = 0 ∧ (u.br p).trim = none ∧ (u.br p).settled = false
  governed : ∀ p l, p < 24 → l = (k.policy.branches.getD p BranchPolicy.factory).limits →
    (u.br p).limits = l ∧ (u.br p).urgent = false ∧ (u.br p).trimOffset = 0 ∧
    (u.br p).zone = zoneOf k.policy.zones p ∧ (u.br p).boundTo = boundIn k.requesters p ∧
    (u.br p).guardLevel = u.guardOf p ∧
    (u.br p).effCeiling =
      (if (u.br p).guardLevel = .unguarded ∧ k.policy.supply.unguardedCap = true then l.floor else l.ceiling)
  isolation : ∀ p, p < 24 → (u.br p).latched = k.latches p ∧ (u.br p).maint = k.record.maint.getD p false ∧
    (u.br p).job = (if k.latches p then 1 else 0)
  measured : ∀ p, p < 24 → (u.br p).measuredSupply = 0 ∧ (u.br p).measuredReturn = 0 ∧ (u.br p).settleRun = 0 ∧
    (u.br p).driveChanged = false ∧ (u.br p).controlTarget = none ∧ (u.br p).valveFault = false ∧
    (u.br p).meterFault = false ∧ (u.br p).returnOpen = false ∧ (u.br p).supplyMeter = Meter.reset ∧
    (u.br p).returnMeter = Meter.reset ∧ (u.br p).imbalance = false ∧ (u.br p).imbalanceRun = 0 ∧ (u.br p).clearRun = 0
  actuators : u.bus.actuators.length = 50 ∧ ∀ a, a < 50 → u.act a = { Actuator.reset with
    reservedBy := if k.reserves a then 1 else 0, lastTx := if a = 0 then some s.now else none }
  claims : u.bus.isoQ = [] ∧ u.bus.flowQ = [] ∧ u.bus.svcQ = [] ∧ u.bus.trackDue = [] ∧
    u.bus.pollQ = (List.range 50).tail.map (fun a => { actuator := a, survey := true, madeAt := s.now })
  line : u.bus.line = .busy { actuator := 0, request := .survey, attempt := 1, sentAt := s.now } ∧
    u.bus.clearing = none ∧ u.bus.service = none ∧ u.bus.closing = none ∧ u.bus.reports = []
  verify : u.bus.verify.status = .none ∧ u.bus.verify.branch = none ∧ u.bus.verify.entries = []
  window : u.window.counter = 0 ∧ u.window.deadline = s.now + u.window.length ∧
    u.window.length = k.policy.timing.measurementWindow
  sense : u.sense.index = 0 ∧ u.sense.inWindow = true ∧ u.sense.nextAt = s.now + 100 ∧ u.sense.lastEnd = s.now
  channels : u.sense.channels.length = 34 ∧ ∀ c, c < 34 → u.chan c = { Channel.reset with
    state := if k.maskSet.contains c then .masked else .dry }
  cases : u.cases = List.replicate 9 none
  jobs : u.iso.slots = (if k.restores
      then (List.replicate 9 none).set (if k.record.trunk then 8 else 0) (some (k.restoredJob s.now))
      else List.replicate 9 none) ∧
    u.iso.lastId = (if k.restores then 1 else 0)
  drill : u.iso.report.status = .none ∧ u.iso.report.entries = []
  link : u.link.up = s.link.up ∧ u.link.inbound = [] ∧ u.link.outbound = [] ∧ u.link.replies = [] ∧
    u.link.sending = none ∧ u.link.longs = [] ∧ u.link.restarting = false
  requesters : u.link.requesters = k.requesters
  store : u.store = { k with saving := none, holding := none, furtherDue := false, trunkLatch := k.record.trunk }
  loaded : u.boot.stored = k.image.isSome ∧ u.boot.imageSequence = k.image.map (fun i => i.sequence) ∧
    u.boot.holdValid = k.hold.isSome ∧ u.boot.holdSequence = k.hold.map (fun h => h.sequence)
  work : u.work = Work.idle
  survey : u.boot.survey = some (List.range 50)

/-! ### The budget (R22, R33, R41) -/

/-- The first law: grants and draws fit what the quarantine leaves of the budget (R32). -/
def State.GrantsFit (s : State) : Prop := s.grantSum + s.draws ≤ s.budget - s.quarantined

/-! ### Coarse onsets (R133, R134) -/

/-- What a rope or base onset that finds its entry empty makes of a state: the BRANCH request of the opening check for the
candidates with active evidence, or an open case, which a localization window of 0 expires at once (R133, R134, R139). -/
def State.CoarseOnset (s t : State) (k : Nat) (ps : List Position) (ch : ChannelNo) (drill : Bool) : Prop :=
  (∀ found, found = ps.filter (s.activeAt drill) → found ≠ [] →
    t = s.makeRequest .narrowed { kind := some (caseKind k), candidates := ps }
      { level := .branch, drill := drill, origin := .channel ch
        targets := found.filter (fun p => (s.br p).state ≠ .vacant)
        evidence := mergeEvidence [{ item := .channel ch, drill := drill }] (s.activeEvidenceOf drill found) }) ∧
  (∀ w c u, (∀ p, p ∈ ps → s.activeAt drill p = false) → w = s.pol.active.timing.localizationWindow →
    c = ({ candidates := ps, deadline := s.now + 1000 * w, openedBy := ch, drill := drill
           evidence := [{ item := .channel ch, drill := drill }] } : Case) →
    u = (s.setCase k (some c)).caseNotice .opened { kind := some (caseKind k), candidates := ps } drill c.evidence
      (some c.deadline) none →
    (w ≠ 0 → t = u ∧ t.caseAt k = some c) ∧
    (w = 0 → t = (u.setCase k none).makeRequest .expired { kind := some (caseKind k), candidates := ps }
      (u.expiryRequest k c)))

/-! ### What an event leaves alone -/

/-- A branch record without what a pass, a change of drive, a draw or a settling may write. -/
def Branch.still (b : Branch) : Branch :=
  { b with grant := 0, drive := 0, cut := none, riseWaiting := false, draw := 0, settled := false, settleRun := 0
           driveChanged := false, controlTarget := none }

/-- A shadow record without what the sending and the end of a move may write: presence, position, flags and reservation
remain. -/
def Actuator.still (x : Actuator) : Actuator :=
  { x with target := none, startRef := none, moving := false, fault := .none, owner := none, lastTx := none, move := none }

/-- A requester entry without its notice number. -/
def Requester.still (r : Requester) : Requester := { r with number := 0 }

/-- A state without what an allocation pass, the grant of the line and the making and sending of notices and replies may
write; of the work of an event, what follows its pass remains. Two states that agree in it have the same policy, requests,
branch states, valve positions, reservations, channels, cases, jobs, requesters, stored images and hold record. -/
def State.still (s : State) : State :=
  { s with
    branches := s.branches.map Branch.still
    arb := { s.arb with standing := [], queue := [], shortfall := false, lastTargets := 0 }
    bus := { Bus.reset with actuators := s.bus.actuators.map Actuator.still }
    link := { s.link with
      requesters := s.link.requesters.map (Option.map Requester.still), outbound := [], replies := [], sending := none
      longs := [] }
    work := { Work.idle with after := s.work.after } }

/-- A branch record without what the work of a job may write. -/
def Branch.freeze (b : Branch) : Branch :=
  { b with state := .vacant, request := 0, urgent := false, stamp := none, trim := none, valveFault := false
           returnOpen := false, job := 0, latched := false, maint := false }

/-- A state without what the work of a job may write; of the job table its size remains. -/
def State.freeze (s : State) : State :=
  { s with
    branches := s.branches.map Branch.freeze
    arb := { s.arb with nextStamp := 0 }
    bus := { s.bus with actuators := s.bus.actuators.map (fun x => { x with reservedBy := 0 }) }
    iso := { Sequencer.reset with slots := s.iso.slots.map (fun _ => none) }
    store := { s.store with holding := none, furtherDue := false, trunkLatch := false }
    work := Work.idle }

/-- A state without what a pass or the work of a job may write. Two states that agree in it have the same policy, limits,
guards, flows, valve positions, channels, cases, requesters and stored images. -/
def State.frozen (s : State) : State := s.still.freeze

end Sys2Proof.Machine
end

