-- ==== Sys2Proof/WellFormed.lean ====
section
/-! DEFINITION. Well-formed commands and events: every operand fits the field that carries it, and every event names a unit the part has. -/

namespace Sys2Proof

/-- A number fits a field of one byte. -/
def fitsByte (n : Nat) : Bool := n ≤ 255

/-- A number fits a field of two bytes. -/
def fitsWord (n : Nat) : Bool := n ≤ 65535

/-- The body of STAGE_BRANCH fits its fields; an entry request of FFFF would stand for none. -/
def BranchGroup.fits (g : BranchGroup) : Bool :=
  fitsByte g.cls && fitsWord g.floor && fitsWord g.ceiling && g.entryRequest.all (fun n => n < 65535) && fitsByte g.mode &&
  fitsWord g.p0 && fitsWord g.pfull && fitsWord g.kSupply && fitsWord g.kReturn

/-- The body of STAGE_TIMING fits its fields. -/
def Timing.fits (g : Timing) : Bool :=
  fitsWord g.cutDeadline && fitsWord g.warnDeadline && fitsByte g.drainDelay && fitsByte g.localizationWindow &&
  fitsWord g.measurementWindow && fitsByte g.settleTolerance && fitsByte g.settleCount && fitsByte g.dryWindows &&
  fitsByte g.imbalanceThreshold && fitsByte g.imbalanceWindows

/-- The body of STAGE_SUPPLY fits its fields. -/
def SupplyGroup.fits (g : SupplyGroup) : Bool :=
  fitsWord g.reserve && fitsWord g.assumed && fitsWord g.ageing && fitsByte g.unguardedCap && fitsByte g.hallPolarity

/-- A sample's wetness code lies in its range (section 6.1). -/
def Sample.fits (x : Sample) : Bool := x.code ≤ 1023

/-- A valve position lies in its range (R66). -/
def fitsPermille (n : Nat) : Bool := n ≤ 1000

/-- A command or an event is well formed. -/
def Instr.wellFormed : Instr → Bool
  | .flowRequest _ flow _ => fitsWord flow
  | .declareSupply _ supply => fitsWord supply
  | .stageBranch _ position g => fitsByte position && g.fits
  | .stageZone _ zone extent => fitsByte zone && extent.all (fun e => fitsByte e.1 && fitsByte e.2 && e ≠ (255, 255))
  | .stageChannelClass _ cls threshold confirm => fitsByte cls && fitsWord threshold && fitsByte confirm
  | .stageTiming _ g => g.fits
  | .stageSupply _ g => g.fits
  | .enterMaintenance _ p | .leaveMaintenance _ p | .trimOnce _ p | .curveVerify _ p | .releaseIsolation _ p => fitsByte p
  | .serviceMove _ actuator position => fitsByte actuator && fitsWord position
  | .maskChannel _ channel | .unmaskChannel _ channel => fitsByte channel
  | .startDrill _ channel windows => fitsByte channel && fitsByte windows
  | .bindRequester _ _ role branch mask =>
    fitsByte role && branch.all (fun p => p < 255) && mask.all (fun m => m ≠ 0xFFFF#16)
  | .unbindRequester _ entry => fitsByte entry
  | .setTelemetry _ mode count => fitsByte mode && fitsByte count
  | .readPolicy _ copy => fitsByte copy
  | .flowRelease _ | .cutAck _ | .applyPolicy _ | .discardStaged _ | .savePolicy _ | .busClear _ | .cancelDrill _
  | .warnAck _ | .releaseTrunk _ | .identify _ | .setNotices _ _ | .restart _ | .readBranches _ | .readSupply _
  | .readPending _ | .readActuators _ | .readVerify _ | .readChannels _ | .readCases _ | .readJobs _
  | .readDrillReport _ | .readRequesters _ => true
  | .frameArrival _ _ | .frameSent _ | .portLinkChange _ _ | .supplyAgeingExpiry | .measurementWindowExpiry
  | .lineLevelChange _ _ _ | .lineDebounceExpiry _ | .valveReplyTimeout | .holdWriteEnd _ _ | .saveWriteEnd _ _
  | .powerOn _ | .restartReset _ _ | .stopSent _ | .powerLoss _ _ => true
  | .cutDeadlineExpiry position => position ≤ 23
  | .meterPulse _ meter => meter ≤ 47
  | .senseSampleEvent samples | .senseWindowEnd samples => samples.length = 34 && samples.all Sample.fits
  | .caseDeadlineExpiry entry => entry ≤ 8
  | .jobPhaseDeadlineExpiry job | .uncontainedRetryExpiry job | .drainDeadlineExpiry job | .simulateDeadlineExpiry job =>
    1 ≤ job && job ≤ 255
  | .valveReply _ reply => fitsByte reply.actuator && fitsPermille reply.position
  | .startTimerExpiry a | .moveTimerExpiry a | .trackingPollDue a | .idlePollDue a => a ≤ 49

end Sys2Proof
end

