-- ==== Sys2Proof/Certificates/Slice0/Obligations.lean ====
section
/-! DEFINITION. The statements for the provers: the step, the port and the taking of commands, what each command and event does and leaves alone, the laws of the allocation pass, and the invariant that every step keeps. -/

open Sys2Proof Sys2Proof.Machine

/-! ### The step -/

/-- A step runs the front of the queue on the queue's rest. -/
def Obligations.StepTakesFront : Prop :=
  ∀ (s : State) (i : Instr) (rest : List Instr),
    s.pending = i :: rest → step s = exec i { s with pending := rest }

/-- With nothing pending the link takes the head of its inbound queue when it may, and the part idles otherwise: the
model's choice (log 36), after R174. -/
def Obligations.StepOnEmptyQueue : Prop :=
  ∀ s : State, s.pending = [] →
    (∀ i c l, s.powered = true → s.linkReady = true → s.link.inbound = i :: l → i.cmd? = some c → step s = exec i s) ∧
    (s.powered = false ∨ s.linkReady = false ∨ s.link.inbound = [] → step s = .next s)

/-- Every well-formed command or event has an outcome that is a next state, and an event that names a unit the part does
not have is a fault: the model's own stop (log 29). -/
def Obligations.StopsOnlyOnUnknownUnits : Prop :=
  (∀ (i : Instr) (s : State), i.wellFormed = true → ∃ t, exec i s = .next t) ∧
  (∀ s : State,
    (∀ p, 23 < p → exec (.cutDeadlineExpiry p) s = .fault .noSuchUnit) ∧
    (∀ t n, 47 < n → exec (.meterPulse t n) s = .fault .noSuchUnit) ∧
    (∀ l : List Sample, l.length ≠ 34 →
      exec (.senseSampleEvent l) s = .fault .noSuchUnit ∧ exec (.senseWindowEnd l) s = .fault .noSuchUnit) ∧
    (∀ e, 8 < e → exec (.caseDeadlineExpiry e) s = .fault .noSuchUnit) ∧
    (∀ a, 49 < a →
      exec (.startTimerExpiry a) s = .fault .noSuchUnit ∧ exec (.moveTimerExpiry a) s = .fault .noSuchUnit ∧
      exec (.trackingPollDue a) s = .fault .noSuchUnit ∧ exec (.idlePollDue a) s = .fault .noSuchUnit))

/-! ### Power and start-up -/

/-- Power-on of a part with an empty store leaves the reset state. The reset state is the model's choice where the spec
gives none: the blank store (log 3), the levels of pins and port and the station address (log 4), the fields of a drill
report not yet written (log 5), the first survey poll on the line at once (log 6), the start of the part as the last window end
(log 48), no time in the apply result record (log 58), the fields of a verify record not yet written (log 59), and no sequence
number where nothing was loaded (log 77). -/
def Obligations.PowerOnFromEmptyStore : Prop :=
  ∀ s : State, s.pending = [] → s.now = 0 → s.stationAddr = State.reset.stationAddr → s.hall.level = .high →
    s.commissioning.level = .high → s.link.up = true → s.store = Store.blank → exec (.powerOn 0) s = .next State.reset

/-- POWER_ON, and the reset of an accepted RESTART, bring every block to its values after reset and load the store, clause
by clause in `State.StartedUp`. When the reset of a RESTART is made, and that the event passes without effect otherwise, is
the model's reading (log 27), and so is that the first survey poll is on the line at once (log 6) and that the last window
end is the start (log 48); POWER_ON on a part that has power (log 21), the operand that says what a cut-short write of an
image leaves (log 22), and no sequence number where nothing was loaded (log 77) are its choice. -/
def Obligations.StartUpResets : Prop :=
  ∀ (s : State) (t : Time),
    (∃ u, exec (.powerOn t) s = .next u ∧ (s.advance t).StartedUp (s.store.cutShort false) u ∧ u.boot.cause = .powerOn) ∧
    (∀ w, s.powered = true → s.link.restarting = true → s.link.replyOpen = false → s.store.holding = none →
      s.store.furtherDue = false →
      ∃ u, exec (.restartReset t w) s = .next u ∧ (s.advance t).StartedUp (s.store.cutShort w) u ∧ u.boot.cause = .restart) ∧
    (∀ w, s.powered = true →
      (s.link.restarting = false ∨ s.link.replyOpen = true ∨ s.store.holding ≠ none ∨ s.store.furtherDue = true) →
      exec (.restartReset t w) s = .next (s.advance t))

/-- POWER_LOSS cuts the writes short, and without power nothing acts on the part but power and the levels of its pins and
port: the model's choice (log 21). What a write cut short leaves, with the operand that says so, is its reading (log
22). -/
def Obligations.PowerLossStopsThePart : Prop :=
  ∀ s : State,
    (∀ t w, s.powered = true →
      exec (.powerLoss t w) s = .next { s.advance t with powered := false, store := s.store.cutShort w }) ∧
    (∀ w, (s.store.cutShort w).saving = none ∧ (s.store.cutShort w).holding = none ∧
      (∀ i, s.store.saving = some (.a, i) → (s.store.cutShort w).imageA = if w then some i else none) ∧
      (∀ i, s.store.saving = some (.b, i) → (s.store.cutShort w).imageB = if w then some i else none) ∧
      (∀ r, s.store.holding = some (.a, r) → (s.store.cutShort w).holdA = none) ∧
      (∀ r, s.store.holding = some (.b, r) → (s.store.cutShort w).holdB = none)) ∧
    (∀ i : Instr, s.powered = false → i.wellFormed = true → (∀ t, i ≠ .powerOn t) →
      (∀ t x l, i ≠ .lineLevelChange t x l) → (∀ t v, i ≠ .portLinkChange t v) → exec i s = .next s)

/-! ### The port -/

/-- FRAME_ARRIVAL: what the link takes from a frame, refuses at arrival, or discards. The command a body spells and its
allowed lengths follow the body layout the model reads from the command tables (log 8). What a broadcast frame must hold to
count as an IDENTIFY command, so that any other with code 26 is discarded, is the model's reading (log 9). -/
def Obligations.FrameArrivalQueuesCommand : Prop :=
  ∀ (s : State) (t : Time) (f : RawFrame) (h : Header), h = headerOf f.payload → s.powered = true → s.link.up = true →
    (∀ x, recordWhole f.payload = true → s.addressed f = true → fromPart h = false → x = commandOf h.code (frameCmd t f h) (f.payload.drop 12) →
      (badFormat h = true →
        exec (.frameArrival t f) s =
          .next ((s.advance t).handReply (refusedAtArrival f.src h.code h.tag .format)).transmit) ∧
      (badFormat h = false → ∃ i, x = some i ∧ i.code = h.code ∧ i.cmd? = some (frameCmd t f h) ∧
        (s.link.inbound.length < 16 →
          exec (.frameArrival t f) s = .next (State.transmit { s.advance t with
            link.inbound :=
              if urgentCommand i then s.link.inbound.takeWhile urgentCommand ++ i :: s.link.inbound.dropWhile urgentCommand
              else s.link.inbound ++ [i] })) ∧
        (16 ≤ s.link.inbound.length →
          exec (.frameArrival t f) s =
            .next ((s.advance t).handReply (refusedAtArrival f.src h.code h.tag .queueFull)).transmit))) ∧
    (recordWhole f.payload = false ∨ s.addressed f = false ∨ fromPart h = true →
      exec (.frameArrival t f) s = .next (s.advance t))

/-- A new entry meets the outbound queue: a warning replaces in place the waiting warning of its kind for its branch, another
entry goes to the tail, at a full queue an assured entry displaces the newest that is not assured and any other is discarded;
the numbers of its recipients advance, and a notice with no recipient makes no entry. FRAME_SENT: the entry whose frame has
gone is served or removed, with the record of a long command whose COMPLETION it was, and the transmitter takes the next
frame. PORT_LINK_CHANGE: with the link the transmitter goes on; without it the
frame being sent waits again (the last by the model's choice, log 20). That a part without power records the change of its
port and does nothing else is the model's choice (log 21). -/
def Obligations.TransmitterServesQueue : Prop :=
  (∀ (s : State) (e : OutEntry) (is : List Nat) (q : List OutEntry) (P : Nat → Prop) (u : State), s.Sized →
    q = s.link.outbound → q.length ≤ 96 → u = s.enqueue e is →
    (∀ k, P k ↔ ∃ x, q[k]? = some x ∧ x.served = 0 ∧ (s.link.sending = some .notice → 0 < k) ∧
      e.notice.warned ≠ none ∧ x.notice.kind = e.notice.kind ∧ x.notice.warned = e.notice.warned) →
    (∀ k, P k → (∀ m, m < k → ¬ P m) → u.link.outbound = q.set k e) ∧
    ((∀ k, ¬ P k) →
      (q.length < 96 → u.link.outbound = q ++ [e]) ∧
      (∀ k x, q.length = 96 → e.notice.assured = true → q[k]? = some x → x.notice.assured = false →
        (s.link.sending = some .notice → 0 < k) → (∀ m y, k < m → q[m]? = some y → y.notice.assured = true) →
        u.link.outbound = q.eraseIdx k ++ [e]) ∧
      (q.length = 96 → e.notice.assured = false → u = s)) ∧
    (u ≠ s → is.Nodup → ∀ i, (i ∉ is → u.requester i = s.requester i) ∧
      (∀ r, i ∈ is → s.requester i = some r →
        u.requester i = some { r with number := if r.number = 65535 then 0 else r.number + 1 })) ∧
    u = { s with link := { s.link with outbound := u.link.outbound, requesters := u.link.requesters } }) ∧
  (∀ (s : State) (h : HeldNotice) (is : List Nat) (l : List (Addr × Nat)), h.whom = .entries is →
    s.overtaken h.notice = false →
    l = is.filterMap (fun i => (s.requester i).map (fun r => (r.addr, if r.number = 65535 then 0 else r.number + 1))) →
    s.hand h = (if l = [] then s
      else s.enqueue { notice := h.notice, tag := h.tag, recipients := l, served := 0 } is)) ∧
  (∀ (s : State) (t : Time), s.powered = true →
    (s.link.sending = none → exec (.frameSent t) s = .next (s.advance t)) ∧
    (∀ f, s.link.sending = some (.reply f) →
      exec (.frameSent t) s = .next (State.transmit { s.advance t with link.sending := none })) ∧
    (∀ e l, s.link.sending = some .notice → s.link.outbound = e :: l →
      (e.served + 1 < e.recipients.length →
        exec (.frameSent t) s = .next (State.transmit { s.advance t with
          link.sending := none, link.outbound := { e with served := e.served + 1 } :: l })) ∧
      (e.recipients.length ≤ e.served + 1 → (∀ k st b, e.notice ≠ .completion k st b) →
        exec (.frameSent t) s = .next (State.transmit { s.advance t with link.sending := none, link.outbound := l })) ∧
      (∀ k st b, e.recipients.length ≤ e.served + 1 → e.notice = .completion k st b →
        exec (.frameSent t) s = .next (State.transmit { s.advance t with
          link.sending := none, link.outbound := l
          link.longs := s.link.longs.filter (fun r => !(r.kind = k && r.completed)) })))) ∧
  (∀ (s : State) (t : Time),
    (s.powered = true → exec (.portLinkChange t true) s = .next (State.transmit { s.advance t with link.up := true })) ∧
    (∀ f, s.powered = true → s.link.sending = some (.reply f) →
      exec (.portLinkChange t false) s =
        .next { s.advance t with link.up := false, link.sending := none, link.replies := f :: s.link.replies }) ∧
    (s.powered = true → (∀ f, s.link.sending ≠ some (.reply f)) →
      exec (.portLinkChange t false) s = .next { s.advance t with link.up := false, link.sending := none }) ∧
    (∀ v, s.powered = false → exec (.portLinkChange t v) s = .next { s.advance t with link.up := v }))

/-! ### The taking of a command -/

/-- A command that the link cannot take at once waits in the inbound queue, and one that finds the queue full is refused
with QUEUE_FULL. The last two clauses are the model's choice (log 1): a command equal to the head of the queue is that very
command, and one not yet queued does not reach a part whose port has no link. -/
def Obligations.CommandWaitsOrOverflows : Prop :=
  ∀ (s : State) (i : Instr) (c : Cmd), i.cmd? = some c → s.powered = true →
    (s.link.up = true → s.link.inbound.head? ≠ some i → 16 ≤ s.link.inbound.length →
      exec i s = .next ((s.advance c.time).handReply (refusedAtArrival c.src i.code c.tag .queueFull)).transmit) ∧
    (s.link.up = true → s.link.inbound.head? ≠ some i → s.link.inbound.length < 16 →
      (s.linkReady = false ∨ (enqueueCommand i s.link.inbound).head? ≠ some i) →
      exec i s = .next (State.transmit { s.advance c.time with link.inbound := enqueueCommand i s.link.inbound })) ∧
    (s.link.inbound.head? = some i → s.linkReady = false → exec i s = .next (s.advance c.time).transmit) ∧
    (s.link.up = false → s.link.inbound.head? ≠ some i → exec i s = .next s)

/-- The checks of the link on every command, in their order: registration, role, body length. A refused command changes
nothing but its answer. -/
def Obligations.LinkChecksRefuse : Prop :=
  ∀ (s : State) (i : Instr) (c : Cmd) (m : Permitted), s.AtRest → s.takes i → i.cmd? = some c → i.permitted = some m →
    (s.exempt m = false → s.sender c = none → exec i s = .next (s.refused i c .notRegistered .empty)) ∧
    (∀ r, s.exempt m = false → s.sender c = some r → roleFits m r = false → exec i s = .next (s.refused i c .role .empty)) ∧
    (s.exempt m = true → c.lengthOk = false → exec i s = .next (s.refused i c .format .empty)) ∧
    (∀ r, s.exempt m = false → s.sender c = some r → roleFits m r = true → c.lengthOk = false →
      exec i s = .next (s.refused i c .format .empty))

/-! ### Flow and supply -/

/-- FLOW_REQUEST: its refusals, the request, urgent flag and stamp it writes, the pass it runs, its answer, and what it
leaves alone. -/
def Obligations.FlowRequestWritesRequest : Prop :=
  ∀ (s : State) (c : Cmd) (flow : Nat) (urgent : Bool) (p : Position) (i : Instr), i = .flowRequest c flow urgent →
    s.Orderly → s.admits i c → s.boundBranch c = some p → p < 24 →
    (600 < flow → exec i s = .next (s.refused i c .range .empty)) ∧
    (flow ≤ 600 → (s.br p).state ≠ .active → exec i s = .next (s.refused i c .branchState .empty)) ∧
    (∀ u, flow ≤ 600 → (s.br p).state = .active → u = ((s.taking i c).writeRequest p flow urgent).pass [] [] →
      ∃ t, exec i s = .next t ∧
        t = u.concluded i c (answer (if urgent && !(s.br p).limits.urgentPermitted then .doneWarn else .done)
          (.flow flow (u.br p).target (u.br p).grant (u.br p).drive)) ∧
        (t.br p).request = flow ∧ (t.br p).urgent = (urgent && (s.br p).limits.urgentPermitted) ∧
        (flow ≤ (s.br p).request → (t.br p).stamp = (s.br p).stamp ∧ t.arb.nextStamp = s.arb.nextStamp) ∧
        ((s.br p).request < flow → s.arb.nextStamp < 4294967295 →
          (t.br p).stamp = some s.arb.nextStamp ∧ t.arb.nextStamp = s.arb.nextStamp + 1) ∧
        t.still = ((s.taking i c).writeRequest p flow urgent).still)

/-- A new stamp is the counter's value, and the counter advances; at its end the stamps of the ACTIVE branches become
1, 2, … in their order first. That the end is reached when the counter stands at 4294967295, so that this stamp is never
given, is the model's reading of R26 (log 13). -/
def Obligations.StampsKeepTheirOrder : Prop :=
  ∀ (s : State) (p : Position), s.Sized → p < 24 →
    (s.arb.nextStamp < 4294967295 →
      s.takeStamp p = { s.modBr p (fun b => { b with stamp := some s.arb.nextStamp }) with
        arb.nextStamp := s.arb.nextStamp + 1 }) ∧
    (4294967295 ≤ s.arb.nextStamp →
      ((s.takeStamp p).br p).stamp = some (s.byStamp.length + 1) ∧
      (s.takeStamp p).arb.nextStamp = s.byStamp.length + 2 ∧
      (∀ k q, s.byStamp[k]? = some q → q ≠ p → ((s.takeStamp p).br q).stamp = some (k + 1)) ∧
      (∀ q, q ∈ s.byStamp ↔ q < 24 ∧ (s.br q).state = .active ∧ (s.br q).stamp ≠ none) ∧
      s.byStamp.Pairwise (fun q r => (s.br q).stamp.getD 0 ≤ (s.br r).stamp.getD 0))

/-- FLOW_RELEASE: its refusals; request 0, urgent no, stamp kept, target at the floor, one pass, its answer, and what it
leaves alone. The branch stays arbitrated with its floor granted, and a grant lowered below the drive starts a cut. -/
def Obligations.FlowReleaseZeroesRequest : Prop :=
  (∀ (s : State) (c : Cmd) (i : Instr), i = .flowRelease c → s.AtRest → s.takes i →
    (s.sender c = none → exec i s = .next (s.refused i c .notRegistered .empty)) ∧
    (∀ r, s.sender c = some r → r.role ≠ .server ∨ r.branch = none → exec i s = .next (s.refused i c .role .empty))) ∧
  ∀ (s : State) (c : Cmd) (p : Position) (i : Instr), i = .flowRelease c →
    s.Orderly → s.admits i c → s.boundBranch c = some p → p < 24 →
    ((s.br p).state ≠ .active → exec i s = .next (s.refused i c .branchState .empty)) ∧
    (∀ v u, (s.br p).state = .active → v = (s.taking i c).modBr p (fun b => { b with request := 0, urgent := false }) →
      u = v.pass [] [] →
      ∃ t, exec i s = .next t ∧
        t = u.concluded i c (answer .done (.flow 0 (u.br p).target (u.br p).grant (u.br p).drive)) ∧
        (t.br p).request = 0 ∧ (t.br p).urgent = false ∧ (t.br p).stamp = (s.br p).stamp ∧
        (u.br p).target = (u.br p).limits.floor ∧ p ∉ u.arb.standing ∧ t.still = v.still ∧
        (u.br p).state = .active ∧ (u.arb.shortfall = false → (u.br p).limits.floor ≤ (u.br p).grant) ∧
        ((u.br p).grant < (u.br p).drive → ∃ k, (u.br p).cut = some k ∧ k.newDrive = (u.br p).grant))

/-- CUT_ACK: DONE carries the pending cut out, LATE changes nothing. CUT_DEADLINE_EXPIRY: the cut is carried out and counted
as overdue, to 255 at most; with no cut pending nothing happens. -/
def Obligations.PendingCutsAreCarriedOut : Prop :=
  (∀ (s : State) (c : Cmd) (p : Position) (i : Instr), i = .cutAck c →
    s.Orderly → s.admits i c → s.boundBranch c = some p → p < 24 →
    ((s.br p).cut = none → exec i s = .next ((s.taking i c).replied i c (answer .late .empty))) ∧
    (∀ k u, (s.br p).cut = some k → u = (s.taking i c).carryCut p k →
      (u.br p).cut = none ∧ (u.br p).overdue = (s.br p).overdue ∧ ((s.br p).grant ≤ k.newDrive → (u.br p).drive = k.newDrive) ∧
      ∃ t, exec i s = .next t ∧ t = u.concluded i c (answer .done .empty) ∧ t.still = (s.taking i c).still)) ∧
  (∀ (s : State) (p : Position), s.Orderly → s.powered = true → p < 24 →
    ((s.br p).cut = none → exec (.cutDeadlineExpiry p) s = .next s) ∧
    (∀ k v u, (s.br p).cut = some k →
      v = (s.advance k.deadline).modBr p (fun b => { b with overdue := min (b.overdue + 1) 255 }) → u = v.carryCut p k →
      (u.br p).cut = none ∧ ((s.br p).grant ≤ k.newDrive → (u.br p).drive = k.newDrive) ∧
      ∃ t, exec (.cutDeadlineExpiry p) s = .next t ∧ t = u.finish ∧
        (t.br p).overdue = min ((s.br p).overdue + 1) 255 ∧ t.still = v.still))

/-- DECLARE_SUPPLY: the record becomes FRESH with the declared value and its ageing deadline, one pass runs, and the answer
carries S, B and A. SUPPLY_AGEING_EXPIRY: a FRESH record becomes STALE and keeps its value, with one pass; otherwise
nothing happens. -/
def Obligations.SupplyRecordAges : Prop :=
  (∀ (s : State) (c : Cmd) (supply : Nat) (i : Instr), i = .declareSupply c supply → s.Orderly → s.admits i c →
    (16000 < supply → exec i s = .next (s.refused i c .range .empty)) ∧
    (∀ now v u, supply ≤ 16000 → now = max s.now c.time →
      v = { s.taking i c with arb.supply := { state := .fresh, declared := supply, lastAt := some now
                                              deadline := some (now + 1000 * s.pol.active.supply.ageing) } } →
      u = v.pass [] (if s.arb.supply.state = .stale then [.staleEnded] else []) →
      ∃ t, exec i s = .next t ∧
        t = u.concluded i c (answer .done (.supplyAnswer supply (supply - s.pol.active.supply.reserve) u.available)) ∧
        t.arb.supply = v.arb.supply ∧ t.still = v.still)) ∧
  (∀ s : State, s.Orderly → s.powered = true →
    (s.arb.supply.state ≠ .fresh ∨ s.arb.supply.deadline = none → exec .supplyAgeingExpiry s = .next s) ∧
    (∀ d v, s.arb.supply.state = .fresh → s.arb.supply.deadline = some d →
      v = { s.advance d with arb.supply := { s.arb.supply with state := .stale, deadline := none } } →
      ∃ t, exec .supplyAgeingExpiry s = .next t ∧ t = (v.pass [] [.staleEntered]).finish ∧
        t.arb.supply.state = .stale ∧ t.arb.supply.declared = s.arb.supply.declared ∧ t.still = v.still))

/-! ### The allocation pass -/

/-- First law: at the end of every event grants and draws together fit max(0, B − Q). -/
def Obligations.StepKeepsGrantsInBudget : Prop :=
  ∀ s t : State, s.Orderly → s.GrantsFit → step s = .next t → t.GrantsFit

/-- Grants when the floors fit: 0 outside ACTIVE, the floor for each ACTIVE branch, and above it what is left of the
remainder, handed down the standing order. -/
def Obligations.PassGrantsInFull : Prop :=
  ∀ (s t : State) (left : List Position) (alerts : List AlertCause), s.Sized → t = s.pass left alerts →
    t.floorSum ≤ t.available →
    t.arb.shortfall = false ∧
    (∀ p, p < 24 → (t.br p).state ≠ .active → (t.br p).grant = 0) ∧
    (∀ p, p < 24 → (t.br p).state = .active → p ∉ t.arb.standing → (t.br p).grant = (t.br p).limits.floor) ∧
    (∀ k p, t.arb.standing[k]? = some p →
      (t.br p).grant = (t.br p).limits.floor + min ((t.br p).target - (t.br p).limits.floor)
        (t.available - t.floorSum - sumOf (fun q => (t.br q).grant - (t.br q).limits.floor) (t.arb.standing.take k)))

/-- Grants in SHORTFALL: ⌊floor × A / Σfloor⌋ for each ACTIVE branch and 0 for every other. -/
def Obligations.PassGrantsInShortfall : Prop :=
  ∀ (s t : State) (left : List Position) (alerts : List AlertCause), s.Sized → t = s.pass left alerts →
    t.available < t.floorSum →
    t.arb.shortfall = true ∧
    (∀ p, p < 24 → (t.br p).state ≠ .active → (t.br p).grant = 0) ∧
    (∀ p, p < 24 → (t.br p).state = .active → (t.br p).grant = (t.br p).limits.floor * t.available / t.floorSum)

/-- First and second law after one pass: grants and draws together fit max(0, B − Q); no branch is granted above its
effective ceiling, and an ACTIVE branch has its floor unless the arbiter is in SHORTFALL. -/
def Obligations.PassKeepsBudgetAndCeilings : Prop :=
  ∀ (s t : State) (left : List Position) (alerts : List AlertCause), s.Sized → t = s.pass left alerts →
    t.grantSum + t.draws ≤ t.budget - t.quarantined ∧
    (s.Fit → ∀ p, p < 24 → (t.br p).grant ≤ (t.br p).effCeiling ∧
      ((t.br p).state = .active → t.arb.shortfall = false → (t.br p).limits.floor ≤ (t.br p).grant))

/-- Third law: a drive that the arbiter raises leaves the drives and the draws together within max(0, B − Q), and a
STALE supply record allows no rise. -/
def Obligations.RisesFitTheRoom : Prop :=
  ∀ (s : State) (level : Branch → Nat) (p : Position) (x : State × Int), s.Sized → p < 24 →
    x = riseStep level (s, s.room) p →
    x.2 = x.1.room ∧
    ((x.1.br p).drive ≠ (s.br p).drive →
      (s.br p).drive < (x.1.br p).drive ∧ (x.1.br p).drive ≤ level (s.br p) ∧
      x.1.driveSum + x.1.draws ≤ x.1.budget - x.1.quarantined) ∧
    (∀ q, q ≠ p → (x.1.br q).drive = (s.br q).drive) ∧
    (∀ ps, s.arb.supply.state = .stale → s.rises ps = s)

/-- After every pass the standing order holds the ACTIVE branches whose target is above their floor, once each and in key
order, and the pending queue those of them granted less than their target. -/
def Obligations.PassOrdersStandings : Prop :=
  ∀ (s t : State) (left : List Position) (alerts : List AlertCause), s.Sized → t = s.pass left alerts →
    t.arb.standing.Pairwise (fun p q => (t.br p).keyLe (t.br q) = true) ∧ t.arb.standing.Nodup ∧
    (∀ p, p ∈ t.arb.standing ↔ p < 24 ∧ (t.br p).state = .active ∧ (t.br p).limits.floor < (t.br p).target) ∧
    t.arb.queue = t.arb.standing.filter (fun p => (t.br p).grant < (t.br p).target)

/-- After every pass an ACTIVE branch whose grant is below its drive has a pending cut to its grant, one it had before
with the deadline it had and a new one, of a branch with a bound server, with the cut deadline of the policy; no other
ACTIVE branch has one, and rise waiting marks the drives below their grant. -/
def Obligations.PassComparesDrives : Prop :=
  ∀ (s t : State) (left : List Position) (alerts : List AlertCause) (p : Position), s.Sized → p < 24 →
    t = s.pass left alerts →
    (t.br p).riseWaiting = decide ((t.br p).state = .active ∧ (t.br p).drive < (t.br p).grant) ∧
    ((t.br p).state ≠ .active → (t.br p).drive = (s.br p).drive ∧ (t.br p).cut = (s.br p).cut) ∧
    ((t.br p).state = .active →
      ((t.br p).cut = none → (t.br p).drive ≤ (t.br p).grant) ∧
      (∀ k, (t.br p).cut = some k → k.newDrive = (t.br p).grant ∧ (t.br p).grant < (t.br p).drive ∧
        (t.br p).drive = (s.br p).drive ∧
        (∀ h, (s.br p).cut = some h → k.deadline = h.deadline) ∧
        ((s.br p).cut = none → (s.br p).boundTo ≠ none ∧ k.deadline = s.now + s.pol.active.timing.cutDeadline)))

/-! ### Policy -/

/-- STAGE_BRANCH with every field in range writes its group into the staged copy, marks it dirty, and changes nothing
else. The codes of the control mode, 0 for TRACK and 1 for FIXED, are numbered as section 9.9 numbers a list (log 8). -/
def Obligations.StageBranchStages : Prop :=
  ∀ (s : State) (c : Cmd) (p : Position) (g : BranchGroup) (i : Instr), i = .stageBranch c p g → s.AtRest → s.admits i c →
    p ≤ 23 → g.cls ≤ 3 → g.floor ≤ 600 → g.ceiling ≤ 600 → (∀ n, g.entryRequest = some n → n ≤ 600) → g.mode ≤ 1 →
    g.p0 ≤ 500 → 100 ≤ g.pfull → g.pfull ≤ 1000 → 100 ≤ g.kSupply → g.kSupply ≤ 10000 → 100 ≤ g.kReturn →
    g.kReturn ≤ 10000 →
    ∀ x : BranchPolicy, x.occupied = g.occupied →
      x.limits = { cls := g.cls, floor := g.floor, ceiling := g.ceiling, entryRequest := x.limits.entryRequest
                   urgentPermitted := g.urgentPermitted, mode := if g.mode = 0 then .track else .fixed
                   p0 := g.p0, pfull := g.pfull, kSupply := g.kSupply, kReturn := g.kReturn } →
      (g.entryRequest = none → x.limits.entryRequest = g.ceiling) →
      (∀ n, g.entryRequest = some n → x.limits.entryRequest = n) →
      exec i s = .next (State.replied { s.taking i c with
        pol.dirty := true, pol.staged := { s.pol.staged with branches := s.pol.staged.branches.set p x } }
        i c (answer .done .empty))

/-- STAGE_ZONE, STAGE_CHANNEL_CLASS, STAGE_TIMING and STAGE_SUPPLY with every field in range write their groups into the
staged copy, mark it dirty, and change nothing else. The codes of the channel class, the unguarded cap (0 for on) and the
polarity (0 for HIGH) are numbered as section 9.9 numbers a list (log 8). -/
def Obligations.SharedGroupsStage : Prop :=
  ∀ (s : State) (c : Cmd), s.AtRest →
    (∀ z e i, i = .stageZone c z e → s.admits i c → z ≤ 7 → (∀ a b, e = some (a, b) → a ≤ 23 ∧ b ≤ 23) →
      exec i s = .next (State.replied { s.taking i c with
        pol.dirty := true, pol.staged := { s.pol.staged with zones := s.pol.staged.zones.set z e } } i c (answer .done .empty))) ∧
    (∀ n w k i x, i = .stageChannelClass c n w k → s.admits i c → n ≤ 2 → 1 ≤ w → w ≤ 1023 → 1 ≤ k → k ≤ 10 →
      x = { threshold := w, confirm := k } →
      exec i s = .next (State.replied { s.taking i c with
        pol.dirty := true
        pol.staged := { s.pol.staged with
          rope := if n = 0 then x else s.pol.staged.rope
          tray := if n = 1 then x else s.pol.staged.tray
          base := if n = 2 then x else s.pol.staged.base } } i c (answer .done .empty))) ∧
    (∀ (g : Timing) i, i = .stageTiming c g → s.admits i c → 200 ≤ g.cutDeadline → g.cutDeadline ≤ 10000 →
      g.warnDeadline ≤ 2000 → g.drainDelay ≤ 30 → g.localizationWindow ≤ 10 →
      g.measurementWindow ∈ [250, 500, 1000, 2000] → 1 ≤ g.settleTolerance → g.settleTolerance ≤ 20 →
      1 ≤ g.settleCount → g.settleCount ≤ 8 → 5 ≤ g.dryWindows → g.dryWindows ≤ 120 → 5 ≤ g.imbalanceThreshold →
      g.imbalanceThreshold ≤ 100 → 2 ≤ g.imbalanceWindows → g.imbalanceWindows ≤ 20 →
      exec i s = .next (State.replied { s.taking i c with
        pol.dirty := true, pol.staged := { s.pol.staged with timing := g } } i c (answer .done .empty))) ∧
    (∀ (g : SupplyGroup) i, i = .stageSupply c g → s.admits i c → g.reserve ≤ 2000 → g.assumed ≤ 16000 →
      5 ≤ g.ageing → g.ageing ≤ 300 → g.unguardedCap ≤ 1 → g.hallPolarity ≤ 1 →
      exec i s = .next (State.replied { s.taking i c with
        pol.dirty := true
        pol.staged := { s.pol.staged with supply :=
          { reserve := g.reserve, assumed := g.assumed, ageing := g.ageing, unguardedCap := g.unguardedCap = 0
            hallEnable := g.hallEnable, hallPolarity := if g.hallPolarity = 0 then .high else .low } } }
        i c (answer .done .empty)))

/-- A STAGE command is refused with RANGE for its index, and else for its first field out of the range of section 3.2, which
the reply names by its place in the table. The count of the places, and the codes 0 and 1 of the control mode, the unguarded
cap and the polarity, are the model's (log 8). -/
def Obligations.StageRangesRefuse : Prop :=
  (∀ (l : List Bool) (n : Nat), firstOut l = some n ↔ FirstOutOfRange l n) ∧
  ∀ (s : State) (c : Cmd), s.AtRest →
    (∀ p g i, i = .stageBranch c p g → s.admits i c →
      (23 < p → exec i s = .next (s.refused i c .range .empty)) ∧
      (∀ n, p ≤ 23 → FirstOutOfRange [true, g.cls ≤ 3, g.floor ≤ 600, g.ceiling ≤ 600, g.entryRequest.all (fun r => r ≤ 600),
          true, g.mode ≤ 1, g.p0 ≤ 500, 100 ≤ g.pfull ∧ g.pfull ≤ 1000, 100 ≤ g.kSupply ∧ g.kSupply ≤ 10000,
          100 ≤ g.kReturn ∧ g.kReturn ≤ 10000] n →
        exec i s = .next (s.refused i c .range (.ordinal n)))) ∧
    (∀ z e i, i = .stageZone c z e → s.admits i c →
      (7 < z → exec i s = .next (s.refused i c .range .empty)) ∧
      (∀ a b, z ≤ 7 → e = some (a, b) →
        (23 < a → exec i s = .next (s.refused i c .range (.ordinal 1))) ∧
        (a ≤ 23 → 23 < b → exec i s = .next (s.refused i c .range (.ordinal 2))))) ∧
    (∀ k w n i, i = .stageChannelClass c k w n → s.admits i c →
      (2 < k → exec i s = .next (s.refused i c .range .empty)) ∧
      (k ≤ 2 → w = 0 ∨ 1023 < w → exec i s = .next (s.refused i c .range (.ordinal 1))) ∧
      (k ≤ 2 → 1 ≤ w → w ≤ 1023 → n = 0 ∨ 10 < n → exec i s = .next (s.refused i c .range (.ordinal 2)))) ∧
    (∀ g n i, i = .stageTiming c g → s.admits i c →
      FirstOutOfRange [200 ≤ g.cutDeadline ∧ g.cutDeadline ≤ 10000, g.warnDeadline ≤ 2000, g.drainDelay ≤ 30,
        g.localizationWindow ≤ 10, g.measurementWindow ∈ [250, 500, 1000, 2000],
        1 ≤ g.settleTolerance ∧ g.settleTolerance ≤ 20, 1 ≤ g.settleCount ∧ g.settleCount ≤ 8,
        5 ≤ g.dryWindows ∧ g.dryWindows ≤ 120, 5 ≤ g.imbalanceThreshold ∧ g.imbalanceThreshold ≤ 100,
        2 ≤ g.imbalanceWindows ∧ g.imbalanceWindows ≤ 20] n →
      exec i s = .next (s.refused i c .range (.ordinal n))) ∧
    (∀ g n i, i = .stageSupply c g → s.admits i c →
      FirstOutOfRange [g.reserve ≤ 2000, g.assumed ≤ 16000, 5 ≤ g.ageing ∧ g.ageing ≤ 300, g.unguardedCap ≤ 1, true,
        g.hallPolarity ≤ 1] n →
      exec i s = .next (s.refused i c .range (.ordinal n)))

/-- APPLY_POLICY refused: with ISOLATING while a real job is before HOLD, leaving all as it was, and with RANGE for the
first error of the staged copy, which the apply result record keeps. -/
def Obligations.ApplyRefusesErrors : Prop :=
  (∀ q : Policy, q.error = none ↔
    (∀ p, p < 24 → (q.branches.getD p BranchPolicy.factory).limits.floor ≤ (q.branches.getD p BranchPolicy.factory).limits.ceiling ∧
      (q.branches.getD p BranchPolicy.factory).limits.p0 + 100 ≤ (q.branches.getD p BranchPolicy.factory).limits.pfull) ∧
    (∀ z a b, z < 8 → q.zones.getD z none = some (a, b) →
      a ≤ b ∧ ∀ y d e, y < z → q.zones.getD y none = some (d, e) → e < a ∨ b < d)) ∧
  ∀ (s : State) (c : Cmd) (i : Instr), i = .applyPolicy c → s.AtRest → s.admits i c →
    (s.jobs.any Job.beforeHold = true → exec i s = .next (s.refused i c .isolating .empty)) ∧
    (∀ e n, s.jobs.any Job.beforeHold = false → s.pol.staged.error = some (e, n) →
      exec i s = .next (State.replied { s.taking i c with
        pol.applied := { result := .refused, code := some e, index := some n, warnings := []
                         time := some (max s.now c.time) } }
        i c (refuse .range (.applyCode (some e) (some n)))))

/-- APPLY_POLICY of a staged copy without error: the active copy, the branch records and the derived values take it, trim
offsets of a changed curve return to 0, guards and effective ceilings are derived anew, the branches change state by their
occupancy, newcomers with new stamps in ascending order, and one pass runs; then the apply result record, POLICY_APPLIED and
the answer. How stamps are taken past the end of the counter is stated by `StampsKeepTheirOrder`. -/
def Obligations.ApplyCopiesStaged : Prop :=
  ∀ (s : State) (c : Cmd) (i : Instr), i = .applyPolicy c → s.Orderly → s.admits i c →
    s.jobs.any Job.beforeHold = false → s.pol.staged.error = none →
    ∀ v ws r u, v = s.taking i c → ws = s.applyWarnings s.pol.staged →
    r = ({ result := if ws.isEmpty then .done else .doneWarn, code := ws.head?.map (fun x => x.1)
           index := (ws.head?.map (fun x => x.2)).join, warnings := ws.map (fun x => x.1)
           time := some (max s.now c.time) } : ApplyResult) →
    u = { v.applyPolicy with pol.applied := r } →
    ∃ t, exec i s = .next t ∧
      t = (u.notify (.policyApplied {
          result := r.result, warnings := r.warnings
          uncovered := if r.warnings.contains .branchUncovered then s.pol.staged.uncovered.head? else none
          floorSum := s.pol.staged.floorSum, margin := (s.budgetUnder s.pol.staged : Int) - s.pol.staged.floorSum
          changes := u.stateChanges s, shortfall := shortfallCause s.arb.shortfall u.arb.shortfall })).concluded i c
        (answer (if ws.isEmpty then .done else .doneWarn) (.applyCode r.code r.index)) ∧
      t.still = u.still ∧
      (∃ w : State, w.pol = { u.pol with applied := s.pol.applied } ∧ w.arb.supply = u.arb.supply ∧
        (∀ p, p < 24 → (w.br p).state = (t.br p).state ∧ (w.br p).effCeiling = (t.br p).effCeiling) ∧
        v.applyPolicy = w.pass
          (Config.positions.filter (fun p =>
            (s.br p).state = .active && !(s.pol.staged.branches.getD p BranchPolicy.factory).occupied))
          (if u.arb.supply.state = .stale ∧ s.arb.supply.state ≠ .stale then [.staleEntered] else [])) ∧
      t.pol = { staged := s.pol.staged, active := s.pol.staged, dirty := false, maskSet := s.pol.maskSet, applied := r
                derived := { floorSum := s.pol.staged.floorSum
                             margin := (s.budgetUnder s.pol.staged : Int) - s.pol.staged.floorSum
                             zoneMembers := s.pol.staged.zones.map extentMembers
                             uncovered := s.pol.staged.uncovered } } ∧
      t.sense = s.sense ∧ t.cases = s.cases ∧ t.iso = s.iso ∧ t.store = s.store ∧
      ∀ p g, p < 24 → g = s.pol.staged.branches.getD p BranchPolicy.factory →
        (t.br p).limits = g.limits ∧ (t.br p).zone = zoneOf s.pol.staged.zones p ∧
        (t.br p).trimOffset =
          (if (s.br p).limits.p0 ≠ g.limits.p0 ∨ (s.br p).limits.pfull ≠ g.limits.pfull then 0 else (s.br p).trimOffset) ∧
        (t.br p).guardLevel = t.guardOf p ∧
        (t.br p).effCeiling =
          (if (t.br p).guardLevel = .unguarded ∧ s.pol.staged.supply.unguardedCap = true then g.limits.floor
           else g.limits.ceiling) ∧
        (s.arb.nextStamp + 24 ≤ 4294967295 →
          ((s.br p).state = .active → g.occupied = true → (t.br p).stamp = (s.br p).stamp) ∧
          ((s.br p).state = .vacant → g.occupied = true →
            (t.br p).stamp = some (s.arb.nextStamp + ((List.range p).filter (fun q =>
              (s.br q).state = .vacant && (s.pol.staged.branches.getD q BranchPolicy.factory).occupied)).length))) ∧
        ((s.br p).state = .active → g.occupied = true →
          (t.br p).state = .active ∧ (t.br p).request = (s.br p).request ∧ (t.br p).urgent = (s.br p).urgent) ∧
        ((s.br p).state = .active → g.occupied = false →
          (t.br p).state = .vacant ∧ (t.br p).request = 0 ∧ (t.br p).urgent = false ∧ (t.br p).stamp = none) ∧
        ((s.br p).state = .vacant → g.occupied = true →
          (t.br p).state = .active ∧ (t.br p).request = g.limits.entryRequest) ∧
        ((s.br p).state = .vacant → g.occupied = false → (t.br p).state = .vacant) ∧
        ((s.br p).state ≠ .active → (s.br p).state ≠ .vacant → (t.br p).state = (s.br p).state)

/-- DISCARD_STAGED: the staged copy is the active one, staged-dirty is no, and nothing else changes. -/
def Obligations.DiscardCopiesActive : Prop :=
  ∀ (s : State) (c : Cmd) (i : Instr), i = .discardStaged c → s.AtRest → s.takes i →
    (s.sender c = none → exec i s = .next (s.refused i c .notRegistered .empty)) ∧
    (∀ r, s.sender c = some r → r.role ≠ .rack → exec i s = .next (s.refused i c .role .empty)) ∧
    (∀ r, s.sender c = some r → r.role = .rack → c.lengthOk = true →
      exec i s = .next (State.transmit { s.taking i c with
        pol.staged := s.pol.active, pol.dirty := false
        link.replies := s.link.replies ++ (if c.wantReply = true
          then [{ dest := c.src, code := 11, tag := c.tag, status := .done, reason := .none, first := true, more := false
                  body := .empty, ofTaken := true }] else []) }))

/-- SAVE_POLICY begins the write of an image of the active copy, the mask set and the requesters, with the next sequence
number, and its end makes the slot current or leaves it invalid, with COMPLETION unless a RESTART has been taken. -/
def Obligations.SaveWritesImage : Prop :=
  ∀ s : State, s.AtRest →
    (∀ c i, i = .savePolicy c → s.admits i c →
      (s.longInFlight .save = true → exec i s = .next (s.refused i c .busy .empty)) ∧
      (∀ img, s.longInFlight .save = false → img = s.snapshot →
        img.policy = s.pol.active ∧ img.maskSet = s.pol.maskSet ∧
        img.requesters = s.link.requesters.map (Option.map (fun r =>
          { addr := r.addr, role := r.role, branch := r.branch, mask := r.mask })) ∧
        (s.store.image = none → img.sequence = 1) ∧
        (∀ k, s.store.image = some k → img.sequence = (if k.sequence = 65535 then 1 else k.sequence + 1)) ∧
        exec i s = .next (State.replied { s.taking i c with
          store.saving := some (s.store.imageSlot, img)
          link.longs := s.link.longs ++ [{ kind := .save, issuer := c.src, tag := c.tag, completed := false }] }
          i c (answer .pending .empty)))) ∧
    (∀ t ok, s.powered = true → s.store.saving = none → exec (.saveWriteEnd t ok) s = .next (s.advance t)) ∧
    (∀ t img, s.powered = true → s.store.saving = some (.a, img) →
      exec (.saveWriteEnd t true) s = .next (State.complete { s.advance t with
        store.imageA := some img, store.saving := none } .save .done (.saved img.sequence)).finish ∧
      exec (.saveWriteEnd t false) s = .next (State.complete { s.advance t with
        store.imageA := none, store.saving := none } .save .failed .saveFailed).finish) ∧
    (∀ t img, s.powered = true → s.store.saving = some (.b, img) →
      exec (.saveWriteEnd t true) s = .next (State.complete { s.advance t with
        store.imageB := some img, store.saving := none } .save .done (.saved img.sequence)).finish ∧
      exec (.saveWriteEnd t false) s = .next (State.complete { s.advance t with
        store.imageB := none, store.saving := none } .save .failed .saveFailed).finish) ∧
    -- after a RESTART has been taken no COMPLETION follows (R178, R187)
    (∀ t ok img, s.powered = true → s.link.restarting = true →
      (s.store.saving = some (.a, img) → exec (.saveWriteEnd t ok) s = .next (State.transmit { s.advance t with
        store.imageA := if ok then some img else none, store.saving := none })) ∧
      (s.store.saving = some (.b, img) → exec (.saveWriteEnd t ok) s = .next (State.transmit { s.advance t with
        store.imageB := if ok then some img else none, store.saving := none })))

/-- HOLD_WRITE_END: a written record stands in its slot, and a further write that is due begins with the set as it then
stands, to the slot that is not current and with the number after that of the current record; a failed one is begun again with the
set as it then stands (that the mark of a further write then stays as it was is the model's reading, log 26). -/
def Obligations.HoldWriteEnds : Prop :=
  ∀ (s : State) (t : Time), s.powered = true →
    (∀ ok, s.store.holding = none → exec (.holdWriteEnd t ok) s = .next (s.advance t)) ∧
    (∀ n r, s.store.holding = some (n, r) → ∃ u v, exec (.holdWriteEnd t true) s = .next u ∧
      exec (.holdWriteEnd t false) s = .next v ∧
      (n = .a → u.store.holdA = some r ∧ u.store.holdB = s.store.holdB ∧ v.store.holdA = none ∧ v.store.holdB = s.store.holdB) ∧
      (n = .b → u.store.holdB = some r ∧ u.store.holdA = s.store.holdA ∧ v.store.holdB = none ∧ v.store.holdA = s.store.holdA) ∧
      u.store.furtherDue = false ∧ v.store.furtherDue = s.store.furtherDue ∧
      (s.store.furtherDue = false → u.store.holding = none) ∧
      (∀ x y, (s.store.furtherDue = true ∧ u.store.holding = some (x, y)) ∨ v.store.holding = some (x, y) →
        y.latched = s.branches.map (fun b => b.latched) ∧ y.maint = s.branches.map (fun b => b.maint) ∧
        y.trunk = s.store.trunkLatch) ∧
      (∀ w x y, (w = u ∧ s.store.furtherDue = true) ∨ w = v → w.store.holding = some (x, y) →
        (w.store.hold = none → x = .a ∧ y.sequence = 1) ∧
        (∀ k, w.store.hold = some k → y.sequence = (if k.sequence = 65535 then 1 else k.sequence + 1) ∧
          (x = .a → w.store.holdB = some k) ∧ (x = .b → w.store.holdA = some k))) ∧
      (s.store.furtherDue = true → u.store.holding ≠ none) ∧ v.store.holding ≠ none ∧
      { u with store := s.store } = s.advance t ∧ { v with store := s.store } = s.advance t)

/-! ### Maintenance and valve service -/

/-- ENTER_MAINTENANCE: its refusals, and an ACTIVE branch that leaves arbitration with its fields cleared, its drive and
grant 0, its maintenance flag set, and one pass run. That its control target becomes 0 also where its drive was 0 before is
the model's reading of R100 and R103 (log 33), and that the claim for the supply valve comes before that for the return valve
is its choice (log 68). -/
def Obligations.EnterMaintenanceClosesBranch : Prop :=
  ∀ (s : State) (c : Cmd) (p : Position) (i : Instr), i = .enterMaintenance c p → s.Orderly → s.admits i c →
    (23 < p → exec i s = .next (s.refused i c .range .empty)) ∧
    (p ≤ 23 → (s.br p).state ≠ .active → exec i s = .next (s.refused i c .branchState .empty)) ∧
    (∀ v u, p ≤ 23 → (s.br p).state = .active →
      v = (s.taking i c).modBr p (fun b => { b with
        state := .maintenance, request := 0, urgent := false, stamp := none, trim := none, maint := true }) →
      u = (((((s.taking i c).modBr p (fun b => { b with state := .maintenance })).clearArbiterFields p).shutBranch p).setMaint
        p true).pass [p] [] →
      (u.br p).grant = 0 ∧ (u.br p).drive = 0 ∧ (u.br p).cut = none ∧ (u.br p).riseWaiting = false ∧
      (u.br p).controlTarget = some 0 ∧
      ∃ t, exec i s = .next t ∧ t = u.concluded i c (answer .done .empty) ∧
        t.still = (v.holdIfChanged (s.taking i c)).still)

/-- LEAVE_MAINTENANCE: its refusals, and a branch that goes to ACTIVE with its entry request and a new stamp, or to
VACANT, by its occupancy, its draw 0 and its maintenance flag cleared, and one pass run. The order of the two claims that
close a branch left to VACANT is the model's choice (log 68). -/
def Obligations.LeaveMaintenanceByOccupancy : Prop :=
  ∀ (s : State) (c : Cmd) (p : Position) (i : Instr), i = .leaveMaintenance c p → s.Orderly → s.admits i c →
    (23 < p → exec i s = .next (s.refused i c .range .empty)) ∧
    (p ≤ 23 → (s.br p).state ≠ .maintenance → exec i s = .next (s.refused i c .branchState .empty)) ∧
    (p ≤ 23 → (s.br p).state = .maintenance → s.inService p = true → exec i s = .next (s.refused i c .busy .empty)) ∧
    (∀ u, p ≤ 23 → (s.br p).state = .maintenance → s.inService p = false →
      u = ((s.taking i c).leaveMaintenance p).pass [] [] →
      (u.br p).draw = 0 ∧
      ∃ t, exec i s = .next t ∧ t = u.concluded i c (answer .done .empty) ∧ t.still = u.still ∧ (t.br p).maint = false ∧
        (∀ q, q ≠ p → (t.br q).state = (s.br q).state ∧ (t.br q).request = (s.br q).request ∧
          (t.br q).limits = (s.br q).limits ∧ (t.br q).maint = (s.br q).maint) ∧
        t.pol = s.pol ∧ t.sense = s.sense ∧ t.cases = s.cases ∧ t.iso = s.iso ∧
        ((s.policyOf p).occupied = true →
          (t.br p).state = .active ∧ (t.br p).request = (s.br p).limits.entryRequest ∧
          (s.arb.nextStamp < 4294967295 → (t.br p).stamp = some s.arb.nextStamp)) ∧
        ((s.policyOf p).occupied = false → (t.br p).state = .vacant))

/-- TRIM_ONCE: its refusals, and the trim record, the long-command record and the lost settling of an accepted trim. -/
def Obligations.TrimOnceStartsTrim : Prop :=
  ∀ (s : State) (c : Cmd) (p : Position) (i : Instr), i = .trimOnce c p → s.Orderly → s.admits i c →
    (23 < p → exec i s = .next (s.refused i c .range .empty)) ∧
    (p ≤ 23 → (s.br p).state ≠ .active ∨ (s.br p).limits.mode ≠ .fixed →
      exec i s = .next (s.refused i c .branchState .empty)) ∧
    (p ≤ 23 → (s.br p).state = .active → (s.br p).limits.mode = .fixed →
      (s.br p).trim ≠ none ∨ s.longInFlight (.trim p) = true → exec i s = .next (s.refused i c .busy .empty)) ∧
    (∀ v, p ≤ 23 → (s.br p).state = .active → (s.br p).limits.mode = .fixed → (s.br p).trim = none →
      s.longInFlight (.trim p) = false →
      v = State.modBr { s.taking i c with
          link.longs := s.link.longs ++ [{ kind := .trim p, issuer := c.src, tag := c.tag, completed := false }] } p
        (fun b => { b with trim := some ⟨c.src, c.tag, 0⟩, settleRun := 0, settled := false }) →
      exec i s = .next (State.concluded
        (if (s.br p).settled then v.notify (.unsettled (v.settleNotice p .trim)) else v) i c (answer .pending .empty)))

/-- SERVICE_MOVE: its refusals in order, and an accepted move: in flight, recorded as a long command, with the draw of a
move that opens a supply valve. -/
def Obligations.ServiceMoveStarts : Prop :=
  ∀ (s : State) (c : Cmd) (a q : Nat) (i : Instr), i = .serviceMove c a q → s.Orderly → s.admits i c →
    (49 < a ∨ 1000 < q → exec i s = .next (s.refused i c .range .empty)) ∧
    (a ≤ 49 → q ≤ 1000 → (s.act a).reservedBy ≠ 0 → exec i s = .next (s.refused i c .refusedReserved .empty)) ∧
    (a ≤ 49 → q ≤ 1000 → (s.act a).reservedBy = 0 →
      (48 ≤ a → exec i s = .next (s.refused i c .branchState .empty)) ∧
      (∀ p, a = supplyOf p ∨ a = returnOf p → p < 24 →
        ((s.br p).state ≠ .maintenance → exec i s = .next (s.refused i c .branchState .empty)) ∧
        ((s.br p).state = .maintenance →
          s.bus.service ≠ none ∨ s.longInFlight .service = true ∨ s.verifyOn p = true →
          exec i s = .next (s.refused i c .busy .empty)) ∧
        ((s.br p).state = .maintenance → s.bus.service = none → s.longInFlight .service = false → s.verifyOn p = false →
          (a < 24 → 20 < q → (s.br p).draw = 0 → s.available < (s.br p).limits.ceiling →
            exec i s = .next (s.refused i c .noBudget .empty)) ∧
          (∀ u, a < 24 ∧ 20 < q ∧ (s.br p).draw = 0 → (s.br p).limits.ceiling ≤ s.available →
            u = (s.taking i c).startService c p a q →
            u.bus.service = some ⟨a, q⟩ ∧ u.longInFlight .service = true ∧
            (a < 24 → 20 < q → (s.br p).draw = 0 → (u.br p).draw = (s.br p).limits.ceiling) ∧
            ∃ t, exec i s = .next t ∧ t = u.concluded i c (answer .pending .empty) ∧ t.still = (s.taking i c).still) ∧
          (∀ u, ¬ (a < 24 ∧ 20 < q ∧ (s.br p).draw = 0) → u = (s.taking i c).startService c p a q →
            u.bus.service = some ⟨a, q⟩ ∧ u.longInFlight .service = true ∧ (u.br p).draw = (s.br p).draw ∧
            ∃ t, exec i s = .next t ∧ t = u.concluded i c (answer .pending .empty) ∧ t.still = (s.taking i c).still))))

/-- CURVE_VERIFY: its refusals in order, and the record of an accepted verify with the limits taken at its start. -/
def Obligations.CurveVerifyStarts : Prop :=
  ∀ (s : State) (c : Cmd) (p : Position) (i : Instr) (busy : Prop), i = .curveVerify c p → s.Orderly → s.admits i c →
    (busy ↔ s.bus.verify.status = .running ∨ s.longInFlight .verify = true ∨ s.closingOpen = true ∨ s.serviceBranch = some p) →
    (23 < p → exec i s = .next (s.refused i c .range .empty)) ∧
    (p ≤ 23 → (s.act (supplyOf p)).reservedBy ≠ 0 ∨ (s.act (returnOf p)).reservedBy ≠ 0 →
      exec i s = .next (s.refused i c .refusedReserved .empty)) ∧
    (p ≤ 23 → (s.act (supplyOf p)).reservedBy = 0 → (s.act (returnOf p)).reservedBy = 0 →
      ((s.br p).state ≠ .maintenance → exec i s = .next (s.refused i c .branchState .empty)) ∧
      ((s.br p).state = .maintenance → busy → exec i s = .next (s.refused i c .busy .empty)) ∧
      ((s.br p).state = .maintenance → ¬ busy → (s.br p).draw = 0 → s.available < (s.br p).limits.ceiling →
        exec i s = .next (s.refused i c .noBudget .empty)) ∧
      (∀ u, (s.br p).state = .maintenance → ¬ busy → (s.br p).draw ≠ 0 ∨ (s.br p).limits.ceiling ≤ s.available →
        u = (s.taking i c).startVerify c p →
        u.bus.verify = { branch := some p, status := .running, ceiling := (s.br p).limits.ceiling, p0 := (s.br p).limits.p0
                         pfull := (s.br p).limits.pfull, tolerance := s.pol.active.timing.settleTolerance, entries := []
                         frozen := none, step := .openReturn } ∧
        u.longInFlight .verify = true ∧
        (u.br p).draw = (if (s.br p).draw = 0 then (s.br p).limits.ceiling else (s.br p).draw) ∧
        ∃ t, exec i s = .next t ∧ t = u.concluded i c (answer .pending .empty) ∧ t.still = (s.taking i c).still))

/-- BUS_CLEAR: BUSY while one is in progress; else every waiting claim of the ISO, FLOW and SVC queues and every due
tracking poll is dropped, the POLL queue is kept, every move and fault code and VALVE_FAULT ends, the clear list is answered,
and what is not the bus's is left to the jobs alone. -/
def Obligations.BusClearDropsMoves : Prop :=
  ∀ (s : State) (c : Cmd) (i : Instr), i = .busClear c → s.Orderly → s.admits i c →
    (s.bus.clearing ≠ none → exec i s = .next (s.refused i c .busy .empty)) ∧
    (∀ v, s.bus.clearing = none → v = (s.taking i c).clearBus →
      v.bus.isoQ = [] ∧ v.bus.flowQ = [] ∧ v.bus.svcQ = [] ∧ v.bus.trackDue = [] ∧ v.bus.pollQ = s.bus.pollQ ∧
      v.bus.clearing = some { stopSent := false, polls := s.clearList } ∧
      (∀ a, a < 50 → (v.act a).move = none ∧ (v.act a).fault = .none) ∧
      (∀ p, p < 24 → (v.br p).valveFault = false) ∧
      ∃ t, exec i s = .next t ∧
        t = (s.taking i c).busClear.concluded i c (answer .done (.clearCount s.clearList.length)) ∧
        t.frozen = (s.taking i c).frozen)

/-! ### Drip sense, drills and isolation -/

/-- MASK_CHANNEL and UNMASK_CHANNEL: their refusals, the channel record and mask set they leave, the guards derived anew,
and what they leave alone. That a masked channel keeps its onset count, and that its last sample stays through both, is the
model's choice (log 49). -/
def Obligations.MaskAndUnmaskChannel : Prop :=
  ∀ (s : State) (c : Cmd) (ch : ChannelNo), s.Orderly →
    (∀ i, i = .maskChannel c ch → s.admits i c →
      (33 < ch → exec i s = .next (s.refused i c .range .empty)) ∧
      (ch ≤ 33 → s.inOpenEvidence ch = true → exec i s = .next (s.refused i c .isolating .empty)) ∧
      (ch ≤ 33 → s.inOpenEvidence ch = false → (s.chan ch).state = .masked →
        exec i s = .next ((s.taking i c).replied i c (answer .doneWarn .empty))) ∧
      (∀ v, ch ≤ 33 → s.inOpenEvidence ch = false → (s.chan ch).state ≠ .masked →
        v = State.modChan { s.taking i c with pol.maskSet := insertAsc ch s.pol.maskSet } ch
          (fun x => { Channel.reset with state := .masked, onsets := x.onsets, last := x.last }) →
        ∃ t, exec i s = .next t ∧ t = ((s.taking i c).maskChannel ch).concluded i c (answer .done .empty) ∧
          t.still = (v.deriveGuards (v.watchedBy [ch])).still)) ∧
    (∀ i, i = .unmaskChannel c ch → s.admits i c →
      (33 < ch → exec i s = .next (s.refused i c .range .empty)) ∧
      (ch ≤ 33 → (s.chan ch).state ≠ .masked →
        exec i s = .next ((s.taking i c).replied i c (answer .doneWarn .empty))) ∧
      (∀ v, ch ≤ 33 → (s.chan ch).state = .masked →
        v = State.modChan { s.taking i c with pol.maskSet := s.pol.maskSet.erase ch } ch
          (fun x => { x with
            state := .dry, samples := 0, above := 0, realAbove := 0, dryRun := 0, lostRun := 0, onsets := 0
            sitOut := s.sense.inWindow }) →
        ∃ t, exec i s = .next t ∧ t = ((s.taking i c).unmaskChannel ch).concluded i c (answer .done .empty) ∧
          t.still = (v.deriveGuards (v.watchedBy [ch])).still))

/-- START_DRILL: its refusals in order, and the injection it leaves pending on its channel and nowhere else. The time its
answer carries, to the first sample of the first injected window, is the model's reading of R124 (log 19). -/
def Obligations.StartDrillInjects : Prop :=
  ∀ (s : State) (c : Cmd) (ch : ChannelNo) (n : Nat) (i : Instr), i = .startDrill c ch n → s.AtRest → s.admits i c →
    (33 < ch ∨ n = 0 ∨ 60 < n → exec i s = .next (s.refused i c .range .empty)) ∧
    (ch ≤ 33 → 1 ≤ n → n ≤ 60 →
      ((s.chan ch).state = .suspect ∨ (s.chan ch).state = .wet → exec i s = .next (s.refused i c .wetStill .empty)) ∧
      ((s.chan ch).state = .fault ∨ (s.chan ch).state = .masked → exec i s = .next (s.refused i c .branchState .empty)) ∧
      ((s.chan ch).state = .dry → s.drillJob ≠ none ∨ s.injectionOpen = true →
        exec i s = .next (s.refused i c .busy .empty)) ∧
      ((s.chan ch).state = .dry → s.drillJob = none → s.injectionOpen = false →
        exec i s = .next (((s.taking i c).modChan ch (fun x => { x with injected := n, injectPending := true })).replied i c
          (answer .done (.drillStart (s.taking i c).toInjection)))))

/-- CANCEL_DRILL: NOT_FOUND with nothing to cancel; else the answer DONE, the drill job alone leaves the table with its report
CANCELLED and its open targets MISSED, every injection ends with its window judged on real samples, every drill case closes,
and nothing is moved or granted. -/
def Obligations.CancelDrillEndsDrill : Prop :=
  ∀ (s : State) (c : Cmd) (i : Instr), i = .cancelDrill c → s.Orderly → s.admits i c →
    (s.drillJob = none → s.injectionOpen = false → s.drillCaseOpen = false →
      exec i s = .next (s.refused i c .notFound .empty)) ∧
    (s.drillJob ≠ none ∨ s.injectionOpen = true ∨ s.drillCaseOpen = true →
      ∃ t, exec i s = .next t ∧ t.injectionOpen = false ∧ t.drillCaseOpen = false ∧
        t = ((s.taking i c).cancelDrillJob.cancelInjections.cancelCases).concluded i c (answer .done .empty) ∧
        (∀ j, s.drillJob = some j → t.job? j.id = none ∧ (∀ n, n ≠ j.id → t.job? n = s.job? n) ∧
          t.iso = { s.iso with
            slots := t.iso.slots
            report := { s.iso.report with
              status := .cancelled
              entries := s.iso.report.entries.map (fun x => if x.outcome = none then { x with outcome := some .missed } else x) } }) ∧
        (s.drillJob = none → t.iso = s.iso) ∧
        t.sense = { s.sense with channels := t.sense.channels } ∧
        (∀ ch x, ch < 34 → x = s.chan ch → t.chan ch =
          (if 0 < x.injected ∧ x.injectPending = false then { x with injected := 0, above := x.realAbove }
           else { x with injected := 0, injectPending := false })) ∧
        (∀ e x, s.caseAt e = some x → x.drill = false → t.caseAt e = some x) ∧
        t.branches = s.branches ∧ t.bus = s.bus ∧ t.arb = s.arb ∧ t.pol = s.pol ∧ t.store = s.store)

/-- WARN_ACK: its answer by the warning of the branch and the phase of its job, the acknowledged warning, the latency of
a drill, and the end of NOTIFY with the last open warning. That an ACKED warning is answered LATE in SIMULATE is the model's
choice between R150 and R167 (log 66). -/
def Obligations.WarnAckAnswersByWarning : Prop :=
  ∀ (s : State) (c : Cmd) (p : Position) (i : Instr), i = .warnAck c → s.Orderly → s.admits i c → s.boundBranch c = some p →
    ((∀ j, j ∈ s.jobs → j.hasTarget p = false) → exec i s = .next ((s.taking i c).replied i c (answer .late .empty))) ∧
    (∀ j x, s.jobs.find? (fun j => j.hasTarget p) = some j → j.targets.find? (fun t => t.pos = p) = some x →
      (x.warning = .acked → j.phase ≠ .simulate →
        exec i s = .next ((s.taking i c).replied i c (answer .doneWarn .empty))) ∧
      (x.warning = .acked → j.phase = .simulate → exec i s = .next ((s.taking i c).replied i c (answer .late .empty))) ∧
      (x.warning = .expired → exec i s = .next ((s.taking i c).replied i c (answer .late .empty))) ∧
      (x.warning = .none → j.phase ≠ .notify → exec i s = .next ((s.taking i c).replied i c (answer .late .empty))) ∧
      (∀ v, v = State.recordAck ((s.taking i c).modJob j.id (fun j => j.modTarget p (fun t => { t with warning := .acked }))) j p →
        (x.warning = .none → j.phase = .notify → exec i s = .next (v.replied i c (answer .done .empty))) ∧
        (∀ k, x.warning = .opened → j.phase = .notify → v.job? j.id = some k →
          (k.warningOpen = true → exec i s = .next (v.replied i c (answer .done .empty))) ∧
          (k.warningOpen = false → ∃ t, exec i s = .next t ∧ t = (v.endNotify j.id).concluded i c (answer .done .empty) ∧
            t.frozen = (s.taking i c).frozen))))

/-- RELEASE_ISOLATION: its refusals in order, and the branch it sends to MAINTENANCE, free of job, latch and
reservation. The order of the two claims that close its valves is the model's choice (log 68). -/
def Obligations.ReleaseIsolationFreesBranch : Prop :=
  ∀ (s : State) (c : Cmd) (p : Position) (i : Instr), i = .releaseIsolation c p → s.Orderly → s.admits i c →
    (23 < p → exec i s = .next (s.refused i c .range .empty)) ∧
    (p ≤ 23 → (s.br p).state ≠ .isolated → (s.br p).state ≠ .isolating →
      exec i s = .next (s.refused i c .branchState .empty)) ∧
    (p ≤ 23 → (s.br p).state = .isolated ∨ (s.br p).state = .isolating →
      (s.job? (s.br p).job = none → exec i s = .next (s.refused i c .isolating .empty)) ∧
      (∀ j, s.job? (s.br p).job = some j →
        (j.phase ≠ .hold → exec i s = .next (s.refused i c .isolating .empty)) ∧
        (∀ w, j.phase = .hold → s.wetCause j [p] = some w → exec i s = .next (s.refused i c .wetStill (.wet w))) ∧
        (∀ v u, j.phase = .hold → s.wetCause j [p] = none → v = (s.taking i c).releaseBranch p →
          u = ((v.pass [] []).removeTarget j.id p).removeIfEmpty j.id →
          (v.br p).state = .maintenance ∧ (v.br p).job = 0 ∧ (v.br p).latched = false ∧ (v.br p).maint = true ∧
          (v.br p).drive = 0 ∧ (v.act (supplyOf p)).reservedBy = 0 ∧ (v.act (returnOf p)).reservedBy = 0 ∧
          (u.br p).state = .maintenance ∧ (∀ k, u.job? j.id = some k → k.hasTarget p = false) ∧
          ∃ t, exec i s = .next t ∧ t = u.concluded i c (answer .done .empty) ∧ t.frozen = (s.taking i c).frozen)))

/-- RELEASE_TRUNK: its refusals in order, and the trunk of the rack job given up: latch cleared, reservation
dropped, and ISO claims placed that move actuator 49 and then actuator 48 to 1000. -/
def Obligations.ReleaseTrunkOpensTrunk : Prop :=
  ∀ (s : State) (c : Cmd) (i : Instr), i = .releaseTrunk c → s.Orderly → s.admits i c →
    (s.rackJob = none → exec i s = .next (s.refused i c .notFound .empty)) ∧
    (∀ j, s.rackJob = some j →
      (j.trunk = none → exec i s = .next (s.refused i c .notFound .empty)) ∧
      (j.trunk ≠ none → j.phase ≠ .hold → exec i s = .next (s.refused i c .isolating .empty)) ∧
      (∀ w, j.trunk ≠ none → j.phase = .hold → s.wetCause j (j.targets.map (fun t => t.pos)) = some w →
        exec i s = .next (s.refused i c .wetStill (.wet w))) ∧
      (j.trunk ≠ none → j.phase = .hold → s.wetCause j (j.targets.map (fun t => t.pos)) = none →
        (∀ x, j.targets.find? (fun t => t.supply ≠ .ok) = some x →
          exec i s = .next (s.refused i c .branchState (.position x.pos))) ∧
        (∀ u, (∀ x, x ∈ j.targets → x.supply = .ok) → u = (s.taking i c).releaseTrunk j →
          u.store.trunkLatch = false ∧ (∀ k, u.job? j.id = some k → k.trunk = none) ∧
          (u.act 48).reservedBy = 0 ∧ (u.act 49).reservedBy = 0 ∧
          (∃ w : State, w.bus.isoQ = s.bus.isoQ ∧ w.bus.line = s.bus.line ∧ (w.act 48).reservedBy = 0 ∧ (w.act 49).reservedBy = 0 ∧
            u = ((w.placeIso 49 1000 .trunkOpening).placeIso 48 1000 .trunkOpening).removeIfEmpty j.id) ∧
          (s.bus.line ≠ .free → (∀ x, x ∈ s.bus.isoQ → x.actuator ≠ 48 ∧ x.actuator ≠ 49) →
            u.bus.isoQ = s.bus.isoQ ++
              [{ actuator := 49, target := 1000, client := .trunkOpening, madeAt := max s.now c.time },
               { actuator := 48, target := 1000, client := .trunkOpening, madeAt := max s.now c.time }]) ∧
          ∃ t, exec i s = .next t ∧ t = u.concluded i c (answer .done .empty) ∧ t.frozen = (s.taking i c).frozen)))

/-! ### Requesters and the part -/

/-- IDENTIFY is answered to any station with the identity of the part, whatever WANT_REPLY says, and changes nothing; a
broadcast frame that carries it is for the part. The vendor code and the revision are open values of the model (log 11), and
the level of the commissioning line shown is the debounced one, its reading (log 50). -/
def Obligations.IdentifyAnswersAnyStation : Prop :=
  (∀ (s : State) (f : RawFrame), f.etype = 0x9A34#16 → f.dest = 0xFFFFFFFFFFFF#48 →
    carriesIdentify (headerOf f.payload) = true → s.addressed f = true) ∧
  ∀ (s : State) (c : Cmd) (i : Instr), i = .identify c → s.AtRest → s.takes i → c.lengthOk = true →
    exec i s = .next (State.transmit { s.taking i c with
      link.replies := s.link.replies ++ [{
        dest := c.src, code := 26, tag := c.tag, status := .done, reason := .none, first := true, more := false
        ofTaken := true
        body := .identity {
          vendor := Config.vendorCode, part := 2434, revision := Config.revision, addr := s.stationAddr, branches := 24
          actuators := 50, channels := 34, ordinarySlots := 8, rackSlots := 1, entries := 32
          sender := (s.entryOf c.src).bind (fun k => (s.requester k).map (fun r => (k, r.role)))
          commissioning := s.commissioning.debounced } }] })

/-- BIND_REQUESTER and UNBIND_REQUESTER: their refusals, the entry they write or empty, and the bound requester field of
the branches, with all else left alone. That a bad mask is refused before the limits of the table are checked is the model's
choice (log 71). -/
def Obligations.BindAndUnbindRequester : Prop :=
  ∀ (s : State) (c : Cmd), s.Orderly →
    (∀ addr role br mask i, i = .bindRequester c addr role br mask → s.admits i c →
      (s.bindRole addr role br mask = none → exec i s = .next (s.refused i c .range .empty)) ∧
      (∀ r k, s.bindRole addr role br mask = some r → s.clash addr r br = some k →
        exec i s = .next (s.refused i c .busy (.entry k))) ∧
      (∀ r, s.bindRole addr role br mask = some r → s.clash addr r br = none → s.entryOf addr = none → s.emptyEntry = none →
        exec i s = .next (s.refused i c .busy .noEntry)) ∧
      (∀ r k, s.bindRole addr role br mask = some r → s.clash addr r br = none → (s.entryOf addr).or s.emptyEntry = some k →
        ∃ t, exec i s = .next t ∧ t = ((s.taking i c).bindEntry k addr r br (mask.getD 0x7FFF#16)).replied i c (answer .done (.entry k)) ∧
          (∃ q, t.requester k = some q ∧ q.addr = addr ∧ q.role = r ∧ q.branch = br ∧ q.mask = mask.getD 0x7FFF#16) ∧
          (∀ m, m ≠ k → t.requester m = s.requester m) ∧ (∀ p, br = some p → (t.br p).boundTo = some k) ∧
          (∀ q p, s.requester k = some q → q.branch = some p → br ≠ some p → p < 24 → (t.br p).boundTo = none) ∧
          (∀ p, br ≠ some p → (∀ q, s.requester k = some q → q.branch ≠ some p) → t.br p = s.br p) ∧
          t.bus = s.bus ∧ t.arb = s.arb ∧ t.pol = s.pol ∧ t.store = s.store)) ∧
    (∀ n i, i = .unbindRequester c n → s.admits i c →
      (31 < n → exec i s = .next (s.refused i c .range .empty)) ∧
      (n ≤ 31 → s.requester n = none → exec i s = .next (s.refused i c .notFound .empty)) ∧
      (∀ r, n ≤ 31 → s.requester n = some r →
        exec i s = .next (State.replied (((s.taking i c).setRequester n none).setBound r.branch none) i c (answer .done .empty))))

/-- SET_NOTICES and SET_TELEMETRY: the mask or mode of the sender's entry, answered by the mode held and the mode asked
for. That a count beside OFF, STREAM or SNAPSHOT is ignored is the model's reading (log 8). -/
def Obligations.SetNoticesAndTelemetry : Prop :=
  ∀ (s : State) (c : Cmd) (k : Nat) (r : Requester), s.AtRest → s.entryOf c.src = some k → s.requester k = some r →
    (∀ mask i, i = .setNotices c mask → s.admits i c →
      (mask.getLsbD 15 = true → exec i s = .next (s.refused i c .range .empty)) ∧
      (mask.getLsbD 15 = false →
        exec i s = .next (((s.taking i c).setRequester k (some { r with mask := mask })).replied i c (answer .done (.mask mask))))) ∧
    (∀ mode n i, i = .setTelemetry c mode n → s.admits i c →
      (3 < mode ∨ (mode = 3 ∧ (n = 0 ∨ 255 < n)) → exec i s = .next (s.refused i c .range .empty)) ∧
      (∀ x st, (mode = 0 ∧ x = .off ∧ st = .done) ∨ (mode = 1 ∧ x = .stream ∧ st = .done) ∨
          (mode = 2 ∧ (r.telemetry = .off ∨ r.telemetry = .snapshot) ∧ x = .snapshot ∧ st = .done) ∨
          (mode = 2 ∧ (r.telemetry = .stream ∨ ∃ m, r.telemetry = .counted m) ∧ x = r.telemetry ∧ st = .doneWarn) ∨
          (mode = 3 ∧ 1 ≤ n ∧ n ≤ 255 ∧ (r.telemetry = .off ∨ ∃ m, r.telemetry = .counted m) ∧ x = .counted n ∧ st = .done) ∨
          (mode = 3 ∧ 1 ≤ n ∧ n ≤ 255 ∧ (r.telemetry = .stream ∨ r.telemetry = .snapshot) ∧ x = r.telemetry ∧
            st = .doneWarn) →
        exec i s = .next (((s.taking i c).setRequester k (some { r with telemetry := x })).replied i c (answer st .empty))))

/-- RESTART is answered DONE and lets the link take no further command until the reset. -/
def Obligations.RestartShutsTheLink : Prop :=
  ∀ (s : State) (c : Cmd) (i : Instr), i = .restart c → s.AtRest → s.admits i c →
    ∃ t, exec i s = .next t ∧ t = State.replied { s.taking i c with link.restarting := true } i c (answer .done .empty) ∧
      t.linkReady = false

/-- The eleven reads change nothing but their answer, which is made of the values at their taking; READ_POLICY refuses a
copy it does not know (log 32). -/
def Obligations.ReadsChangeNothing : Prop :=
  ∀ (s : State) (c : Cmd), s.AtRest →
    (∀ i u, i = .readBranches c → s.admits i c → u = s.taking i c → exec i s = .next (u.replied i c (readAnswer u.branchBodies))) ∧
    (∀ i u, i = .readSupply c → s.admits i c → u = s.taking i c →
      exec i s = .next (u.replied i c (answer .done (.supply u.supplyView)))) ∧
    (∀ i u, i = .readPending c → s.admits i c → u = s.taking i c →
      exec i s = .next (u.replied i c (answer .done (if u.arb.queue = [] then .empty else .pending u.pendingView)))) ∧
    (∀ i u, i = .readPolicy c 0 → s.admits i c → u = s.taking i c →
      exec i s = .next (u.replied i c (readAnswer (u.policyBodies s.pol.staged)))) ∧
    (∀ i u, i = .readPolicy c 1 → s.admits i c → u = s.taking i c →
      exec i s = .next (u.replied i c (readAnswer (u.policyBodies s.pol.active)))) ∧
    (∀ i n, i = .readPolicy c n → s.admits i c → 1 < n → exec i s = .next (s.refused i c .range .empty)) ∧
    (∀ i u, i = .readActuators c → s.admits i c → u = s.taking i c →
      exec i s = .next (u.replied i c (readAnswer u.actuatorBodies))) ∧
    (∀ i u, i = .readVerify c → s.admits i c → u = s.taking i c →
      exec i s = .next (u.replied i c (answer .done (.verify s.bus.verify)))) ∧
    (∀ i u, i = .readChannels c → s.admits i c → u = s.taking i c →
      exec i s = .next (u.replied i c (readAnswer ((chunks 16 3 (Config.channels.map u.channelView)).map .channels)))) ∧
    (∀ i u, i = .readCases c → s.admits i c → u = s.taking i c →
      exec i s = .next (u.replied i c (answer .done (if u.caseViews = [] then .empty else .cases u.caseViews)))) ∧
    (∀ i u, i = .readJobs c → s.admits i c → u = s.taking i c → exec i s = .next (u.replied i c (readAnswer u.jobBodies))) ∧
    (∀ i u, i = .readDrillReport c → s.admits i c → u = s.taking i c →
      exec i s = .next (u.replied i c (answer .done (.drillReport s.iso.report)))) ∧
    (∀ i u, i = .readRequesters c → s.admits i c → u = s.taking i c →
      exec i s = .next (u.replied i c (readAnswer u.requesterBodies)))

/-! ### Flow measurement -/

/-- MEASUREMENT_WINDOW_EXPIRY: the counter advances and wraps, the next window takes the length of the active policy,
every branch gets its measured flows, its meters are judged for silence, its settling and its imbalance are judged, every
pulse count begins anew, and the telemetry modes count down. A branch whose drive the event has changed by its end has lost
its settling by that. -/
def Obligations.WindowExpiryMeasures : Prop :=
  ∀ s : State, s.Orderly → s.powered = true →
    ∃ t, exec .measurementWindowExpiry s = .next t ∧ t.now = max s.now s.window.deadline ∧
      t.window.counter = (if s.window.counter = 255 then 0 else s.window.counter + 1) ∧
      t.window.deadline = s.window.deadline + s.pol.active.timing.measurementWindow ∧
      t.window.length = s.pol.active.timing.measurementWindow ∧
      (∀ p, p < 24 →
        (0 < (s.br p).limits.kSupply * s.window.length →
          (t.br p).measuredSupply = min 600 ((s.br p).supplyMeter.pulses * 600000 / ((s.br p).limits.kSupply * s.window.length))) ∧
        (0 < (s.br p).limits.kReturn * s.window.length →
          (t.br p).measuredReturn = min 600 ((s.br p).returnMeter.pulses * 600000 / ((s.br p).limits.kReturn * s.window.length))) ∧
        (t.br p).limits = (s.br p).limits ∧ (t.br p).overdue = (s.br p).overdue ∧ (t.br p).boundTo = (s.br p).boundTo) ∧
      -- the meters of a branch (R94, R108)
      (∀ p flowing, p < 24 →
        (flowing ↔ 0 < (s.br p).drive ∧ (∃ q, (s.act (supplyOf p)).position = some q ∧ 100 ≤ q) ∧
          ∃ q, (s.act (returnOf p)).position = some q ∧ 100 ≤ q) →
        (∀ m n, (m = (s.br p).supplyMeter ∧ n = (t.br p).supplyMeter) ∨ (m = (s.br p).returnMeter ∧ n = (t.br p).returnMeter) →
          n.pulses = 0 ∧
          (m.marked = false → ¬ flowing ∨ 0 < m.pulses → n.marked = false ∧ n.silentRun = 0) ∧
          (m.marked = false → flowing → m.pulses = 0 →
            (m.silentRun < 4 → n.marked = false ∧ n.silentRun = m.silentRun + 1) ∧
            (4 ≤ m.silentRun → n.marked = true ∧ n.silentRun = 0 ∧ n.liveRun = 0)) ∧
          (m.marked = true → m.pulses = 0 → n.marked = true ∧ n.liveRun = 0) ∧
          (m.marked = true → 0 < m.pulses →
            (m.liveRun = 0 → n.marked = true ∧ n.liveRun = 1) ∧
            (1 ≤ m.liveRun → n.marked = false ∧ n.silentRun = 0 ∧ n.liveRun = 0))) ∧
        ((t.br p).meterFault = true ↔ (t.br p).supplyMeter.marked = true ∨ (t.br p).returnMeter.marked = true)) ∧
      -- the settling of a branch (R97)
      (∀ p calm count, p < 24 → count = s.pol.active.timing.settleCount →
        (calm ↔ (s.br p).driveChanged = false ∧ (s.act (supplyOf p)).moving = false ∧ (s.act (returnOf p)).moving = false ∧
          ((s.br p).drive = 0 → (t.br p).measuredSupply ≤ 2) ∧
          ((s.br p).drive ≠ 0 →
            (t.br p).measuredSupply ≤ (s.br p).drive + s.pol.active.timing.settleTolerance * (s.br p).drive / 100 ∧
            (s.br p).drive ≤ (t.br p).measuredSupply + s.pol.active.timing.settleTolerance * (s.br p).drive / 100)) →
        ((t.br p).driveChanged = true ∨ ¬ calm → (t.br p).settleRun = 0 ∧ (t.br p).settled = false) ∧
        ((t.br p).driveChanged = false → calm →
          (t.br p).settleRun = (if (s.br p).settleRun < count then (s.br p).settleRun + 1 else (s.br p).settleRun) ∧
          (t.br p).settled = ((s.br p).settled || decide (count ≤ (s.br p).settleRun + 1)))) ∧
      -- the imbalance of a branch (R109, R110)
      (∀ p exceeds windows, p < 24 → windows = s.pol.active.timing.imbalanceWindows →
        (exceeds ↔ (t.br p).measuredReturn + s.pol.active.timing.imbalanceThreshold < (t.br p).measuredSupply) →
        ((t.br p).meterFault = true ∨ (s.br p).drive = 0 →
          (t.br p).imbalance = false ∧ (t.br p).imbalanceRun = 0 ∧ (t.br p).clearRun = 0) ∧
        ((t.br p).meterFault = false → 0 < (s.br p).drive →
          (s.br p).drive < 50 ∨ (s.act (supplyOf p)).moving = true ∨ (s.act (returnOf p)).moving = true →
          (t.br p).imbalance = (s.br p).imbalance ∧ (t.br p).imbalanceRun = (s.br p).imbalanceRun ∧
          (t.br p).clearRun = (s.br p).clearRun) ∧
        ((t.br p).meterFault = false → 50 ≤ (s.br p).drive → (s.act (supplyOf p)).moving = false →
          (s.act (returnOf p)).moving = false →
          ((s.br p).imbalance = false → exceeds → (s.br p).imbalanceRun + 1 < windows →
            (t.br p).imbalance = false ∧ (t.br p).imbalanceRun = (s.br p).imbalanceRun + 1) ∧
          ((s.br p).imbalance = false → exceeds → windows ≤ (s.br p).imbalanceRun + 1 →
            (t.br p).imbalance = true ∧ (t.br p).imbalanceRun = 0 ∧ (t.br p).clearRun = 0) ∧
          ((s.br p).imbalance = false → ¬ exceeds → (t.br p).imbalance = false ∧ (t.br p).imbalanceRun = 0) ∧
          ((s.br p).imbalance = true → ¬ exceeds → (s.br p).clearRun + 1 < windows →
            (t.br p).imbalance = true ∧ (t.br p).clearRun = (s.br p).clearRun + 1) ∧
          ((s.br p).imbalance = true → ¬ exceeds → windows ≤ (s.br p).clearRun + 1 →
            (t.br p).imbalance = false ∧ (t.br p).imbalanceRun = 0 ∧ (t.br p).clearRun = 0) ∧
          ((s.br p).imbalance = true → exceeds → 0 < windows → (t.br p).imbalance = true ∧ (t.br p).clearRun = 0))) ∧
      -- the telemetry modes (R184)
      (∀ k r, k < 32 → s.requester k = some r → ∃ q, t.requester k = some q ∧
        q.addr = r.addr ∧ q.role = r.role ∧ q.branch = r.branch ∧ q.mask = r.mask ∧
        (r.telemetry = .off ∨ r.telemetry = .snapshot → q.telemetry = .off) ∧
        (r.telemetry = .stream → q.telemetry = .stream) ∧
        (∀ n, r.telemetry = .counted n → q.telemetry = (if n ≤ 1 then .off else .counted (n - 1)))) ∧
      t.pol = s.pol ∧ t.sense = s.sense

/-- METER_PULSE adds one to the count of its meter and changes nothing else. -/
def Obligations.MeterPulseCounts : Prop :=
  ∀ (s : State) (t : Time) (p : Position), s.powered = true → p < 24 →
    exec (.meterPulse t p) s = .next ((s.advance t).modBr p (fun b => { b with
      supplyMeter := { b.supplyMeter with pulses := b.supplyMeter.pulses + 1 } })) ∧
    exec (.meterPulse t (p + 24)) s = .next ((s.advance t).modBr p (fun b => { b with
      returnMeter := { b.returnMeter with pulses := b.returnMeter.pulses + 1 } }))

/-! ### Drip sense and localization -/

/-- SENSE_SAMPLE_EVENT and SENSE_WINDOW_END: every channel records its sample, the sample count and the window advance,
three lost samples bring FAULT and end the injection, and a window end makes a channel that takes part WET, SUSPECT or DRY: by
its count with no injection running and no drill mark, by its real count in an injected window and at the end of a drill mark.
An injection still pending leaves the window in progress to the channel's own samples; the first sample of the next window
takes the pending mark away, and that window is injected. A channel that sits out its window keeps its state to the window end
and takes part from then on; one in FAULT leaves it for DRY with the tenth sound sample of a window. That SENSE_WINDOW_END ends
the window at any sample index, and that the pending mark goes with that first sample, are the model's reading (log 19). -/
def Obligations.SamplesClassifyChannels : Prop :=
  ∀ (s : State) (l : List Sample), s.Orderly → s.powered = true → l.length = 34 →
    ∃ t u, exec (.senseSampleEvent l) s = .next t ∧ exec (.senseWindowEnd l) s = .next u ∧
      t.sense.index = (if 9 ≤ s.sense.index then 0 else s.sense.index + 1) ∧ u.sense.index = 0 ∧
      t.sense.inWindow = decide (s.sense.index < 9) ∧ u.sense.inWindow = false ∧
      t.sense.nextAt = s.sense.nextAt + 100 ∧ u.sense.nextAt = s.sense.nextAt + 100 ∧
      u.sense.lastEnd = max s.now s.sense.nextAt ∧ (s.sense.index < 9 → t.sense.lastEnd = s.sense.lastEnd) ∧
      (9 ≤ s.sense.index → t = u) ∧
      (∀ ch x k h n r injecting, ch < 34 → l[ch]? = some x → k = s.pol.active.classOf (channelClass ch) →
        h = (if x.sound = true ∧ k.threshold ≤ x.code then 1 else 0) → n = (s.chan ch).above + h →
        r = (s.chan ch).realAbove + h →
        -- the window of the sample is injected: an injection has begun, or begins with this sample (R124)
        (injecting ↔ 0 < (s.chan ch).injected ∧ ((s.chan ch).injectPending = false ∨ s.sense.inWindow = false)) →
        (t.chan ch).last = some x ∧ (u.chan ch).last = some x ∧
        (∀ v, v = t ∨ v = u → (s.chan ch).state = .dry ∨ (s.chan ch).state = .suspect ∨ (s.chan ch).state = .wet →
          x.sound = false → 2 ≤ (s.chan ch).lostRun →
          (v.chan ch).state = .fault ∧ (v.chan ch).injected = 0 ∧ (v.chan ch).injectPending = false ∧
          (v.chan ch).drill = false) ∧
        ((s.chan ch).state = .dry ∨ (s.chan ch).state = .suspect → x.sound = true ∨ (s.chan ch).lostRun < 2 →
          (s.chan ch).sitOut = false → (s.chan ch).drill = false → ¬ injecting →
          (u.chan ch).state = (if k.confirm ≤ n then .wet else if 0 < n then .suspect else .dry) ∧
          (s.sense.index < 9 → (t.chan ch).state = (s.chan ch).state ∧ (t.chan ch).above = n)) ∧
        ((s.chan ch).state = .wet → x.sound = true ∨ (s.chan ch).lostRun < 2 →
          (s.chan ch).sitOut = false → (s.chan ch).drill = false → ¬ injecting →
          (u.chan ch).state =
            (if n = 0 ∧ s.pol.active.timing.dryWindows ≤ (s.chan ch).dryRun + 1 then .dry else .wet)) ∧
        -- a channel that sits out its window (R122)
        ((s.chan ch).state = .dry ∨ (s.chan ch).state = .suspect ∨ (s.chan ch).state = .wet →
          x.sound = true ∨ (s.chan ch).lostRun < 2 → (s.chan ch).sitOut = true →
          (u.chan ch).state = (s.chan ch).state ∧ (u.chan ch).sitOut = false ∧
          (s.sense.index < 9 → (t.chan ch).state = (s.chan ch).state ∧ (t.chan ch).sitOut = true)) ∧
        -- a channel in FAULT (R119)
        (∀ m, (s.chan ch).state = .fault → m = (if x.sound = true then (s.chan ch).samples + 1 else 0) →
          (u.chan ch).state = (if m = 10 then .dry else .fault) ∧ (u.chan ch).samples = 0 ∧
          (s.sense.index < 9 → (t.chan ch).state = .fault ∧ (t.chan ch).samples = m)) ∧
        -- an injected window (R125) and the end of a drill mark (R126)
        ((s.chan ch).state = .dry ∨ (s.chan ch).state = .suspect ∨ (s.chan ch).state = .wet →
          x.sound = true ∨ (s.chan ch).lostRun < 2 → (s.chan ch).sitOut = false →
          (injecting →
            (u.chan ch).state = .wet ∧
            (k.confirm ≤ r → (u.chan ch).injected = 0 ∧ (u.chan ch).drill = false) ∧
            (r < k.confirm → (u.chan ch).injected = (s.chan ch).injected - 1 ∧
              (u.chan ch).drill = ((s.chan ch).drill || (s.chan ch).state ≠ .wet)) ∧
            (s.sense.index < 9 → (t.chan ch).state = (s.chan ch).state ∧ (t.chan ch).above = (s.chan ch).above + 1 ∧
              (t.chan ch).realAbove = r)) ∧
          (¬ injecting → (s.chan ch).drill = true →
            (u.chan ch).state = (if k.confirm ≤ r then .wet else if 0 < r then .suspect else .dry) ∧
            (u.chan ch).drill = false)) ∧
        -- the pending mark goes with the first sample of a window, and until then the injection waits whole (R124)
        ((s.chan ch).state = .dry ∨ (s.chan ch).state = .suspect ∨ (s.chan ch).state = .wet →
          x.sound = true ∨ (s.chan ch).lostRun < 2 →
          (∀ v, v = t ∨ v = u → (v.chan ch).injectPending = ((s.chan ch).injectPending && s.sense.inWindow) ∧
            (¬ injecting → (v.chan ch).injected = (s.chan ch).injected)) ∧
          (s.sense.index < 9 → (t.chan ch).injected = (s.chan ch).injected)) ∧
        ((s.chan ch).state = .masked → (t.chan ch).state = .masked ∧ (u.chan ch).state = .masked)) ∧
      t.pol = s.pol ∧ u.pol = s.pol

/-- CASE_DEADLINE_EXPIRY: an open case closes with its request, of level ZONE for a zone and RACK for the base case; an
empty entry lets nothing happen. And the onsets: a rope or base onset opens a case, makes the request of the opening check, or
joins an open case; a rope onset absorbs the open base case; a tray or imbalance onset narrows the cases that hold its
position, or makes a request of its own; drill evidence weakens no real case; and a request without targets is not handed
over. The model's choices and readings are what the notices of several cases show (log 61); that the notice of a case comes
before NO_TARGET (log 23); what becomes of drill evidence beside real evidence, of a base case and a zone that an apply has
emptied, and that a merge carries the whole absorbed list (log 24); and the marks and the order of the entries of active
evidence (log 75). -/
def Obligations.CaseDeadlineMakesRequest : Prop :=
  (∀ (s : State) (e : Nat), s.Orderly → s.powered = true → e ≤ 8 →
    (s.caseAt e = none → exec (.caseDeadlineExpiry e) s = .next s) ∧
    (∀ x v r, s.caseAt e = some x → v = (s.advance x.deadline).setCase e none → r = v.expiryRequest e x →
      r.level = (if e = 8 then .rack else .zone) ∧ r.drill = x.drill ∧ r.origin = .channel x.openedBy ∧
      r.evidence = x.evidence ∧
      r.targets = (if e = 8 then [] else x.candidates.filter (fun p => (s.br p).state ≠ .vacant)) ∧
      ∃ t, exec (.caseDeadlineExpiry e) s = .next t ∧
        t = (v.makeRequest .expired { kind := some (caseKind e), candidates := x.candidates } r).finish ∧
        t.caseAt e = none ∧ t.frozen = v.frozen)) ∧
  -- a rope onset (R133, R136, R139)
  (∀ (s : State) (z : Nat) (d : Bool) (e : Evidence) (ms : List Position) (t : State), s.Sized → z < 8 →
    e = { item := .channel z, drill := d } → ms = s.zoneMembers z → t = s.ropeOnset z d →
    (s.caseAt 8 = none →
      (∀ c, s.caseAt z = some c →
        t = s.setCase z (some { c with evidence := addEvidence c.evidence e, drill := c.drill && d })) ∧
      (s.caseAt z = none → ms = [] →
        t = s.caseNotice .emptyZone { kind := some (.zone z), candidates := [] } d [e] none none) ∧
      (s.caseAt z = none → ms ≠ [] → s.CoarseOnset t z ms z d)) ∧
    (∀ b x, s.caseAt 8 = some b → (d = true → b.drill = true) →
      (∀ c, s.caseAt z = some c → (d = true → c.drill = true) →
        x = { c with evidence := addEvidence (mergeEvidence c.evidence b.evidence) e, drill := c.drill && d } →
        t = ((s.setCase 8 none).setCase z (some x)).caseNotice .absorbed { kind := some (.zone z), candidates := x.candidates }
          x.drill x.evidence (some x.deadline) none) ∧
      (∀ c, s.caseAt z = some c → d = true → c.drill = false →
        t = s.setCase z (some { c with evidence := addEvidence c.evidence e })) ∧
      (s.caseAt z = none → ms = [] → x = { b with evidence := addEvidence b.evidence e, drill := b.drill && d } →
        t = (s.setCase 8 (some x)).caseNotice .emptyZone { kind := some (.zone z), candidates := [] } d [e] none none) ∧
      (∀ u found, s.caseAt z = none → ms ≠ [] →
        x = { b with candidates := ms, evidence := addEvidence b.evidence e, drill := b.drill && d } →
        u = ((s.setCase 8 none).setCase z (some x)).caseNotice .absorbed { kind := some (.zone z), candidates := ms }
          x.drill x.evidence (some x.deadline) none →
        found = ms.filter (s.activeAt x.drill) →
        (found = [] → t = u) ∧
        (found ≠ [] → t = (u.setCase z none).makeRequest .narrowed { kind := some (.zone z), candidates := ms }
          { level := .branch, drill := x.drill, origin := .channel z
            targets := found.filter (fun p => (s.br p).state ≠ .vacant)
            evidence := mergeEvidence x.evidence (s.activeEvidenceOf x.drill found) }))) ∧
    (∀ b x, s.caseAt 8 = some b → d = true → b.drill = false → x = { b with evidence := addEvidence b.evidence e } →
      (s.caseAt z = none → ms ≠ [] → t = s.setCase 8 (some x)) ∧
      (s.caseAt z = none → ms = [] →
        t = (s.setCase 8 (some x)).caseNotice .emptyZone { kind := some (.zone z), candidates := [] } d [e] none none) ∧
      (∀ c, s.caseAt z = some c →
        t = (s.setCase z (some { c with evidence := addEvidence c.evidence e })).setCase 8 (some x)))) ∧
  -- a base onset (R134, R139)
  (∀ (s : State) (ch : ChannelNo) (d : Bool) (e : Evidence) (ps : List Position) (t : State), s.Sized → ch = 32 ∨ ch = 33 →
    e = { item := .channel ch, drill := d } → ps = Config.positions.filter (fun p => (s.br p).state ≠ .vacant) →
    t = s.baseOnset ch d →
    (∀ b, s.caseAt 8 = some b →
      t = s.setCase 8 (some { b with evidence := addEvidence b.evidence e, drill := b.drill && d })) ∧
    (s.caseAt 8 = none → ps = [] →
      t = s.caseNotice .noTarget { kind := some .base, candidates := [] } d [e] none none) ∧
    (s.caseAt 8 = none → ps ≠ [] → s.CoarseOnset t 8 ps ch d)) ∧
  -- a tray or imbalance onset (R135, R139)
  (∀ (s : State) (p : Position) (e : Evidence) (origin : Origin) (all closing : List (Nat × Case)) (t : State), s.Sized →
    s.link.outbound.length ≤ 96 → all = s.casesWith p (fun _ => true) → closing = s.casesWith p (fun c => !e.drill || c.drill) →
    t = s.fineOnset p e origin →
    (∀ k x, (k, x) ∈ closing ↔ k ≤ 8 ∧ s.caseAt k = some x ∧ p ∈ x.candidates ∧ (e.drill = true → x.drill = true)) ∧
    (all = [] → t = s.makeRequest .direct { kind := none, candidates := [] }
      { level := .branch, drill := e.drill, origin := origin
        targets := [p].filter (fun q => (s.br q).state ≠ .vacant), evidence := [e] }) ∧
    (closing = [] → all ≠ [] → ∀ k x, s.caseAt k = some x →
      t.caseAt k = some (if k ≤ 8 ∧ p ∈ x.candidates then { x with evidence := addEvidence x.evidence e } else x)) ∧
    (∀ others r u, closing ≠ [] →
      others = Config.positions.filter (fun n =>
        n ≠ p && closing.any (fun x => x.2.candidates.contains n) && s.activeAt e.drill n) →
      r = ({ level := .branch, drill := e.drill, origin := origin
             targets := (insertAsc p others).filter (fun q => (s.br q).state ≠ .vacant)
             evidence := mergeEvidence
               (addEvidence (closing.foldl (fun l x => mergeEvidence l x.2.evidence) []) e)
               (s.activeEvidenceOf e.drill others) } : IsoRequest) →
      u = closing.foldl (fun s x => (s.setCase x.1 none).caseNotice .narrowed
        { kind := some (caseKind x.1), candidates := x.2.candidates } e.drill x.2.evidence none (some r)) s →
      t = u.handRequest (closingSource closing) r ∧
      ∀ k, t.caseAt k = if (closing.any (fun x => x.1 = k)) = true then none else s.caseAt k)) ∧
  -- a request without targets (R132)
  (∀ (s : State) (src : CaseSource) (r : IsoRequest), r.level ≠ .rack → r.targets = [] →
    s.handRequest src r = s.caseNotice .noTarget src r.drill r.evidence none (some r))

/-! ### Jobs -/

/-- The deadlines of a job: NOTIFY ends with no warning left open, DRAIN ends in the closing of the return side, a retry
places every failed close again, and SIMULATE ends the drill job with its report COMPLETE. A deadline that does not run lets
nothing happen: that of an id no job has, that of another phase than the job's, and any of a job that has none. -/
def Obligations.JobDeadlinesAdvanceJobs : Prop :=
  ∀ (s : State) (n : JobId), s.Orderly → s.powered = true →
    (s.job? n = none →
      exec (.jobPhaseDeadlineExpiry n) s = .next s ∧ exec (.drainDeadlineExpiry n) s = .next s ∧
      exec (.uncontainedRetryExpiry n) s = .next s ∧ exec (.simulateDeadlineExpiry n) s = .next s) ∧
    (∀ j, s.job? n = some j →
      (j.phase ≠ .notify ∨ j.deadline = none → exec (.jobPhaseDeadlineExpiry n) s = .next s) ∧
      (j.phase ≠ .drain ∨ j.deadline = none → exec (.drainDeadlineExpiry n) s = .next s) ∧
      (j.phase ≠ .uncontained ∨ j.deadline = none → exec (.uncontainedRetryExpiry n) s = .next s) ∧
      (j.phase ≠ .simulate ∨ j.deadline = none → exec (.simulateDeadlineExpiry n) s = .next s)) ∧
    (∀ j d, s.job? n = some j → j.deadline = some d →
      (∀ u, j.phase = .notify → u = (s.advance d).endNotify n →
        (∀ k, u.job? n = some k → k.warningOpen = false ∧ k.phase ≠ .notify) ∧
        (∀ k, j.drill = true → u.job? n = some k →
          k.phase = .simulate ∧ k.deadline = some (max s.now d + 1000 * j.drainDelay.getD 0)) ∧
        ∃ t, exec (.jobPhaseDeadlineExpiry n) s = .next t ∧ t = u.finish ∧ t.frozen = (s.advance d).frozen) ∧
      (∀ u, j.phase = .drain → u = (s.advance d).enterCloseReturn n →
        (∀ k, u.job? n = some k → k.phase = .closeReturn ∨ (k.phase = .confirm ∧ k.returnPending = false)) ∧
        ∃ t, exec (.drainDeadlineExpiry n) s = .next t ∧ t = u.finish ∧ t.frozen = (s.advance d).frozen) ∧
      (∀ u, j.phase = .uncontained → (∀ x, x ∈ j.targets → x.pos < 24) → u = (s.advance d).retryCloses j →
        (∀ k, u.job? n = some k → k.failedSupply = [] ∧ k.deadline = some (max s.now d + 5000)) ∧
        ∃ t, exec (.uncontainedRetryExpiry n) s = .next t ∧ t = u.finish ∧ t.frozen = (s.advance d).frozen) ∧
      (j.phase = .simulate →
        ∃ t, exec (.simulateDeadlineExpiry n) s = .next t ∧
          t = (((s.advance d).dropJob n).drillStatus .complete).transmit ∧ t.job? n = none ∧
          t.iso.report.status = .complete))

/-- A branch that joins a job becomes ISOLATING as its target, leaves arbitration, gives up its draw, keeps its drive as
quarantine of the job, and has both its actuators reserved. -/
def Obligations.JoiningIsolatesBranch : Prop :=
  ∀ (s u : State) (n : JobId) (p : Position), s.Sized → p < 24 → u = s.join n p →
    (u.br p).state = .isolating ∧ (u.br p).job = n ∧ (u.br p).draw = 0 ∧ (u.br p).drive = (s.br p).drive ∧
    ((s.br p).state = .active → (u.br p).request = 0 ∧ (u.br p).urgent = false ∧ (u.br p).stamp = none ∧
      (u.br p).cut = none ∧ (u.br p).riseWaiting = false ∧ (u.br p).trim = none) ∧
    (u.act (supplyOf p)).reservedBy = n ∧ (u.act (returnOf p)).reservedBy = n ∧
    (∀ j k, s.job? n = some j → u.job? n = some k →
      k.hasTarget p = true ∧ k.quarantine = j.quarantine + (s.br p).drive) ∧
    (∀ q, q ≠ p → (u.br q).state = (s.br q).state ∧ (u.br q).request = (s.br q).request ∧
      (u.br q).drive = (s.br q).drive ∧ (u.br q).job = (s.br q).job)

/-- The reports of the closes of a job: a completed supply close is OK and stops the drive, a completed return close is
OK, and a return close that fails marks RETURN_OPEN, also when its branch has been released meanwhile (log 70). The trunk
closes are recorded likewise, and the trunk supply close stops every target. A supply close that fails escalates a BRANCH or
ZONE job into the empty rack slot, is transferred to the rack job that stands there, or is judged for containment in a rack
job. -/
def Obligations.ClosesAreRecorded : Prop :=
  (∀ (s : State) (j : Job) (n : JobId) (p : Position), s.Sized → p < 24 → s.job? n = some j → j.hasTarget p = true →
    (∀ u, (s.br p).state = .isolating → u = s.isoReport n (supplyOf p) .complete →
      (u.br p).drive = 0 ∧ ∀ k x, u.job? n = some k → x ∈ k.targets → x.pos = p → x.supply = .ok) ∧
    (∀ u, u = s.isoReport n (returnOf p) .complete →
      ∀ k x, u.job? n = some k → x ∈ k.targets → x.pos = p → x.ret = .ok) ∧
    (∀ f u, u = s.isoReport n (returnOf p) (.failed f) →
      (u.br p).returnOpen = true ∧ ∀ k x, u.job? n = some k → x ∈ k.targets → x.pos = p → x.ret = .failed f)) ∧
  (∀ (s : State) (n : JobId) (p : Position) (f : FaultCode), s.Sized → p < 24 →
    (∀ j, s.job? n = some j → j.hasTarget p = false) → ((s.isoReport n (returnOf p) (.failed f)).br p).returnOpen = true) ∧
  (∀ (s : State) (j : Job) (n : JobId) (y : Trunk), s.Sized → s.JobsInOrder → s.job? n = some j → j.trunk = some y →
    (∀ u, u = s.isoReport n 48 .complete →
      (∀ q, q < 24 → j.hasTarget q = true → (s.br q).state = .isolating → (u.br q).drive = 0) ∧
      ∀ k z, u.job? n = some k → k.trunk = some z → z.supply = .ok) ∧
    (∀ u, u = s.isoReport n 49 .complete → ∀ k z, u.job? n = some k → k.trunk = some z → z.ret = .ok) ∧
    (∀ f u, u = s.isoReport n 48 (.failed f) → ∀ k z, u.job? n = some k → k.trunk = some z → z.supply = .failed f) ∧
    (∀ f u, u = s.isoReport n 49 (.failed f) → ∀ k z, u.job? n = some k → k.trunk = some z → z.ret = .failed f)) ∧
  (∀ (s u : State) (j : Job) (n : JobId) (p : Position) (f : FaultCode), s.Sized → s.JobsInOrder → p < 24 →
    s.job? n = some j → j.drill = false → j.hasTarget p = true → u = s.isoReport n (supplyOf p) (.failed f) →
    (j.level ≠ .rack → s.rackJob = none → ∃ k, u.rackJob = some k ∧ k.id = n ∧ k.level = .rack ∧ k.phase = .notify ∧
      k.deadline = some (s.now + s.pol.active.timing.warnDeadline) ∧ k.trunk = some { supply := .pending, ret := .pending } ∧
      (u.act 48).reservedBy = n ∧ (u.act 49).reservedBy = n ∧
      (∀ x, x ∈ k.targets → x.pos = p → x.supply = .failed f) ∧
      (∀ q, q < 24 → (s.br q).state ≠ .vacant → s.realJobOf q = none → (u.br q).state = .isolating ∧ k.hasTarget q = true)) ∧
    (∀ r, j.level ≠ .rack → s.rackJob = some r → r.id ≠ n → r.drill = false → r.hasTarget p = false →
      u.job? n = none ∧ (u.br p).job = r.id ∧ ∃ k, u.job? r.id = some k ∧ k.trunk ≠ none ∧ k.hasTarget p = true ∧
      k.quarantine = r.quarantine + j.quarantine ∧ (∀ x, x ∈ k.targets → x.pos = p → x.supply = .failed f)) ∧
    (j.level = .rack → ∃ k, u.job? n = some k ∧ (∀ x, x ∈ k.targets → x.pos = p → x.supply = .failed f) ∧
      (j.phase = .drain ∨ j.phase = .closeReturn ∨ j.phase = .confirm ∨ j.phase = .hold →
        (k.contained = true → k.phase = j.phase) ∧
        (k.contained = false → k.phase = .uncontained ∧ k.deadline = some (s.now + 5000)))))

/-- Flow control on the reports of its moves: what a failed, an aborted and a drifted move bring, and the reports that
bring nothing. -/
def Obligations.FlowControlActsOnReports : Prop :=
  ∀ (s : State) (p : Position) (a : ActuatorNo), p < 24 → a = supplyOf p ∨ a = returnOf p →
    s.flowReport a .complete = s ∧ s.flowReport a .superseded = s ∧ s.flowReport a .refusedReserved = s ∧
    (∀ f, s.flowReport a (.failed f) = s.markFault p .valveFault none) ∧
    s.flowReport a .noReply = s.markFault p .valveFault none ∧
    (∀ q, (s.act a).target = some q → s.flowReport a .drift = (s.markFault p .valveFault none).placeFlow a q) ∧
    ((s.act a).reservedBy ≠ 0 → s.flowReport a .aborted = s) ∧
    ((s.act a).reservedBy = 0 →
      (∀ q, (s.br p).state = .active → a = supplyOf p → (s.br p).controlTarget = some q →
        s.flowReport a .aborted = s.placeFlow a q) ∧
      ((s.br p).state = .active → a = returnOf p → s.flowReport a .aborted = s.placeFlow a 1000) ∧
      ((s.br p).state = .vacant ∨ (s.br p).state = .maintenance → s.flowReport a .aborted = s.placeFlow a 0) ∧
      ((s.br p).state = .held ∨ (s.br p).state = .isolating ∨ (s.br p).state = .isolated →
        s.flowReport a .aborted = s)) ∧
    (s.Sized → (((s.markFault p .valveFault none).br p).valveFault = true ∧
      (s.markFault p .valveFault none).arb = s.arb ∧ (s.markFault p .valveFault none).bus = s.bus))

/-! ### Discrete lines -/

/-- LINE_LEVEL_CHANGE and LINE_DEBOUNCE_EXPIRY: a level that differs from the debounced one is taken after 50 ms, and an
asserting edge of the hall line makes a RACK request under its enable. That a part without power
records the level and starts no debounce is the model's choice (log 21). -/
def Obligations.LinesDebounce : Prop :=
  ∀ (s : State) (t : Time) (l : Level) (w : Pin → Pin),
    w = (fun x => if x.level = l then x else
      { level := l, debounced := x.debounced
        deadline := if s.powered = true ∧ l ≠ x.debounced then some (max s.now t + 50) else none }) →
    exec (.lineLevelChange t .hall l) s = .next { s.advance t with hall := w s.hall } ∧
    exec (.lineLevelChange t .commissioning l) s = .next { s.advance t with commissioning := w s.commissioning } ∧
    (∀ d, s.powered = true → s.commissioning.deadline = some d →
      exec (.lineDebounceExpiry .commissioning) s = .next { s.advance d with
        commissioning := { level := s.commissioning.level, debounced := s.commissioning.level, deadline := none } }) ∧
    (s.powered = true → s.commissioning.deadline = none → exec (.lineDebounceExpiry .commissioning) s = .next s) ∧
    (s.powered = true → s.hall.deadline = none → exec (.lineDebounceExpiry .hall) s = .next s) ∧
    (∀ d v, s.powered = true → s.hall.deadline = some d →
      v = { s.advance d with hall := { level := s.hall.level, debounced := s.hall.level, deadline := none } } →
      (s.pol.active.supply.hallEnable = true → s.hall.debounced ≠ s.pol.active.supply.hallPolarity →
        s.hall.level = s.pol.active.supply.hallPolarity →
        exec (.lineDebounceExpiry .hall) s = .next (v.takeRack .hallLine []).finish) ∧
      (s.pol.active.supply.hallEnable = false ∨ s.hall.debounced = s.pol.active.supply.hallPolarity ∨
        s.hall.level ≠ s.pol.active.supply.hallPolarity →
        exec (.lineDebounceExpiry .hall) s = .next v))

/-! ### Valve bus -/

/-- VALVE_REPLY and VALVE_REPLY_TIMEOUT: a valid reply updates the shadow of the actuator; an invalid or a missing one
brings a second attempt, and after it presence ABSENT and NO_REPLY. -/
def Obligations.RepliesUpdateShadows : Prop :=
  ∀ (s : State) (t : Time) (r : ValveReply), s.Orderly → s.powered = true →
    ((∀ x, s.bus.line ≠ .busy x) →
      exec (.valveReply t r) s = .next (s.advance t) ∧ exec .valveReplyTimeout s = .next s) ∧
    (∀ x, s.bus.line = .busy x → x.actuator < 50 →
      (r.checkOk = true → r.actuator = x.actuator →
        (((s.advance t).hear x.actuator r.position r.flags).act x.actuator).present = true ∧
        (((s.advance t).hear x.actuator r.position r.flags).act x.actuator).position = some r.position ∧
        (((s.advance t).hear x.actuator r.position r.flags).act x.actuator).flags = r.flags ∧
        exec (.valveReply t r) s =
          .next (((s.advance t).hear x.actuator r.position r.flags).answered x r.position r.flags).finishLine) ∧
      (x.attempt = 1 → ∀ again : Time → State, (∀ now : Time, again now = State.transmit
          { State.modAct { s with now := now } x.actuator (fun y => { y with lastTx := some now }) with
            bus.line := .busy { x with attempt := 2, sentAt := now } }) →
        (r.checkOk = false ∨ r.actuator ≠ x.actuator → exec (.valveReply t r) s = .next (again (max s.now t))) ∧
        exec .valveReplyTimeout s = .next (again (max s.now (x.sentAt + 20)))) ∧
      (x.attempt ≠ 1 → ∀ lost : Time → State, (∀ now : Time, lost now = State.modAct { s with now := now } x.actuator (fun y => { y with
          present := false, fault := .noReply })) →
        (r.checkOk = false ∨ r.actuator ≠ x.actuator →
          exec (.valveReply t r) s = .next ((lost (max s.now t)).unanswered x).finishLine) ∧
        exec .valveReplyTimeout s = .next ((lost (max s.now (x.sentAt + 20))).unanswered x).finishLine))

/-- The timers of a move and the polls: a move that has not started ends with MISSED_START and one that lasts too long
with STALL, a tracking poll waits for the line, an idle poll becomes a claim, and the STOP frees the line. -/
def Obligations.ValveTimersEndMoves : Prop :=
  ∀ (s : State) (a : ActuatorNo), s.Orderly → s.powered = true → a < 50 →
    ((s.act a).move = none → exec (.startTimerExpiry a) s = .next s ∧ exec (.moveTimerExpiry a) s = .next s) ∧
    (∀ m, (s.act a).move = some m →
      (∀ d, m.startTimer = some d → m.started = true →
        exec (.startTimerExpiry a) s =
          .next ((s.advance d).modAct a (fun x => { x with move := some { m with startTimer := none } })).transmit) ∧
      (∀ d u, m.startTimer = some d → m.started = false → u = (s.advance d).failMove a .missedStart →
        (u.act a).fault = .missedStart ∧ (u.act a).move = none ∧ (u.act a).moving = false ∧
        (u.act a).target = (s.act a).target ∧
        ∃ t, exec (.startTimerExpiry a) s = .next t ∧ t = u.finish ∧ t.frozen = (s.advance d).frozen) ∧
      (∀ u, u = (s.advance m.moveTimer).failMove a .stall →
        (u.act a).fault = .stall ∧ (u.act a).move = none ∧ (u.act a).moving = false ∧
        (u.act a).target = (s.act a).target ∧
        ∃ t, exec (.moveTimerExpiry a) s = .next t ∧ t = u.finish ∧ t.frozen = (s.advance m.moveTimer).frozen)) ∧
    (∀ x, (s.act a).lastTx = some x →
      ((s.act a).moving = true → (s.act a).move ≠ none → s.bus.trackDue.contains a = false → s.lineOn a = false →
        exec (.trackingPollDue a) s = .next (State.finish { s.advance (x + 100) with bus.trackDue := s.bus.trackDue ++ [a] })) ∧
      ((s.act a).moving = false → (s.act a).move = none → s.bus.clearing = none → s.lineOn a = false →
        exec (.idlePollDue a) s = .next ((s.advance (x + 5000)).placePoll a false).finish)) ∧
    (∀ t k, s.bus.line = .stopping → s.bus.clearing = some k → k.polls ≠ [] →
      exec (.stopSent t) s = .next (State.finish { s.advance t with bus.line := .free })) ∧
    (∀ t k, s.bus.line = .stopping → s.bus.clearing = some k → k.polls = [] →
      exec (.stopSent t) s = .next (State.finish { s.advance t with bus.line := .free, bus.clearing := none }))

/-! ### The invariant -/

/-- Every step keeps the sizes and bounds of the tables, floors under ceilings, the order of the jobs, and the rest of the
part between events. -/
def Obligations.StepKeepsOrder : Prop :=
  ∀ s t : State, s.Orderly → step s = .next t → t.Orderly

/-- The state after reset is orderly and meets the first law. -/
def Obligations.ResetIsOrderly : Prop := State.reset.Orderly ∧ State.reset.GrantsFit
end

