-- ==== Sys2Proof/Laws/State.lean ====
section
/-! SUPPORT. What each update of the state leaves as it was, field by field, and what it makes of the record it changes. -/

namespace Sys2Proof.Machine

/-! ### modBr -/

@[simp] theorem modBr_pending (s : State) (p : Position) (f : Branch → Branch) : (s.modBr p f).pending = s.pending := rfl
@[simp] theorem modBr_now (s : State) (p : Position) (f : Branch → Branch) : (s.modBr p f).now = s.now := rfl
@[simp] theorem modBr_powered (s : State) (p : Position) (f : Branch → Branch) : (s.modBr p f).powered = s.powered := rfl
@[simp] theorem modBr_stationAddr (s : State) (p : Position) (f : Branch → Branch) : (s.modBr p f).stationAddr = s.stationAddr := rfl
@[simp] theorem modBr_hall (s : State) (p : Position) (f : Branch → Branch) : (s.modBr p f).hall = s.hall := rfl
@[simp] theorem modBr_commissioning (s : State) (p : Position) (f : Branch → Branch) : (s.modBr p f).commissioning = s.commissioning := rfl
@[simp] theorem modBr_arb (s : State) (p : Position) (f : Branch → Branch) : (s.modBr p f).arb = s.arb := rfl
@[simp] theorem modBr_pol (s : State) (p : Position) (f : Branch → Branch) : (s.modBr p f).pol = s.pol := rfl
@[simp] theorem modBr_bus (s : State) (p : Position) (f : Branch → Branch) : (s.modBr p f).bus = s.bus := rfl
@[simp] theorem modBr_window (s : State) (p : Position) (f : Branch → Branch) : (s.modBr p f).window = s.window := rfl
@[simp] theorem modBr_sense (s : State) (p : Position) (f : Branch → Branch) : (s.modBr p f).sense = s.sense := rfl
@[simp] theorem modBr_cases (s : State) (p : Position) (f : Branch → Branch) : (s.modBr p f).cases = s.cases := rfl
@[simp] theorem modBr_iso (s : State) (p : Position) (f : Branch → Branch) : (s.modBr p f).iso = s.iso := rfl
@[simp] theorem modBr_link (s : State) (p : Position) (f : Branch → Branch) : (s.modBr p f).link = s.link := rfl
@[simp] theorem modBr_store (s : State) (p : Position) (f : Branch → Branch) : (s.modBr p f).store = s.store := rfl
@[simp] theorem modBr_boot (s : State) (p : Position) (f : Branch → Branch) : (s.modBr p f).boot = s.boot := rfl
@[simp] theorem modBr_work (s : State) (p : Position) (f : Branch → Branch) : (s.modBr p f).work = s.work := rfl

/-! ### modAct -/

@[simp] theorem modAct_pending (s : State) (a : ActuatorNo) (f : Actuator → Actuator) : (s.modAct a f).pending = s.pending := rfl
@[simp] theorem modAct_now (s : State) (a : ActuatorNo) (f : Actuator → Actuator) : (s.modAct a f).now = s.now := rfl
@[simp] theorem modAct_powered (s : State) (a : ActuatorNo) (f : Actuator → Actuator) : (s.modAct a f).powered = s.powered := rfl
@[simp] theorem modAct_stationAddr (s : State) (a : ActuatorNo) (f : Actuator → Actuator) : (s.modAct a f).stationAddr = s.stationAddr := rfl
@[simp] theorem modAct_hall (s : State) (a : ActuatorNo) (f : Actuator → Actuator) : (s.modAct a f).hall = s.hall := rfl
@[simp] theorem modAct_commissioning (s : State) (a : ActuatorNo) (f : Actuator → Actuator) : (s.modAct a f).commissioning = s.commissioning := rfl
@[simp] theorem modAct_branches (s : State) (a : ActuatorNo) (f : Actuator → Actuator) : (s.modAct a f).branches = s.branches := rfl
@[simp] theorem modAct_arb (s : State) (a : ActuatorNo) (f : Actuator → Actuator) : (s.modAct a f).arb = s.arb := rfl
@[simp] theorem modAct_pol (s : State) (a : ActuatorNo) (f : Actuator → Actuator) : (s.modAct a f).pol = s.pol := rfl
@[simp] theorem modAct_window (s : State) (a : ActuatorNo) (f : Actuator → Actuator) : (s.modAct a f).window = s.window := rfl
@[simp] theorem modAct_sense (s : State) (a : ActuatorNo) (f : Actuator → Actuator) : (s.modAct a f).sense = s.sense := rfl
@[simp] theorem modAct_cases (s : State) (a : ActuatorNo) (f : Actuator → Actuator) : (s.modAct a f).cases = s.cases := rfl
@[simp] theorem modAct_iso (s : State) (a : ActuatorNo) (f : Actuator → Actuator) : (s.modAct a f).iso = s.iso := rfl
@[simp] theorem modAct_link (s : State) (a : ActuatorNo) (f : Actuator → Actuator) : (s.modAct a f).link = s.link := rfl
@[simp] theorem modAct_store (s : State) (a : ActuatorNo) (f : Actuator → Actuator) : (s.modAct a f).store = s.store := rfl
@[simp] theorem modAct_boot (s : State) (a : ActuatorNo) (f : Actuator → Actuator) : (s.modAct a f).boot = s.boot := rfl
@[simp] theorem modAct_work (s : State) (a : ActuatorNo) (f : Actuator → Actuator) : (s.modAct a f).work = s.work := rfl
@[simp] theorem modAct_bus_isoQ (s : State) (a : ActuatorNo) (f : Actuator → Actuator) : (s.modAct a f).bus.isoQ = s.bus.isoQ := rfl
@[simp] theorem modAct_bus_flowQ (s : State) (a : ActuatorNo) (f : Actuator → Actuator) : (s.modAct a f).bus.flowQ = s.bus.flowQ := rfl
@[simp] theorem modAct_bus_svcQ (s : State) (a : ActuatorNo) (f : Actuator → Actuator) : (s.modAct a f).bus.svcQ = s.bus.svcQ := rfl
@[simp] theorem modAct_bus_pollQ (s : State) (a : ActuatorNo) (f : Actuator → Actuator) : (s.modAct a f).bus.pollQ = s.bus.pollQ := rfl
@[simp] theorem modAct_bus_trackDue (s : State) (a : ActuatorNo) (f : Actuator → Actuator) : (s.modAct a f).bus.trackDue = s.bus.trackDue := rfl
@[simp] theorem modAct_bus_line (s : State) (a : ActuatorNo) (f : Actuator → Actuator) : (s.modAct a f).bus.line = s.bus.line := rfl
@[simp] theorem modAct_bus_clearing (s : State) (a : ActuatorNo) (f : Actuator → Actuator) : (s.modAct a f).bus.clearing = s.bus.clearing := rfl
@[simp] theorem modAct_bus_service (s : State) (a : ActuatorNo) (f : Actuator → Actuator) : (s.modAct a f).bus.service = s.bus.service := rfl
@[simp] theorem modAct_bus_verify (s : State) (a : ActuatorNo) (f : Actuator → Actuator) : (s.modAct a f).bus.verify = s.bus.verify := rfl
@[simp] theorem modAct_bus_closing (s : State) (a : ActuatorNo) (f : Actuator → Actuator) : (s.modAct a f).bus.closing = s.bus.closing := rfl
@[simp] theorem modAct_bus_reports (s : State) (a : ActuatorNo) (f : Actuator → Actuator) : (s.modAct a f).bus.reports = s.bus.reports := rfl

/-! ### modChan -/

@[simp] theorem modChan_pending (s : State) (c : ChannelNo) (f : Channel → Channel) : (s.modChan c f).pending = s.pending := rfl
@[simp] theorem modChan_now (s : State) (c : ChannelNo) (f : Channel → Channel) : (s.modChan c f).now = s.now := rfl
@[simp] theorem modChan_powered (s : State) (c : ChannelNo) (f : Channel → Channel) : (s.modChan c f).powered = s.powered := rfl
@[simp] theorem modChan_stationAddr (s : State) (c : ChannelNo) (f : Channel → Channel) : (s.modChan c f).stationAddr = s.stationAddr := rfl
@[simp] theorem modChan_hall (s : State) (c : ChannelNo) (f : Channel → Channel) : (s.modChan c f).hall = s.hall := rfl
@[simp] theorem modChan_commissioning (s : State) (c : ChannelNo) (f : Channel → Channel) : (s.modChan c f).commissioning = s.commissioning := rfl
@[simp] theorem modChan_branches (s : State) (c : ChannelNo) (f : Channel → Channel) : (s.modChan c f).branches = s.branches := rfl
@[simp] theorem modChan_arb (s : State) (c : ChannelNo) (f : Channel → Channel) : (s.modChan c f).arb = s.arb := rfl
@[simp] theorem modChan_pol (s : State) (c : ChannelNo) (f : Channel → Channel) : (s.modChan c f).pol = s.pol := rfl
@[simp] theorem modChan_bus (s : State) (c : ChannelNo) (f : Channel → Channel) : (s.modChan c f).bus = s.bus := rfl
@[simp] theorem modChan_window (s : State) (c : ChannelNo) (f : Channel → Channel) : (s.modChan c f).window = s.window := rfl
@[simp] theorem modChan_cases (s : State) (c : ChannelNo) (f : Channel → Channel) : (s.modChan c f).cases = s.cases := rfl
@[simp] theorem modChan_iso (s : State) (c : ChannelNo) (f : Channel → Channel) : (s.modChan c f).iso = s.iso := rfl
@[simp] theorem modChan_link (s : State) (c : ChannelNo) (f : Channel → Channel) : (s.modChan c f).link = s.link := rfl
@[simp] theorem modChan_store (s : State) (c : ChannelNo) (f : Channel → Channel) : (s.modChan c f).store = s.store := rfl
@[simp] theorem modChan_boot (s : State) (c : ChannelNo) (f : Channel → Channel) : (s.modChan c f).boot = s.boot := rfl
@[simp] theorem modChan_work (s : State) (c : ChannelNo) (f : Channel → Channel) : (s.modChan c f).work = s.work := rfl
@[simp] theorem modChan_sense_index (s : State) (c : ChannelNo) (f : Channel → Channel) : (s.modChan c f).sense.index = s.sense.index := rfl
@[simp] theorem modChan_sense_inWindow (s : State) (c : ChannelNo) (f : Channel → Channel) : (s.modChan c f).sense.inWindow = s.sense.inWindow := rfl
@[simp] theorem modChan_sense_nextAt (s : State) (c : ChannelNo) (f : Channel → Channel) : (s.modChan c f).sense.nextAt = s.sense.nextAt := rfl
@[simp] theorem modChan_sense_lastEnd (s : State) (c : ChannelNo) (f : Channel → Channel) : (s.modChan c f).sense.lastEnd = s.sense.lastEnd := rfl

/-! ### setCase -/

@[simp] theorem setCase_pending (s : State) (e : Nat) (c : Option Case) : (s.setCase e c).pending = s.pending := rfl
@[simp] theorem setCase_now (s : State) (e : Nat) (c : Option Case) : (s.setCase e c).now = s.now := rfl
@[simp] theorem setCase_powered (s : State) (e : Nat) (c : Option Case) : (s.setCase e c).powered = s.powered := rfl
@[simp] theorem setCase_stationAddr (s : State) (e : Nat) (c : Option Case) : (s.setCase e c).stationAddr = s.stationAddr := rfl
@[simp] theorem setCase_hall (s : State) (e : Nat) (c : Option Case) : (s.setCase e c).hall = s.hall := rfl
@[simp] theorem setCase_commissioning (s : State) (e : Nat) (c : Option Case) : (s.setCase e c).commissioning = s.commissioning := rfl
@[simp] theorem setCase_branches (s : State) (e : Nat) (c : Option Case) : (s.setCase e c).branches = s.branches := rfl
@[simp] theorem setCase_arb (s : State) (e : Nat) (c : Option Case) : (s.setCase e c).arb = s.arb := rfl
@[simp] theorem setCase_pol (s : State) (e : Nat) (c : Option Case) : (s.setCase e c).pol = s.pol := rfl
@[simp] theorem setCase_bus (s : State) (e : Nat) (c : Option Case) : (s.setCase e c).bus = s.bus := rfl
@[simp] theorem setCase_window (s : State) (e : Nat) (c : Option Case) : (s.setCase e c).window = s.window := rfl
@[simp] theorem setCase_sense (s : State) (e : Nat) (c : Option Case) : (s.setCase e c).sense = s.sense := rfl
@[simp] theorem setCase_iso (s : State) (e : Nat) (c : Option Case) : (s.setCase e c).iso = s.iso := rfl
@[simp] theorem setCase_link (s : State) (e : Nat) (c : Option Case) : (s.setCase e c).link = s.link := rfl
@[simp] theorem setCase_store (s : State) (e : Nat) (c : Option Case) : (s.setCase e c).store = s.store := rfl
@[simp] theorem setCase_boot (s : State) (e : Nat) (c : Option Case) : (s.setCase e c).boot = s.boot := rfl
@[simp] theorem setCase_work (s : State) (e : Nat) (c : Option Case) : (s.setCase e c).work = s.work := rfl

/-! ### modJob -/

@[simp] theorem modJob_pending (s : State) (i : JobId) (f : Job → Job) : (s.modJob i f).pending = s.pending := rfl
@[simp] theorem modJob_now (s : State) (i : JobId) (f : Job → Job) : (s.modJob i f).now = s.now := rfl
@[simp] theorem modJob_powered (s : State) (i : JobId) (f : Job → Job) : (s.modJob i f).powered = s.powered := rfl
@[simp] theorem modJob_stationAddr (s : State) (i : JobId) (f : Job → Job) : (s.modJob i f).stationAddr = s.stationAddr := rfl
@[simp] theorem modJob_hall (s : State) (i : JobId) (f : Job → Job) : (s.modJob i f).hall = s.hall := rfl
@[simp] theorem modJob_commissioning (s : State) (i : JobId) (f : Job → Job) : (s.modJob i f).commissioning = s.commissioning := rfl
@[simp] theorem modJob_branches (s : State) (i : JobId) (f : Job → Job) : (s.modJob i f).branches = s.branches := rfl
@[simp] theorem modJob_arb (s : State) (i : JobId) (f : Job → Job) : (s.modJob i f).arb = s.arb := rfl
@[simp] theorem modJob_pol (s : State) (i : JobId) (f : Job → Job) : (s.modJob i f).pol = s.pol := rfl
@[simp] theorem modJob_bus (s : State) (i : JobId) (f : Job → Job) : (s.modJob i f).bus = s.bus := rfl
@[simp] theorem modJob_window (s : State) (i : JobId) (f : Job → Job) : (s.modJob i f).window = s.window := rfl
@[simp] theorem modJob_sense (s : State) (i : JobId) (f : Job → Job) : (s.modJob i f).sense = s.sense := rfl
@[simp] theorem modJob_cases (s : State) (i : JobId) (f : Job → Job) : (s.modJob i f).cases = s.cases := rfl
@[simp] theorem modJob_link (s : State) (i : JobId) (f : Job → Job) : (s.modJob i f).link = s.link := rfl
@[simp] theorem modJob_store (s : State) (i : JobId) (f : Job → Job) : (s.modJob i f).store = s.store := rfl
@[simp] theorem modJob_boot (s : State) (i : JobId) (f : Job → Job) : (s.modJob i f).boot = s.boot := rfl
@[simp] theorem modJob_work (s : State) (i : JobId) (f : Job → Job) : (s.modJob i f).work = s.work := rfl
@[simp] theorem modJob_iso_lastId (s : State) (i : JobId) (f : Job → Job) : (s.modJob i f).iso.lastId = s.iso.lastId := rfl
@[simp] theorem modJob_iso_report (s : State) (i : JobId) (f : Job → Job) : (s.modJob i f).iso.report = s.iso.report := rfl

/-! ### setSlot -/

@[simp] theorem setSlot_pending (s : State) (k : Nat) (j : Option Job) : (s.setSlot k j).pending = s.pending := rfl
@[simp] theorem setSlot_now (s : State) (k : Nat) (j : Option Job) : (s.setSlot k j).now = s.now := rfl
@[simp] theorem setSlot_powered (s : State) (k : Nat) (j : Option Job) : (s.setSlot k j).powered = s.powered := rfl
@[simp] theorem setSlot_stationAddr (s : State) (k : Nat) (j : Option Job) : (s.setSlot k j).stationAddr = s.stationAddr := rfl
@[simp] theorem setSlot_hall (s : State) (k : Nat) (j : Option Job) : (s.setSlot k j).hall = s.hall := rfl
@[simp] theorem setSlot_commissioning (s : State) (k : Nat) (j : Option Job) : (s.setSlot k j).commissioning = s.commissioning := rfl
@[simp] theorem setSlot_branches (s : State) (k : Nat) (j : Option Job) : (s.setSlot k j).branches = s.branches := rfl
@[simp] theorem setSlot_arb (s : State) (k : Nat) (j : Option Job) : (s.setSlot k j).arb = s.arb := rfl
@[simp] theorem setSlot_pol (s : State) (k : Nat) (j : Option Job) : (s.setSlot k j).pol = s.pol := rfl
@[simp] theorem setSlot_bus (s : State) (k : Nat) (j : Option Job) : (s.setSlot k j).bus = s.bus := rfl
@[simp] theorem setSlot_window (s : State) (k : Nat) (j : Option Job) : (s.setSlot k j).window = s.window := rfl
@[simp] theorem setSlot_sense (s : State) (k : Nat) (j : Option Job) : (s.setSlot k j).sense = s.sense := rfl
@[simp] theorem setSlot_cases (s : State) (k : Nat) (j : Option Job) : (s.setSlot k j).cases = s.cases := rfl
@[simp] theorem setSlot_link (s : State) (k : Nat) (j : Option Job) : (s.setSlot k j).link = s.link := rfl
@[simp] theorem setSlot_store (s : State) (k : Nat) (j : Option Job) : (s.setSlot k j).store = s.store := rfl
@[simp] theorem setSlot_boot (s : State) (k : Nat) (j : Option Job) : (s.setSlot k j).boot = s.boot := rfl
@[simp] theorem setSlot_work (s : State) (k : Nat) (j : Option Job) : (s.setSlot k j).work = s.work := rfl
@[simp] theorem setSlot_iso_lastId (s : State) (k : Nat) (j : Option Job) : (s.setSlot k j).iso.lastId = s.iso.lastId := rfl
@[simp] theorem setSlot_iso_report (s : State) (k : Nat) (j : Option Job) : (s.setSlot k j).iso.report = s.iso.report := rfl

/-! ### setRequester -/

@[simp] theorem setRequester_pending (s : State) (i : Nat) (r : Option Requester) : (s.setRequester i r).pending = s.pending := rfl
@[simp] theorem setRequester_now (s : State) (i : Nat) (r : Option Requester) : (s.setRequester i r).now = s.now := rfl
@[simp] theorem setRequester_powered (s : State) (i : Nat) (r : Option Requester) : (s.setRequester i r).powered = s.powered := rfl
@[simp] theorem setRequester_stationAddr (s : State) (i : Nat) (r : Option Requester) : (s.setRequester i r).stationAddr = s.stationAddr := rfl
@[simp] theorem setRequester_hall (s : State) (i : Nat) (r : Option Requester) : (s.setRequester i r).hall = s.hall := rfl
@[simp] theorem setRequester_commissioning (s : State) (i : Nat) (r : Option Requester) : (s.setRequester i r).commissioning = s.commissioning := rfl
@[simp] theorem setRequester_branches (s : State) (i : Nat) (r : Option Requester) : (s.setRequester i r).branches = s.branches := rfl
@[simp] theorem setRequester_arb (s : State) (i : Nat) (r : Option Requester) : (s.setRequester i r).arb = s.arb := rfl
@[simp] theorem setRequester_pol (s : State) (i : Nat) (r : Option Requester) : (s.setRequester i r).pol = s.pol := rfl
@[simp] theorem setRequester_bus (s : State) (i : Nat) (r : Option Requester) : (s.setRequester i r).bus = s.bus := rfl
@[simp] theorem setRequester_window (s : State) (i : Nat) (r : Option Requester) : (s.setRequester i r).window = s.window := rfl
@[simp] theorem setRequester_sense (s : State) (i : Nat) (r : Option Requester) : (s.setRequester i r).sense = s.sense := rfl
@[simp] theorem setRequester_cases (s : State) (i : Nat) (r : Option Requester) : (s.setRequester i r).cases = s.cases := rfl
@[simp] theorem setRequester_iso (s : State) (i : Nat) (r : Option Requester) : (s.setRequester i r).iso = s.iso := rfl
@[simp] theorem setRequester_store (s : State) (i : Nat) (r : Option Requester) : (s.setRequester i r).store = s.store := rfl
@[simp] theorem setRequester_boot (s : State) (i : Nat) (r : Option Requester) : (s.setRequester i r).boot = s.boot := rfl
@[simp] theorem setRequester_work (s : State) (i : Nat) (r : Option Requester) : (s.setRequester i r).work = s.work := rfl
@[simp] theorem setRequester_link_up (s : State) (i : Nat) (r : Option Requester) : (s.setRequester i r).link.up = s.link.up := rfl
@[simp] theorem setRequester_link_inbound (s : State) (i : Nat) (r : Option Requester) : (s.setRequester i r).link.inbound = s.link.inbound := rfl
@[simp] theorem setRequester_link_outbound (s : State) (i : Nat) (r : Option Requester) : (s.setRequester i r).link.outbound = s.link.outbound := rfl
@[simp] theorem setRequester_link_replies (s : State) (i : Nat) (r : Option Requester) : (s.setRequester i r).link.replies = s.link.replies := rfl
@[simp] theorem setRequester_link_sending (s : State) (i : Nat) (r : Option Requester) : (s.setRequester i r).link.sending = s.link.sending := rfl
@[simp] theorem setRequester_link_longs (s : State) (i : Nat) (r : Option Requester) : (s.setRequester i r).link.longs = s.link.longs := rfl
@[simp] theorem setRequester_link_restarting (s : State) (i : Nat) (r : Option Requester) : (s.setRequester i r).link.restarting = s.link.restarting := rfl

/-! ### handReply -/

@[simp] theorem handReply_pending (s : State) (f : ReplyFrame) : (s.handReply f).pending = s.pending := rfl
@[simp] theorem handReply_now (s : State) (f : ReplyFrame) : (s.handReply f).now = s.now := rfl
@[simp] theorem handReply_powered (s : State) (f : ReplyFrame) : (s.handReply f).powered = s.powered := rfl
@[simp] theorem handReply_stationAddr (s : State) (f : ReplyFrame) : (s.handReply f).stationAddr = s.stationAddr := rfl
@[simp] theorem handReply_hall (s : State) (f : ReplyFrame) : (s.handReply f).hall = s.hall := rfl
@[simp] theorem handReply_commissioning (s : State) (f : ReplyFrame) : (s.handReply f).commissioning = s.commissioning := rfl
@[simp] theorem handReply_branches (s : State) (f : ReplyFrame) : (s.handReply f).branches = s.branches := rfl
@[simp] theorem handReply_arb (s : State) (f : ReplyFrame) : (s.handReply f).arb = s.arb := rfl
@[simp] theorem handReply_pol (s : State) (f : ReplyFrame) : (s.handReply f).pol = s.pol := rfl
@[simp] theorem handReply_bus (s : State) (f : ReplyFrame) : (s.handReply f).bus = s.bus := rfl
@[simp] theorem handReply_window (s : State) (f : ReplyFrame) : (s.handReply f).window = s.window := rfl
@[simp] theorem handReply_sense (s : State) (f : ReplyFrame) : (s.handReply f).sense = s.sense := rfl
@[simp] theorem handReply_cases (s : State) (f : ReplyFrame) : (s.handReply f).cases = s.cases := rfl
@[simp] theorem handReply_iso (s : State) (f : ReplyFrame) : (s.handReply f).iso = s.iso := rfl
@[simp] theorem handReply_store (s : State) (f : ReplyFrame) : (s.handReply f).store = s.store := rfl
@[simp] theorem handReply_boot (s : State) (f : ReplyFrame) : (s.handReply f).boot = s.boot := rfl
@[simp] theorem handReply_work (s : State) (f : ReplyFrame) : (s.handReply f).work = s.work := rfl
@[simp] theorem handReply_link_up (s : State) (f : ReplyFrame) : (s.handReply f).link.up = s.link.up := rfl
@[simp] theorem handReply_link_requesters (s : State) (f : ReplyFrame) : (s.handReply f).link.requesters = s.link.requesters := rfl
@[simp] theorem handReply_link_inbound (s : State) (f : ReplyFrame) : (s.handReply f).link.inbound = s.link.inbound := rfl
@[simp] theorem handReply_link_outbound (s : State) (f : ReplyFrame) : (s.handReply f).link.outbound = s.link.outbound := rfl
@[simp] theorem handReply_link_sending (s : State) (f : ReplyFrame) : (s.handReply f).link.sending = s.link.sending := rfl
@[simp] theorem handReply_link_longs (s : State) (f : ReplyFrame) : (s.handReply f).link.longs = s.link.longs := rfl
@[simp] theorem handReply_link_restarting (s : State) (f : ReplyFrame) : (s.handReply f).link.restarting = s.link.restarting := rfl

/-! ### recordLong -/

@[simp] theorem recordLong_pending (s : State) (k : LongKind) (c : Cmd) : (s.recordLong k c).pending = s.pending := rfl
@[simp] theorem recordLong_now (s : State) (k : LongKind) (c : Cmd) : (s.recordLong k c).now = s.now := rfl
@[simp] theorem recordLong_powered (s : State) (k : LongKind) (c : Cmd) : (s.recordLong k c).powered = s.powered := rfl
@[simp] theorem recordLong_stationAddr (s : State) (k : LongKind) (c : Cmd) : (s.recordLong k c).stationAddr = s.stationAddr := rfl
@[simp] theorem recordLong_hall (s : State) (k : LongKind) (c : Cmd) : (s.recordLong k c).hall = s.hall := rfl
@[simp] theorem recordLong_commissioning (s : State) (k : LongKind) (c : Cmd) : (s.recordLong k c).commissioning = s.commissioning := rfl
@[simp] theorem recordLong_branches (s : State) (k : LongKind) (c : Cmd) : (s.recordLong k c).branches = s.branches := rfl
@[simp] theorem recordLong_arb (s : State) (k : LongKind) (c : Cmd) : (s.recordLong k c).arb = s.arb := rfl
@[simp] theorem recordLong_pol (s : State) (k : LongKind) (c : Cmd) : (s.recordLong k c).pol = s.pol := rfl
@[simp] theorem recordLong_bus (s : State) (k : LongKind) (c : Cmd) : (s.recordLong k c).bus = s.bus := rfl
@[simp] theorem recordLong_window (s : State) (k : LongKind) (c : Cmd) : (s.recordLong k c).window = s.window := rfl
@[simp] theorem recordLong_sense (s : State) (k : LongKind) (c : Cmd) : (s.recordLong k c).sense = s.sense := rfl
@[simp] theorem recordLong_cases (s : State) (k : LongKind) (c : Cmd) : (s.recordLong k c).cases = s.cases := rfl
@[simp] theorem recordLong_iso (s : State) (k : LongKind) (c : Cmd) : (s.recordLong k c).iso = s.iso := rfl
@[simp] theorem recordLong_store (s : State) (k : LongKind) (c : Cmd) : (s.recordLong k c).store = s.store := rfl
@[simp] theorem recordLong_boot (s : State) (k : LongKind) (c : Cmd) : (s.recordLong k c).boot = s.boot := rfl
@[simp] theorem recordLong_work (s : State) (k : LongKind) (c : Cmd) : (s.recordLong k c).work = s.work := rfl
@[simp] theorem recordLong_link_up (s : State) (k : LongKind) (c : Cmd) : (s.recordLong k c).link.up = s.link.up := rfl
@[simp] theorem recordLong_link_requesters (s : State) (k : LongKind) (c : Cmd) : (s.recordLong k c).link.requesters = s.link.requesters := rfl
@[simp] theorem recordLong_link_inbound (s : State) (k : LongKind) (c : Cmd) : (s.recordLong k c).link.inbound = s.link.inbound := rfl
@[simp] theorem recordLong_link_outbound (s : State) (k : LongKind) (c : Cmd) : (s.recordLong k c).link.outbound = s.link.outbound := rfl
@[simp] theorem recordLong_link_replies (s : State) (k : LongKind) (c : Cmd) : (s.recordLong k c).link.replies = s.link.replies := rfl
@[simp] theorem recordLong_link_sending (s : State) (k : LongKind) (c : Cmd) : (s.recordLong k c).link.sending = s.link.sending := rfl
@[simp] theorem recordLong_link_restarting (s : State) (k : LongKind) (c : Cmd) : (s.recordLong k c).link.restarting = s.link.restarting := rfl

/-! ### advance -/

@[simp] theorem advance_pending (s : State) (t : Time) : (s.advance t).pending = s.pending := rfl
@[simp] theorem advance_powered (s : State) (t : Time) : (s.advance t).powered = s.powered := rfl
@[simp] theorem advance_stationAddr (s : State) (t : Time) : (s.advance t).stationAddr = s.stationAddr := rfl
@[simp] theorem advance_hall (s : State) (t : Time) : (s.advance t).hall = s.hall := rfl
@[simp] theorem advance_commissioning (s : State) (t : Time) : (s.advance t).commissioning = s.commissioning := rfl
@[simp] theorem advance_branches (s : State) (t : Time) : (s.advance t).branches = s.branches := rfl
@[simp] theorem advance_arb (s : State) (t : Time) : (s.advance t).arb = s.arb := rfl
@[simp] theorem advance_pol (s : State) (t : Time) : (s.advance t).pol = s.pol := rfl
@[simp] theorem advance_bus (s : State) (t : Time) : (s.advance t).bus = s.bus := rfl
@[simp] theorem advance_window (s : State) (t : Time) : (s.advance t).window = s.window := rfl
@[simp] theorem advance_sense (s : State) (t : Time) : (s.advance t).sense = s.sense := rfl
@[simp] theorem advance_cases (s : State) (t : Time) : (s.advance t).cases = s.cases := rfl
@[simp] theorem advance_iso (s : State) (t : Time) : (s.advance t).iso = s.iso := rfl
@[simp] theorem advance_link (s : State) (t : Time) : (s.advance t).link = s.link := rfl
@[simp] theorem advance_store (s : State) (t : Time) : (s.advance t).store = s.store := rfl
@[simp] theorem advance_boot (s : State) (t : Time) : (s.advance t).boot = s.boot := rfl
@[simp] theorem advance_work (s : State) (t : Time) : (s.advance t).work = s.work := rfl

/-! ### hold -/

@[simp] theorem hold_pending (s : State) (n : Notice) (tag : Byte) (a : Addressees) : (s.hold n tag a).pending = s.pending := rfl
@[simp] theorem hold_now (s : State) (n : Notice) (tag : Byte) (a : Addressees) : (s.hold n tag a).now = s.now := rfl
@[simp] theorem hold_powered (s : State) (n : Notice) (tag : Byte) (a : Addressees) : (s.hold n tag a).powered = s.powered := rfl
@[simp] theorem hold_stationAddr (s : State) (n : Notice) (tag : Byte) (a : Addressees) : (s.hold n tag a).stationAddr = s.stationAddr := rfl
@[simp] theorem hold_hall (s : State) (n : Notice) (tag : Byte) (a : Addressees) : (s.hold n tag a).hall = s.hall := rfl
@[simp] theorem hold_commissioning (s : State) (n : Notice) (tag : Byte) (a : Addressees) : (s.hold n tag a).commissioning = s.commissioning := rfl
@[simp] theorem hold_branches (s : State) (n : Notice) (tag : Byte) (a : Addressees) : (s.hold n tag a).branches = s.branches := rfl
@[simp] theorem hold_arb (s : State) (n : Notice) (tag : Byte) (a : Addressees) : (s.hold n tag a).arb = s.arb := rfl
@[simp] theorem hold_pol (s : State) (n : Notice) (tag : Byte) (a : Addressees) : (s.hold n tag a).pol = s.pol := rfl
@[simp] theorem hold_bus (s : State) (n : Notice) (tag : Byte) (a : Addressees) : (s.hold n tag a).bus = s.bus := rfl
@[simp] theorem hold_window (s : State) (n : Notice) (tag : Byte) (a : Addressees) : (s.hold n tag a).window = s.window := rfl
@[simp] theorem hold_sense (s : State) (n : Notice) (tag : Byte) (a : Addressees) : (s.hold n tag a).sense = s.sense := rfl
@[simp] theorem hold_cases (s : State) (n : Notice) (tag : Byte) (a : Addressees) : (s.hold n tag a).cases = s.cases := rfl
@[simp] theorem hold_iso (s : State) (n : Notice) (tag : Byte) (a : Addressees) : (s.hold n tag a).iso = s.iso := rfl
@[simp] theorem hold_link (s : State) (n : Notice) (tag : Byte) (a : Addressees) : (s.hold n tag a).link = s.link := rfl
@[simp] theorem hold_store (s : State) (n : Notice) (tag : Byte) (a : Addressees) : (s.hold n tag a).store = s.store := rfl
@[simp] theorem hold_boot (s : State) (n : Notice) (tag : Byte) (a : Addressees) : (s.hold n tag a).boot = s.boot := rfl
@[simp] theorem hold_work_due (s : State) (n : Notice) (tag : Byte) (a : Addressees) : (s.hold n tag a).work.due = s.work.due := rfl
@[simp] theorem hold_work_ran (s : State) (n : Notice) (tag : Byte) (a : Addressees) : (s.hold n tag a).work.ran = s.work.ran := rfl
@[simp] theorem hold_work_left (s : State) (n : Notice) (tag : Byte) (a : Addressees) : (s.hold n tag a).work.left = s.work.left := rfl
@[simp] theorem hold_work_after (s : State) (n : Notice) (tag : Byte) (a : Addressees) : (s.hold n tag a).work.after = s.work.after := rfl

/-! ### notify -/

@[simp] theorem notify_pending (s : State) (n : Notice) : (s.notify n).pending = s.pending := rfl
@[simp] theorem notify_now (s : State) (n : Notice) : (s.notify n).now = s.now := rfl
@[simp] theorem notify_powered (s : State) (n : Notice) : (s.notify n).powered = s.powered := rfl
@[simp] theorem notify_stationAddr (s : State) (n : Notice) : (s.notify n).stationAddr = s.stationAddr := rfl
@[simp] theorem notify_hall (s : State) (n : Notice) : (s.notify n).hall = s.hall := rfl
@[simp] theorem notify_commissioning (s : State) (n : Notice) : (s.notify n).commissioning = s.commissioning := rfl
@[simp] theorem notify_branches (s : State) (n : Notice) : (s.notify n).branches = s.branches := rfl
@[simp] theorem notify_arb (s : State) (n : Notice) : (s.notify n).arb = s.arb := rfl
@[simp] theorem notify_pol (s : State) (n : Notice) : (s.notify n).pol = s.pol := rfl
@[simp] theorem notify_bus (s : State) (n : Notice) : (s.notify n).bus = s.bus := rfl
@[simp] theorem notify_window (s : State) (n : Notice) : (s.notify n).window = s.window := rfl
@[simp] theorem notify_sense (s : State) (n : Notice) : (s.notify n).sense = s.sense := rfl
@[simp] theorem notify_cases (s : State) (n : Notice) : (s.notify n).cases = s.cases := rfl
@[simp] theorem notify_iso (s : State) (n : Notice) : (s.notify n).iso = s.iso := rfl
@[simp] theorem notify_link (s : State) (n : Notice) : (s.notify n).link = s.link := rfl
@[simp] theorem notify_store (s : State) (n : Notice) : (s.notify n).store = s.store := rfl
@[simp] theorem notify_boot (s : State) (n : Notice) : (s.notify n).boot = s.boot := rfl
@[simp] theorem notify_work_due (s : State) (n : Notice) : (s.notify n).work.due = s.work.due := rfl
@[simp] theorem notify_work_ran (s : State) (n : Notice) : (s.notify n).work.ran = s.work.ran := rfl
@[simp] theorem notify_work_left (s : State) (n : Notice) : (s.notify n).work.left = s.work.left := rfl
@[simp] theorem notify_work_after (s : State) (n : Notice) : (s.notify n).work.after = s.work.after := rfl

/-! ### askPass -/

@[simp] theorem askPass_pending (s : State) (l : List Position) : (s.askPass l).pending = s.pending := rfl
@[simp] theorem askPass_now (s : State) (l : List Position) : (s.askPass l).now = s.now := rfl
@[simp] theorem askPass_powered (s : State) (l : List Position) : (s.askPass l).powered = s.powered := rfl
@[simp] theorem askPass_stationAddr (s : State) (l : List Position) : (s.askPass l).stationAddr = s.stationAddr := rfl
@[simp] theorem askPass_hall (s : State) (l : List Position) : (s.askPass l).hall = s.hall := rfl
@[simp] theorem askPass_commissioning (s : State) (l : List Position) : (s.askPass l).commissioning = s.commissioning := rfl
@[simp] theorem askPass_branches (s : State) (l : List Position) : (s.askPass l).branches = s.branches := rfl
@[simp] theorem askPass_arb (s : State) (l : List Position) : (s.askPass l).arb = s.arb := rfl
@[simp] theorem askPass_pol (s : State) (l : List Position) : (s.askPass l).pol = s.pol := rfl
@[simp] theorem askPass_bus (s : State) (l : List Position) : (s.askPass l).bus = s.bus := rfl
@[simp] theorem askPass_window (s : State) (l : List Position) : (s.askPass l).window = s.window := rfl
@[simp] theorem askPass_sense (s : State) (l : List Position) : (s.askPass l).sense = s.sense := rfl
@[simp] theorem askPass_cases (s : State) (l : List Position) : (s.askPass l).cases = s.cases := rfl
@[simp] theorem askPass_iso (s : State) (l : List Position) : (s.askPass l).iso = s.iso := rfl
@[simp] theorem askPass_link (s : State) (l : List Position) : (s.askPass l).link = s.link := rfl
@[simp] theorem askPass_store (s : State) (l : List Position) : (s.askPass l).store = s.store := rfl
@[simp] theorem askPass_boot (s : State) (l : List Position) : (s.askPass l).boot = s.boot := rfl
@[simp] theorem askPass_work_held (s : State) (l : List Position) : (s.askPass l).work.held = s.work.held := rfl
@[simp] theorem askPass_work_ran (s : State) (l : List Position) : (s.askPass l).work.ran = s.work.ran := rfl
@[simp] theorem askPass_work_after (s : State) (l : List Position) : (s.askPass l).work.after = s.work.after := rfl
@[simp] theorem askPass_work_due (s : State) (l : List Position) : (s.askPass l).work.due = true := rfl

/-! ### afterPass -/

@[simp] theorem afterPass_pending (s : State) (x : AfterPass) : (s.afterPass x).pending = s.pending := rfl
@[simp] theorem afterPass_now (s : State) (x : AfterPass) : (s.afterPass x).now = s.now := rfl
@[simp] theorem afterPass_powered (s : State) (x : AfterPass) : (s.afterPass x).powered = s.powered := rfl
@[simp] theorem afterPass_stationAddr (s : State) (x : AfterPass) : (s.afterPass x).stationAddr = s.stationAddr := rfl
@[simp] theorem afterPass_hall (s : State) (x : AfterPass) : (s.afterPass x).hall = s.hall := rfl
@[simp] theorem afterPass_commissioning (s : State) (x : AfterPass) : (s.afterPass x).commissioning = s.commissioning := rfl
@[simp] theorem afterPass_branches (s : State) (x : AfterPass) : (s.afterPass x).branches = s.branches := rfl
@[simp] theorem afterPass_arb (s : State) (x : AfterPass) : (s.afterPass x).arb = s.arb := rfl
@[simp] theorem afterPass_pol (s : State) (x : AfterPass) : (s.afterPass x).pol = s.pol := rfl
@[simp] theorem afterPass_bus (s : State) (x : AfterPass) : (s.afterPass x).bus = s.bus := rfl
@[simp] theorem afterPass_window (s : State) (x : AfterPass) : (s.afterPass x).window = s.window := rfl
@[simp] theorem afterPass_sense (s : State) (x : AfterPass) : (s.afterPass x).sense = s.sense := rfl
@[simp] theorem afterPass_cases (s : State) (x : AfterPass) : (s.afterPass x).cases = s.cases := rfl
@[simp] theorem afterPass_iso (s : State) (x : AfterPass) : (s.afterPass x).iso = s.iso := rfl
@[simp] theorem afterPass_link (s : State) (x : AfterPass) : (s.afterPass x).link = s.link := rfl
@[simp] theorem afterPass_store (s : State) (x : AfterPass) : (s.afterPass x).store = s.store := rfl
@[simp] theorem afterPass_boot (s : State) (x : AfterPass) : (s.afterPass x).boot = s.boot := rfl
@[simp] theorem afterPass_work_held (s : State) (x : AfterPass) : (s.afterPass x).work.held = s.work.held := rfl
@[simp] theorem afterPass_work_due (s : State) (x : AfterPass) : (s.afterPass x).work.due = s.work.due := rfl
@[simp] theorem afterPass_work_ran (s : State) (x : AfterPass) : (s.afterPass x).work.ran = s.work.ran := rfl
@[simp] theorem afterPass_work_left (s : State) (x : AfterPass) : (s.afterPass x).work.left = s.work.left := rfl

/-! ### arbiterSpeaksLast -/

@[simp] theorem arbiterSpeaksLast_pending (s : State) : s.arbiterSpeaksLast.pending = s.pending := rfl
@[simp] theorem arbiterSpeaksLast_now (s : State) : s.arbiterSpeaksLast.now = s.now := rfl
@[simp] theorem arbiterSpeaksLast_powered (s : State) : s.arbiterSpeaksLast.powered = s.powered := rfl
@[simp] theorem arbiterSpeaksLast_stationAddr (s : State) : s.arbiterSpeaksLast.stationAddr = s.stationAddr := rfl
@[simp] theorem arbiterSpeaksLast_hall (s : State) : s.arbiterSpeaksLast.hall = s.hall := rfl
@[simp] theorem arbiterSpeaksLast_commissioning (s : State) : s.arbiterSpeaksLast.commissioning = s.commissioning := rfl
@[simp] theorem arbiterSpeaksLast_branches (s : State) : s.arbiterSpeaksLast.branches = s.branches := rfl
@[simp] theorem arbiterSpeaksLast_arb (s : State) : s.arbiterSpeaksLast.arb = s.arb := rfl
@[simp] theorem arbiterSpeaksLast_pol (s : State) : s.arbiterSpeaksLast.pol = s.pol := rfl
@[simp] theorem arbiterSpeaksLast_bus (s : State) : s.arbiterSpeaksLast.bus = s.bus := rfl
@[simp] theorem arbiterSpeaksLast_window (s : State) : s.arbiterSpeaksLast.window = s.window := rfl
@[simp] theorem arbiterSpeaksLast_sense (s : State) : s.arbiterSpeaksLast.sense = s.sense := rfl
@[simp] theorem arbiterSpeaksLast_cases (s : State) : s.arbiterSpeaksLast.cases = s.cases := rfl
@[simp] theorem arbiterSpeaksLast_iso (s : State) : s.arbiterSpeaksLast.iso = s.iso := rfl
@[simp] theorem arbiterSpeaksLast_link (s : State) : s.arbiterSpeaksLast.link = s.link := rfl
@[simp] theorem arbiterSpeaksLast_store (s : State) : s.arbiterSpeaksLast.store = s.store := rfl
@[simp] theorem arbiterSpeaksLast_boot (s : State) : s.arbiterSpeaksLast.boot = s.boot := rfl
@[simp] theorem arbiterSpeaksLast_work_due (s : State) : s.arbiterSpeaksLast.work.due = s.work.due := rfl
@[simp] theorem arbiterSpeaksLast_work_ran (s : State) : s.arbiterSpeaksLast.work.ran = s.work.ran := rfl
@[simp] theorem arbiterSpeaksLast_work_left (s : State) : s.arbiterSpeaksLast.work.left = s.work.left := rfl
@[simp] theorem arbiterSpeaksLast_work_after (s : State) : s.arbiterSpeaksLast.work.after = s.work.after := rfl

/-! ### What an update makes of the record it changes -/

/-- A changed branch record is the change of the record held. -/
theorem modBr_br_self (s : State) (p : Position) (f : Branch → Branch) (h : p < s.branches.length) :
    (s.modBr p f).br p = f (s.br p) := by
  simp [State.br, State.modBr, List.getD_eq_getElem?_getD, h]

/-- A change of one branch record leaves every other. -/
theorem modBr_br_ne (s : State) {p q : Position} (f : Branch → Branch) (h : p ≠ q) : (s.modBr p f).br q = s.br q := by
  simp [State.br, State.modBr, List.getD_eq_getElem?_getD, h]

/-- Two changes of a branch record are one. -/
theorem modBr_modBr (s : State) (p : Position) (f g : Branch → Branch) :
    (s.modBr p f).modBr p g = s.modBr p (fun b => g (f b)) := by
  simp [State.modBr, List.modify_modify_eq, Function.comp_def]

/-- A changed shadow is the change of the shadow held. -/
theorem modAct_act_self (s : State) (a : ActuatorNo) (f : Actuator → Actuator) (h : a < s.bus.actuators.length) :
    (s.modAct a f).act a = f (s.act a) := by
  simp [State.act, State.modAct, List.getD_eq_getElem?_getD, h]

/-- A change of one shadow leaves every other. -/
theorem modAct_act_ne (s : State) {a b : ActuatorNo} (f : Actuator → Actuator) (h : a ≠ b) :
    (s.modAct a f).act b = s.act b := by
  simp [State.act, State.modAct, List.getD_eq_getElem?_getD, h]

/-- A changed channel is the change of the channel held. -/
theorem modChan_chan_self (s : State) (c : ChannelNo) (f : Channel → Channel) (h : c < s.sense.channels.length) :
    (s.modChan c f).chan c = f (s.chan c) := by
  simp [State.chan, State.modChan, List.getD_eq_getElem?_getD, h]

/-- A change of one channel leaves every other. -/
theorem modChan_chan_ne (s : State) {c d : ChannelNo} (f : Channel → Channel) (h : c ≠ d) :
    (s.modChan c f).chan d = s.chan d := by
  simp [State.chan, State.modChan, List.getD_eq_getElem?_getD, h]

/-- A written case is the case read. -/
theorem setCase_caseAt_self (s : State) (e : Nat) (c : Option Case) (h : e < s.cases.length) :
    (s.setCase e c).caseAt e = c := by
  simp [State.caseAt, State.setCase, List.getD_eq_getElem?_getD, h]

/-- A written case leaves every other. -/
theorem setCase_caseAt_ne (s : State) {e g : Nat} (c : Option Case) (h : e ≠ g) : (s.setCase e c).caseAt g = s.caseAt g := by
  simp [State.caseAt, State.setCase, List.getD_eq_getElem?_getD, List.getElem?_set_ne h]

/-- A written entry is the entry read. -/
theorem setRequester_requester_self (s : State) (i : Nat) (r : Option Requester) (h : i < s.link.requesters.length) :
    (s.setRequester i r).requester i = r := by
  simp [State.requester, State.setRequester, List.getD_eq_getElem?_getD, h]

/-- A written entry leaves every other. -/
theorem setRequester_requester_ne (s : State) {i k : Nat} (r : Option Requester) (h : i ≠ k) :
    (s.setRequester i r).requester k = s.requester k := by
  simp [State.requester, State.setRequester, List.getD_eq_getElem?_getD, List.getElem?_set_ne h]

/-- No change of a branch record changes how many there are. -/
@[simp] theorem modBr_branches_length (s : State) (p : Position) (f : Branch → Branch) :
    (s.modBr p f).branches.length = s.branches.length := by simp [State.modBr]

/-- No change of a shadow changes how many there are. -/
@[simp] theorem modAct_actuators_length (s : State) (a : ActuatorNo) (f : Actuator → Actuator) :
    (s.modAct a f).bus.actuators.length = s.bus.actuators.length := by simp [State.modAct]

/-- The time never runs back. -/
theorem now_le_advance (s : State) (t : Time) : s.now ≤ (s.advance t).now := Nat.le_max_left _ _

/-- Work for each element of an empty list is none. -/
@[simp] theorem forEach_nil {α : Type} (s : State) (f : State → α → State) : s.forEach [] f = s := rfl

/-- Work for each element is the work for the first, then for the rest. -/
@[simp] theorem forEach_cons {α : Type} (s : State) (a : α) (l : List α) (f : State → α → State) :
    s.forEach (a :: l) f = (f s a).forEach l f := rfl

/-- What holds before and is kept by the work for each element holds after. -/
theorem forEach_keeps {α : Type} (P : State → Prop) (f : State → α → State) (h : ∀ s a, P s → P (f s a)) :
    ∀ (l : List α) (s : State), P s → P (s.forEach l f)
  | [], _, hs => hs
  | a :: l, s, hs => forEach_keeps P f h l (f s a) (h s a hs)

/-- What the work for one element establishes, and the work for the others keeps, holds for each element after. -/
theorem forEach_each {α : Type} (P : State → Prop) (Q : α → State → Prop) (f : State → α → State)
    (hp : ∀ s a, P s → P (f s a)) (hq : ∀ s a, P s → Q a (f s a)) (hk : ∀ s a b, P s → Q b s → Q b (f s a)) :
    ∀ (l : List α) (s : State), P s → ∀ a ∈ l, Q a (s.forEach l f) := by
  intro l
  induction l with
  | nil => intro s _ a ha; simp at ha
  | cons a l ih =>
    intro s hs b hb
    rcases List.mem_cons.1 hb with rfl | hb
    · exact (forEach_keeps (fun t => P t ∧ Q b t) f (fun t c h => ⟨hp t c h.1, hk t c b h.1 h.2⟩) l _
        ⟨hp s b hs, hq s b hs⟩).2
    · exact ih _ (hp s a hs) b hb

/-- What holds before and is kept by the work for each element of a list holds after. -/
theorem forEach_keeps_mem {α : Type} (P : State → Prop) (f : State → α → State) :
    ∀ (l : List α) (s : State), (∀ s, ∀ a ∈ l, P s → P (f s a)) → P s → P (s.forEach l f)
  | [], _, _, hs => hs
  | a :: l, s, h, hs => forEach_keeps_mem P f l (f s a) (fun s b hb => h s b (List.mem_cons_of_mem a hb))
      (h s a List.mem_cons_self hs)

/-- What the work for each element leaves as it was, the whole leaves as it was. -/
theorem forEach_leaves {α β : Type} (g : State → β) (f : State → α → State) (h : ∀ s a, g (f s a) = g s) :
    ∀ (l : List α) (s : State), g (s.forEach l f) = g s
  | [], _ => rfl
  | a :: l, s => (forEach_leaves g f h l (f s a)).trans (h s a)

end Sys2Proof.Machine
end

