-- ==== Sys2Proof/Laws/Quiet.lean ====
section
/-! SUPPORT. The operations of a pass, of the bus and of the link leave alone all that `State.still` keeps: one lemma per operation. -/

namespace Sys2Proof.Machine

/-! ### Lists -/

/-- Changing one element under a view that does not see the change. -/
theorem map_modify_same {α β : Type} (g : α → β) (f : α → α) (h : ∀ a, g (f a) = g a) :
    ∀ (l : List α) (i : Nat), (l.modify i f).map g = l.map g
  | [], _ => by simp
  | a :: l, 0 => by simp [h]
  | a :: l, i + 1 => by simp [map_modify_same g f h l i]

/-- Writing one element by an equal one, under a view. -/
theorem map_set_same {α β : Type} (g : α → β) (d : α) :
    ∀ (l : List α) (i : Nat) (a : α), g a = g (l.getD i d) → (l.set i a).map g = l.map g
  | [], _, _, _ => by simp
  | b :: l, 0, a, h => by simpa using h
  | b :: l, i + 1, a, h => by simpa using map_set_same g d l i a h

/-! ### Records -/

/-- A change of a branch record that `Branch.still` does not see. -/
theorem modBr_still (s : State) (p : Position) (f : Branch → Branch) (h : ∀ b, (f b).still = b.still) :
    (s.modBr p f).still = s.still := by
  simp [State.still, State.modBr, map_modify_same _ f h]

/-- A change of a shadow that `Actuator.still` does not see. -/
theorem modAct_still (s : State) (a : ActuatorNo) (f : Actuator → Actuator) (h : ∀ x, (f x).still = x.still) :
    (s.modAct a f).still = s.still := by
  simp [State.still, State.modAct, map_modify_same _ f h]

/-- Nothing of the bus but presence, positions, flags and reservations is seen. -/
theorem still_bus (s : State) (b : Bus) (h : b.actuators.map Actuator.still = s.bus.actuators.map Actuator.still) :
    ({ s with bus := b } : State).still = s.still := by
  simp [State.still, h]

/-- Nothing of the arbiter but the supply record and the stamp counter is seen. -/
theorem still_arb (s : State) (a : Arbiter) (h : a.supply = s.arb.supply) (g : a.nextStamp = s.arb.nextStamp) :
    ({ s with arb := a } : State).still = s.still := by
  simp [State.still, h, g]

/-- Nothing of the link but its state, its entries and its inbound queue is seen. -/
theorem still_link (s : State) (k : Link) (hu : k.up = s.link.up)
    (hr : k.requesters.map (Option.map Requester.still) = s.link.requesters.map (Option.map Requester.still))
    (hi : k.inbound = s.link.inbound) (hs : k.restarting = s.link.restarting) :
    ({ s with link := k } : State).still = s.still := by
  simp [State.still, hu, hr, hi, hs]

/-- Work for each element that leaves `still` alone. -/
theorem forEach_still {α : Type} (f : State → α → State) (h : ∀ s a, (f s a).still = s.still) (l : List α) (s : State) :
    (s.forEach l f).still = s.still := forEach_leaves State.still f h l s

/-! ### Link -/

@[simp] theorem countFor_still (s : State) (is : List Nat) : (s.countFor is).still = s.still := by
  unfold State.countFor
  refine forEach_still _ (fun s i => ?_) _ _
  refine still_link s _ rfl (map_set_same _ none _ _ _ ?_) rfl rfl
  cases h : s.requester i <;> (unfold State.requester at h; rw [h]) <;> rfl

@[simp] theorem enqueue_still (s : State) (e : OutEntry) (is : List Nat) : (s.enqueue e is).still = s.still := by
  unfold State.enqueue; split
  · rfl
  · rw [countFor_still]; rfl

/-- Nothing of the work of the event in progress but what follows its pass is seen. -/
theorem still_work (s : State) (w : Work) (h : w.after = s.work.after) : ({ s with work := w } : State).still = s.still := by
  simp [State.still, h]

@[simp] theorem hold_still (s : State) (n : Notice) (g : Byte) (a : Addressees) : (s.hold n g a).still = s.still := rfl
@[simp] theorem notify_still (s : State) (n : Notice) : (s.notify n).still = s.still := rfl
@[simp] theorem arbiterSpeaksLast_still (s : State) : s.arbiterSpeaksLast.still = s.still := rfl
@[simp] theorem askPass_still (s : State) (l : List Position) : (s.askPass l).still = s.still := rfl

@[simp] theorem askDrawPass_still (s : State) : s.askDrawPass.still = s.still := by
  unfold State.askDrawPass; split <;> rfl

@[simp] theorem hand_still (s : State) (h : HeldNotice) : (s.hand h).still = s.still := by
  unfold State.hand; split
  · rfl
  · exact enqueue_still _ _ _

/-- The notices of an event after whose pass nothing follows are handed over. -/
theorem flush_still {s : State} (h : s.work.after = []) : s.flush.still = s.still := by
  have e := forEach_still State.hand hand_still s.work.held s
  refine (still_work _ _ ?_).trans e
  show [] = _
  exact (h.symm.trans (congrArg (fun x => x.work.after) e.symm))

@[simp] theorem complete_still (s : State) (k : LongKind) (st : Status) (b : CompletionBody) :
    (s.complete k st b).still = s.still := by
  unfold State.complete; split <;> rfl

@[simp] theorem handReply_still (s : State) (f : ReplyFrame) : (s.handReply f).still = s.still := rfl
@[simp] theorem recordLong_still (s : State) (k : LongKind) (c : Cmd) : (s.recordLong k c).still = s.still := rfl

@[simp] theorem transmit_still (s : State) : s.transmit.still = s.still := by
  unfold State.transmit; repeat' split
  all_goals rfl

/-! ### Bus -/

@[simp] theorem report_still (s : State) (c : Client) (a : ActuatorNo) (k : ReportKind) :
    (s.report c a k).still = s.still := by unfold State.report; split <;> rfl

@[simp] theorem sendRequest_still (s : State) (a : ActuatorNo) (r : Request) (n : Nat) :
    (s.sendRequest a r n).still = s.still := modAct_still s a _ (fun _ => rfl)

@[simp] theorem supersede_still (s : State) (a : ActuatorNo) : (s.supersede a).still = s.still := by
  unfold State.supersede; split <;> simp

@[simp] theorem sendMove_still (s : State) (c : Claim) : (s.sendMove c).still = s.still := by
  unfold State.sendMove; dsimp only
  rw [sendRequest_still, still_bus, modAct_still, supersede_still] <;> first | rfl | exact fun _ => rfl

@[simp] theorem grantClaim_still (s : State) : s.grantClaim.still = s.still := by
  unfold State.grantClaim; split
  all_goals first | rfl | (rw [sendRequest_still]; rfl) | (rw [sendMove_still]; rfl)

@[simp] theorem grantClear_still (s : State) (c : Clearing) : (s.grantClear c).still = s.still := by
  unfold State.grantClear; repeat' split
  all_goals first | rfl | (rw [grantClaim_still]; rfl) | simp

@[simp] theorem grantLine_still (s : State) : s.grantLine.still = s.still := by
  unfold State.grantLine; repeat' split
  all_goals simp

@[simp] theorem placeIso_still (s : State) (a : ActuatorNo) (t : Nat) (c : Client) :
    (s.placeIso a t c).still = s.still := by unfold State.placeIso; rw [grantLine_still]; rfl

@[simp] theorem placeFlow_still (s : State) (a : ActuatorNo) (t : Nat) : (s.placeFlow a t).still = s.still := by
  unfold State.placeFlow; split
  · simp
  · rw [grantLine_still]; rfl

@[simp] theorem placeSvc_still (s : State) (a : ActuatorNo) (t : Nat) (c : Client) :
    (s.placeSvc a t c).still = s.still := by
  unfold State.placeSvc; split
  · simp
  · rw [grantLine_still]; rfl

@[simp] theorem placePoll_still (s : State) (a : ActuatorNo) (v : Bool) : (s.placePoll a v).still = s.still := by
  unfold State.placePoll; split
  · rfl
  · rw [grantLine_still]; rfl

@[simp] theorem dismiss_still (s : State) (c : Client) : (s.dismiss c).still = s.still := by
  refine still_bus s _ ?_
  rw [List.map_map]
  refine List.map_congr_left (fun x _ => ?_)
  cases hx : x.move with
  | none => simp [hx]
  | some m => simp only [Function.comp, hx]; split <;> rfl

@[simp] theorem endService_still (s : State) (st : Status) (b : CompletionBody) : (s.endService st b).still = s.still := by
  unfold State.endService; split
  · rw [dismiss_still, still_bus, complete_still]; rfl
  · rfl

@[simp] theorem clearDraw_still (s : State) (p : Position) : (s.clearDraw p).still = s.still :=
  modBr_still s p _ (fun _ => rfl)

@[simp] theorem endVerify_still (s : State) (p : Position) (st : VerifyStatus) (b : Bool) :
    (s.endVerify p st b).still = s.still := by
  unfold State.endVerify; dsimp only
  rw [complete_still]
  split
  · rw [placeSvc_still, still_bus, dismiss_still, clearDraw_still, still_bus] <;> rfl
  · rw [dismiss_still, clearDraw_still, still_bus]; rfl

@[simp] theorem endClosing_still (s : State) (p : Position) : (s.endClosing p).still = s.still := by
  unfold State.endClosing; repeat' split
  all_goals rfl

@[simp] theorem endMove_still (s : State) (a : ActuatorNo) (k : ReportKind) : (s.endMove a k).still = s.still := by
  unfold State.endMove; split
  · rfl
  · rw [report_still, still_bus, modAct_still] <;> first | rfl | exact fun _ => rfl

@[simp] theorem failMove_still (s : State) (a : ActuatorNo) (f : FaultCode) : (s.failMove a f).still = s.still := by
  unfold State.failMove; split
  · rw [endMove_still]; exact modAct_still _ _ _ (fun _ => rfl)
  · rfl

/-! ### Flow control -/

@[simp] theorem unsettle_still (s : State) (p : Position) (c : SettleCause) : (s.unsettle p c).still = s.still := by
  unfold State.unsettle; dsimp only; split
  · rw [notify_still]; exact modBr_still _ _ _ (fun _ => rfl)
  · exact modBr_still _ _ _ (fun _ => rfl)

@[simp] theorem returnRule_still (s : State) (p : Position) : (s.returnRule p).still = s.still := by
  unfold State.returnRule; split <;> simp

@[simp] theorem followCurve_still (s : State) (p : Position) : (s.followCurve p).still = s.still := by
  unfold State.followCurve; dsimp only; rw [placeFlow_still]; exact modBr_still _ _ _ (fun _ => rfl)

@[simp] theorem actOnDrive_still (s : State) (p : Position) : (s.actOnDrive p).still = s.still := by
  unfold State.actOnDrive; split
  · simp
  all_goals first | rfl | exact modBr_still _ _ _ (fun _ => rfl)

@[simp] theorem handOver_still (s : State) (p : Position) : (s.handOver p).still = s.still := by
  unfold State.handOver; dsimp only; rw [actOnDrive_still, unsettle_still]; exact modBr_still _ _ _ (fun _ => rfl)

@[simp] theorem setDrive_still (s : State) (p : Position) (d : Nat) : (s.setDrive p d).still = s.still := by
  unfold State.setDrive; split
  · rfl
  · rw [handOver_still]; exact modBr_still _ _ _ (fun _ => rfl)

@[simp] theorem shutValves_still (s : State) (p : Position) : (s.shutValves p).still = s.still := by
  simp [State.shutValves]

@[simp] theorem shutBranch_still (s : State) (p : Position) : (s.shutBranch p).still = s.still := by
  unfold State.shutBranch; dsimp only; rw [shutValves_still]
  rw [modBr_still, setDrive_still] <;> first | rfl | exact fun _ => rfl

/-! ### The pass -/

@[simp] theorem revokeDraw_still (s : State) (p : Position) : (s.revokeDraw p).still = s.still := by
  unfold State.revokeDraw; dsimp only; repeat' split
  all_goals simp

@[simp] theorem fitDraws_still (s : State) : s.fitDraws.still = s.still := by
  unfold State.fitDraws; refine forEach_still _ (fun s p => ?_) _ _; split <;> simp

@[simp] theorem setGrant_still (s : State) (p : Position) (g : Nat) : (s.setGrant p g).still = s.still :=
  modBr_still _ _ _ (fun _ => rfl)

@[simp] theorem grantFloors_still (s : State) : s.grantFloors.still = s.still := by
  unfold State.grantFloors; exact forEach_still _ (fun s p => by simp) _ _

@[simp] theorem handDown_still (l : List Position) : ∀ x : State × Nat, (l.foldl handDownStep x).1.still = x.1.still := by
  induction l with
  | nil => intro x; rfl
  | cons p l ih => intro x; rw [List.foldl_cons, ih]; simp [handDownStep]

@[simp] theorem grantInFull_still (s : State) : s.grantInFull.still = s.still := by simp [State.grantInFull]

@[simp] theorem grantShort_still (s : State) : s.grantShort.still = s.still := by
  unfold State.grantShort; exact forEach_still _ (fun s p => by simp) _ _

@[simp] theorem grantAll_still (s : State) : s.grantAll.still = s.still := by
  unfold State.grantAll; split <;> simp

@[simp] theorem warnCut_still (s : State) (p : Position) : (s.warnCut p).still = s.still := by
  unfold State.warnCut; split <;> simp

@[simp] theorem compareDrive_still (s : State) (p : Position) : (s.compareDrive p).still = s.still := by
  unfold State.compareDrive; dsimp only; repeat' split
  all_goals first
    | rfl
    | rw [setDrive_still]
    | (rw [modBr_still] <;> first | rfl | exact fun _ => rfl)

@[simp] theorem riseRound_still (v : Branch → Nat) (l : List Position) :
    ∀ x : State × Int, (l.foldl (riseStep v) x).1.still = x.1.still := by
  induction l with
  | nil => intro x; rfl
  | cons p l ih =>
    intro x; rw [List.foldl_cons, ih]; unfold riseStep; dsimp only; split
    · rw [setDrive_still]
    · rfl

@[simp] theorem rises_still (s : State) (ps : List Position) : (s.rises ps).still = s.still := by
  unfold State.rises; split
  · rfl
  · dsimp only; rw [riseRound_still, riseRound_still]

@[simp] theorem setRiseWaiting_still (s : State) : s.setRiseWaiting.still = s.still := by
  unfold State.setRiseWaiting; refine forEach_still _ (fun s p => modBr_still _ _ _ ?_) _ _; exact fun _ => rfl

@[simp] theorem reexamine_still (s : State) : s.reexamine.still = s.still := by simp [State.reexamine]

@[simp] theorem setQueues_still (s : State) : s.setQueues.still = s.still := by
  unfold State.setQueues; dsimp only; rw [still_arb] <;> rfl

@[simp] theorem alert_still (s : State) (c : AlertCause) : (s.alert c).still = s.still := by simp [State.alert]

@[simp] theorem demand_still (s : State) : s.demand.still = s.still := by
  unfold State.demand; dsimp only; split
  · rw [notify_still, still_arb] <;> rfl
  · rw [still_arb] <;> rfl

@[simp] theorem passNotices_still (s b : State) (l : List Position) (as : List AlertCause) :
    (s.passNotices b l as).still = s.still := by
  unfold State.passNotices; dsimp only
  rw [forEach_still State.alert (fun s c => alert_still s c), demand_still,
    forEach_still _ (fun s p => notify_still s (s.grantNotice p)), forEach_still State.warnCut (fun s p => warnCut_still s p)]

theorem still_shortfall (s : State) (v : Bool) : ({ s with arb.shortfall := v } : State).still = s.still := rfl

theorem still_ran (s : State) (v : Bool) : ({ s with work.ran := v } : State).still = s.still := rfl

/-- A pass writes nothing that `State.still` keeps (R31). -/
@[simp] theorem pass_still (s : State) (l : List Position) (as : List AlertCause) : (s.pass l as).still = s.still := by
  unfold State.pass; dsimp only
  refine (passNotices_still _ _ _ _).trans ((still_ran _ _).trans <| (setQueues_still _).trans ((setRiseWaiting_still _).trans
    ((rises_still _ _).trans ((forEach_still State.compareDrive (fun s p => compareDrive_still s p) _ _).trans ?_))))
  exact (still_shortfall _ _).trans ((grantAll_still _).trans (fitDraws_still _))

end Sys2Proof.Machine
end

