-- ==== Sys2Proof/Laws/Sound.lean ====
section
/-! SUPPORT. The operations of a pass, of the bus and of the link keep the outbound queue in its bounds, leave nothing waiting at a free line, and make only reports that no job acts on: one lemma per operation. -/

namespace Sys2Proof.Machine

/-- A report that ends no close and marks no fault: a move superseded, or a claim refused for a reservation (R72). -/
def Report.Mild (r : Report) : Prop := r.kind = .superseded ∨ r.kind = .refusedReserved

/-- The outbound queue is in its bounds; where `g` asks for it, nothing waits at a free line; where `m` asks for it, every
report waiting is mild. -/
structure State.Sound (g m : Bool) (s : State) : Prop where
  out : s.link.outbound.length ≤ Config.outboundSize
  granted : g = true → s.bus.Granted
  mild : m = true → ∀ r ∈ s.bus.reports, r.Mild

/-- Soundness reads the outbound queue and the bus. -/
theorem State.Sound.of_same {g m : Bool} {s t : State} (h : s.Sound g m) (hl : t.link.outbound = s.link.outbound)
    (hb : t.bus = s.bus) : t.Sound g m :=
  ⟨hl ▸ h.out, fun e => hb ▸ h.granted e, hb ▸ h.mild⟩

/-- Soundness without regard to the reports. -/
theorem State.Sound.weaken {g m : Bool} {s : State} (h : s.Sound g m) : s.Sound g false :=
  ⟨h.out, h.granted, fun e => nomatch e⟩

/-- Work for each element of a list that keeps soundness. -/
theorem forEach_sound {α : Type} {g m : Bool} {s : State} {f : State → α → State} (l : List α) (h : s.Sound g m)
    (hf : ∀ s a, s.Sound g m → (f s a).Sound g m) : (s.forEach l f).Sound g m := forEach_keeps _ f hf l s h

theorem modBr_sound {g m : Bool} {s : State} (p : Position) (f : Branch → Branch) (h : s.Sound g m) : (s.modBr p f).Sound g m :=
  h.of_same rfl rfl

theorem modAct_sound {g m : Bool} {s : State} (a : ActuatorNo) (f : Actuator → Actuator) (h : s.Sound g m) :
    (s.modAct a f).Sound g m := ⟨h.out, h.granted, h.mild⟩

/-! ### Link -/

/-- Removing an element shortens a list by one. -/
theorem dropLast?_length {α : Type} {p : α → Bool} {l r : List α} (h : dropLast? p l = some r) :
    r.length + 1 = l.length := by
  unfold dropLast? at h
  split at h
  · rename_i hp
    cases h
    obtain ⟨x, hx, hpx⟩ := List.any_eq_true.1 hp
    have := List.length_eraseP_of_mem (List.mem_reverse.2 hx) hpx
    have : 0 < l.length := List.length_pos_of_mem hx
    simp only [List.length_reverse] at *
    omega
  · cases h

/-- A new entry never takes the outbound queue beyond its capacity (R181, R182). -/
theorem makeRoom_length {b : Bool} {q r : List OutEntry} {n : OutEntry} (h : makeRoom b q n = some r)
    (hq : q.length ≤ Config.outboundSize) : r.length ≤ Config.outboundSize := by
  unfold makeRoom at h; dsimp only at h
  generalize indexWhere _ _ _ = o at h
  cases o with
  | some i => cases h; simpa using hq
  | none =>
    dsimp only at h
    split at h
    · cases h; simp; omega
    · split at h
      · obtain ⟨x, hx, rfl⟩ := Option.map_eq_some_iff.1 h
        have : x.length + 1 = q.length := by
          unfold dropNewest at hx
          split at hx
          · obtain ⟨y, hy, rfl⟩ := Option.map_eq_some_iff.1 hx
            have := dropLast?_length hy
            simp only [List.length_cons]; omega
          · exact dropLast?_length hx
        simp only [List.length_append, List.length_cons, List.length_nil]; omega
      · cases h

theorem countFor_sound {g m : Bool} {s : State} (is : List Nat) (h : s.Sound g m) : (s.countFor is).Sound g m :=
  forEach_sound _ h (fun _ _ h => h.of_same rfl rfl)

theorem enqueue_sound {g m : Bool} {s : State} (e : OutEntry) (is : List Nat) (h : s.Sound g m) : (s.enqueue e is).Sound g m := by
  unfold State.enqueue; split
  · exact h
  · rename_i q hq
    exact countFor_sound is ⟨makeRoom_length hq h.out, h.granted, h.mild⟩

theorem work_sound {g m : Bool} {s : State} (w : Work) (h : s.Sound g m) : ({ s with work := w } : State).Sound g m :=
  h.of_same rfl rfl

theorem notify_sound {g m : Bool} {s : State} (n : Notice) (h : s.Sound g m) : (s.notify n).Sound g m := work_sound _ h

theorem arbiterSpeaksLast_sound {g m : Bool} {s : State} (h : s.Sound g m) : s.arbiterSpeaksLast.Sound g m :=
  work_sound _ h

theorem askPass_sound {g m : Bool} {s : State} (l : List Position) (h : s.Sound g m) : (s.askPass l).Sound g m :=
  work_sound _ h

theorem askDrawPass_sound {g m : Bool} {s : State} (h : s.Sound g m) : s.askDrawPass.Sound g m := by
  unfold State.askDrawPass; split
  · exact h
  · exact askPass_sound _ h

theorem afterPass_sound {g m : Bool} {s : State} (x : AfterPass) (h : s.Sound g m) : (s.afterPass x).Sound g m :=
  work_sound _ h

theorem hand_sound {g m : Bool} {s : State} (x : HeldNotice) (h : s.Sound g m) : (s.hand x).Sound g m := by
  unfold State.hand; split
  · exact h
  · exact enqueue_sound _ _ h

/-- The notices of an event reach the outbound queue within its bounds (R181, R182). -/
theorem flush_sound {g m : Bool} {s : State} (h : s.Sound g m) : s.flush.Sound g m :=
  work_sound _ (forEach_sound _ h (fun _ _ h => hand_sound _ h))

theorem complete_sound {g m : Bool} {s : State} (k : LongKind) (st : Status) (b : CompletionBody) (h : s.Sound g m) :
    (s.complete k st b).Sound g m := by
  unfold State.complete; split
  · exact h
  · exact h.of_same rfl rfl

theorem transmit_sound {g m : Bool} {s : State} (h : s.Sound g m) : s.transmit.Sound g m := by
  unfold State.transmit; repeat' split
  all_goals exact h.of_same rfl rfl

/-! ### Bus -/

theorem report_sound {g m : Bool} {s : State} (c : Client) (a : ActuatorNo) {k : ReportKind} (h : s.Sound g m)
    (hk : m = true → k = .superseded ∨ k = .refusedReserved) : (s.report c a k).Sound g m := by
  unfold State.report; split
  · exact h
  · refine ⟨h.out, h.granted, fun e r hr => ?_⟩
    rcases List.mem_append.1 hr with hr | hr
    · exact h.mild e r hr
    · cases List.mem_singleton.1 hr; exact hk e

/-- After a request the line is busy. -/
theorem sendRequest_sound {g m : Bool} {s : State} (a : ActuatorNo) (r : Request) (n : Nat)
    (ho : s.link.outbound.length ≤ Config.outboundSize) (hm : m = true → ∀ r ∈ s.bus.reports, r.Mild) :
    (s.sendRequest a r n).Sound g m :=
  ⟨ho, fun _ => Or.inl (fun e => nomatch e), hm⟩

/-- A superseded move is reported mildly. -/
theorem supersede_keeps {m : Bool} {s : State} (a : ActuatorNo)
    (ho : s.link.outbound.length ≤ Config.outboundSize) (hm : m = true → ∀ r ∈ s.bus.reports, r.Mild) :
    (s.supersede a).link.outbound.length ≤ Config.outboundSize ∧
    (m = true → ∀ r ∈ (s.supersede a).bus.reports, r.Mild) := by
  unfold State.supersede; split
  · exact ⟨ho, hm⟩
  · unfold State.report; split
    · exact ⟨ho, hm⟩
    · refine ⟨ho, fun e r hr => ?_⟩
      rcases List.mem_append.1 hr with hr | hr
      · exact hm e r hr
      · cases List.mem_singleton.1 hr; exact Or.inl rfl

theorem sendMove_sound {g m : Bool} {s : State} (c : Claim)
    (ho : s.link.outbound.length ≤ Config.outboundSize) (hm : m = true → ∀ r ∈ s.bus.reports, r.Mild) :
    (s.sendMove c).Sound g m := by
  have hs := supersede_keeps (m := m) c.actuator ho hm
  unfold State.sendMove
  exact sendRequest_sound _ _ _ hs.1 hs.2

theorem grantClaim_sound {g m : Bool} {s : State} (ho : s.link.outbound.length ≤ Config.outboundSize)
    (hm : m = true → ∀ r ∈ s.bus.reports, r.Mild) (hc : s.bus.clearing = none) : s.grantClaim.Sound g m := by
  unfold State.grantClaim; split
  all_goals first
    | exact sendRequest_sound _ _ _ ho hm
    | exact sendMove_sound _ ho hm
    | skip
  rename_i h1 h2 h3 h4 h5
  exact ⟨ho, fun _ => Or.inr ⟨hc, h1, h2, h3, h4, h5⟩, hm⟩

/-- After the grant of the line it is busy, or nothing waits for it (R71). -/
theorem grantLine_sound {g m : Bool} {s : State} (ho : s.link.outbound.length ≤ Config.outboundSize)
    (hm : m = true → ∀ r ∈ s.bus.reports, r.Mild) : s.grantLine.Sound g m := by
  unfold State.grantLine; split
  · split
    · unfold State.grantClear; repeat' split
      · exact sendRequest_sound _ _ _ ho hm
      · exact grantClaim_sound ho hm rfl
      · exact ⟨ho, fun _ => Or.inl (fun e => nomatch e), hm⟩
    · rename_i hc
      exact grantClaim_sound ho hm hc
  · rename_i hl
    exact ⟨ho, fun _ => Or.inl hl, hm⟩

theorem placeIso_sound {g m : Bool} {s : State} (a : ActuatorNo) (t : Nat) (c : Client) (h : s.Sound g m) :
    (s.placeIso a t c).Sound g m := grantLine_sound h.out h.mild

theorem placeFlow_sound {g m : Bool} {s : State} (a : ActuatorNo) (t : Nat) (h : s.Sound g m) : (s.placeFlow a t).Sound g m := by
  unfold State.placeFlow; split
  · exact report_sound _ _ h (fun _ => Or.inr rfl)
  · exact grantLine_sound h.out h.mild

theorem placeSvc_sound {g m : Bool} {s : State} (a : ActuatorNo) (t : Nat) (c : Client) (h : s.Sound g m) :
    (s.placeSvc a t c).Sound g m := by
  unfold State.placeSvc; split
  · exact report_sound _ _ h (fun _ => Or.inr rfl)
  · exact grantLine_sound h.out h.mild

theorem placePoll_sound {g m : Bool} {s : State} (a : ActuatorNo) (v : Bool) (h : s.Sound g m) : (s.placePoll a v).Sound g m := by
  unfold State.placePoll; split
  · exact h
  · exact grantLine_sound h.out h.mild

/-- A reservation removes claims and reports them refused (R73). -/
theorem reserve_sound {g m : Bool} {s : State} (i : JobId) (a : ActuatorNo) (h : s.Sound g m) : (s.reserve i a).Sound g m := by
  unfold State.reserve; dsimp only
  refine forEach_sound _ ⟨h.out, ?_, h.mild⟩ (fun s c h => report_sound _ _ h (fun _ => Or.inr rfl))
  intro hg; rcases h.granted hg with hl | ⟨h0, h1, h2, h3, h4, h5⟩
  · exact Or.inl hl
  · refine Or.inr ⟨h0, h1, ?_, ?_, ?_, h5⟩
    · show List.filter _ s.bus.isoQ = []
      rw [h2]; rfl
    · show List.filter _ s.bus.flowQ = []
      rw [h3]; rfl
    · show List.filter _ s.bus.svcQ = []
      rw [h4]; rfl

theorem unreserve_sound {g m : Bool} {s : State} (a : ActuatorNo) (h : s.Sound g m) : (s.unreserve a).Sound g m :=
  modAct_sound _ _ h

theorem dismiss_sound {g m : Bool} {s : State} (c : Client) (h : s.Sound g m) : (s.dismiss c).Sound g m := by
  refine ⟨h.out, ?_, h.mild⟩
  intro hg; rcases h.granted hg with hl | ⟨h0, h1, h2, h3, h4, h5⟩
  · exact Or.inl hl
  · refine Or.inr ⟨h0, h1, h2, h3, ?_, h5⟩
    show List.filter _ s.bus.svcQ = []
    rw [h4]; rfl

theorem markFault_sound {g m : Bool} {s : State} (p : Position) (x : FaultMember) (v : Option MeterSide) (h : s.Sound g m) :
    (s.markFault p x v).Sound g m := by
  unfold State.markFault; repeat' split
  all_goals first
    | exact h
    | exact notify_sound _ (modBr_sound _ _ h)

theorem recheckValveFault_sound {g m : Bool} {s : State} (a : ActuatorNo) (h : s.Sound g m) :
    (s.recheckValveFault a).Sound g m := by
  unfold State.recheckValveFault; repeat' split
  all_goals first
    | exact h
    | exact modBr_sound _ _ h

/-- Losing a due tracking poll leaves nothing waiting at a free line. -/
theorem eraseTrack_sound {g m : Bool} {s : State} (a : ActuatorNo) (h : s.Sound g m) :
    ({ s with bus.trackDue := s.bus.trackDue.erase a } : State).Sound g m := by
  refine ⟨h.out, ?_, h.mild⟩
  intro hg; rcases h.granted hg with hl | ⟨h0, h1, h2, h3, h4, h5⟩
  · exact Or.inl hl
  · refine Or.inr ⟨h0, ?_, h2, h3, h4, h5⟩
    show s.bus.trackDue.erase a = []
    rw [h1]; rfl

theorem endMove_sound {g m : Bool} {s : State} (a : ActuatorNo) (k : ReportKind) (h : s.Sound g m) :
    (s.endMove a k).Sound g false := by
  unfold State.endMove; split
  · exact h.weaken
  · exact report_sound _ _ (eraseTrack_sound _ (modAct_sound _ _ h.weaken)) (fun e => nomatch e)

theorem failMove_sound {g m : Bool} {s : State} (a : ActuatorNo) (f : FaultCode) (h : s.Sound g m) :
    (s.failMove a f).Sound g false := by
  unfold State.failMove; split
  · exact endMove_sound _ _ (modAct_sound _ _ h)
  · exact h.weaken

theorem clearReturnOpen_sound {g m : Bool} {s : State} (a : ActuatorNo) (h : s.Sound g m) : (s.clearReturnOpen a).Sound g m := by
  unfold State.clearReturnOpen; repeat' split
  all_goals first
    | exact h
    | exact modBr_sound _ _ h

theorem completeMove_sound {g m : Bool} {s : State} (a : ActuatorNo) (h : s.Sound g m) : (s.completeMove a).Sound g false := by
  unfold State.completeMove; split
  · exact endMove_sound _ _ (clearReturnOpen_sound _ (recheckValveFault_sound _ (modAct_sound _ _ h)))
  · exact h.weaken

theorem endService_sound {g m : Bool} {s : State} (st : Status) (b : CompletionBody) (h : s.Sound g m) :
    (s.endService st b).Sound g m := by
  unfold State.endService; split
  · have h1 := complete_sound .service st b h
    exact dismiss_sound _ ⟨h1.out, h1.granted, h1.mild⟩
  · exact h

theorem clearDraw_sound {g m : Bool} {s : State} (p : Position) (h : s.Sound g m) : (s.clearDraw p).Sound g m :=
  modBr_sound _ _ h

theorem endVerify_sound {g m : Bool} {s : State} (p : Position) (st : VerifyStatus) (b : Bool) (h : s.Sound g m) :
    (s.endVerify p st b).Sound g m := by
  have h1 : (({ s with bus.verify := { s.bus.verify with status := st } } : State)).Sound g m :=
    ⟨h.out, h.granted, h.mild⟩
  have h2 := dismiss_sound .verify (clearDraw_sound p h1)
  unfold State.endVerify; dsimp only
  refine complete_sound _ _ _ ?_
  split
  · exact placeSvc_sound _ _ _ ⟨h2.out, h2.granted, h2.mild⟩
  · exact h2

theorem endClosing_sound {g m : Bool} {s : State} (p : Position) (h : s.Sound g m) : (s.endClosing p).Sound g m := by
  unfold State.endClosing; repeat' split
  · exact h
  · refine ⟨h.out, ?_, h.mild⟩
    intro hg; rcases h.granted hg with hl | ⟨h0, h1, h2, h3, h4, h5⟩
    · exact Or.inl hl
    · refine Or.inr ⟨h0, h1, h2, h3, ?_, h5⟩
      show List.filter _ s.bus.svcQ = []
      rw [h4]; rfl
  · exact h

/-! ### Flow control -/

theorem unsettle_sound {g m : Bool} {s : State} (p : Position) (c : SettleCause) (h : s.Sound g m) :
    (s.unsettle p c).Sound g m := by
  unfold State.unsettle; dsimp only; split
  · exact notify_sound _ (modBr_sound _ _ h)
  · exact modBr_sound _ _ h

theorem returnRule_sound {g m : Bool} {s : State} (p : Position) (h : s.Sound g m) : (s.returnRule p).Sound g m := by
  unfold State.returnRule; split
  · exact h
  · exact placeFlow_sound _ _ h

theorem followCurve_sound {g m : Bool} {s : State} (p : Position) (h : s.Sound g m) : (s.followCurve p).Sound g m :=
  placeFlow_sound _ _ (modBr_sound _ _ h)

theorem actOnDrive_sound {g m : Bool} {s : State} (p : Position) (h : s.Sound g m) : (s.actOnDrive p).Sound g m := by
  unfold State.actOnDrive; split
  · exact returnRule_sound _ (followCurve_sound _ h)
  all_goals first
    | exact h
    | exact modBr_sound _ _ h

theorem handOver_sound {g m : Bool} {s : State} (p : Position) (h : s.Sound g m) : (s.handOver p).Sound g m :=
  actOnDrive_sound _ (unsettle_sound _ _ (modBr_sound _ _ h))

theorem setDrive_sound {g m : Bool} {s : State} (p : Position) (d : Nat) (h : s.Sound g m) : (s.setDrive p d).Sound g m := by
  unfold State.setDrive; split
  · exact h
  · exact handOver_sound _ (modBr_sound _ _ h)

theorem shutValves_sound {g m : Bool} {s : State} (p : Position) (h : s.Sound g m) : (s.shutValves p).Sound g m :=
  placeFlow_sound _ _ (placeFlow_sound _ _ h)

theorem shutBranch_sound {g m : Bool} {s : State} (p : Position) (h : s.Sound g m) : (s.shutBranch p).Sound g m :=
  shutValves_sound _ (modBr_sound _ _ (setDrive_sound _ _ h))

/-! ### The pass -/

theorem revokeDraw_sound {g m : Bool} {s : State} (p : Position) (h : s.Sound g m) : (s.revokeDraw p).Sound g m := by
  unfold State.revokeDraw; dsimp only
  refine shutValves_sound _ ?_
  have h1 := clearDraw_sound p h
  repeat' split
  all_goals first
    | exact h1
    | exact endVerify_sound _ _ _ (endService_sound _ _ h1)
    | exact endVerify_sound _ _ _ h1
    | exact endService_sound _ _ h1

theorem fitDraws_sound {g m : Bool} {s : State} (h : s.Sound g m) : s.fitDraws.Sound g m := by
  refine forEach_sound _ h (fun s p h => ?_)
  split
  · exact revokeDraw_sound _ h
  · exact h

theorem setGrant_sound {g m : Bool} {s : State} (p : Position) (n : Nat) (h : s.Sound g m) : (s.setGrant p n).Sound g m :=
  modBr_sound _ _ h

theorem handDown_sound {g m : Bool} (l : List Position) :
    ∀ x : State × Nat, x.1.Sound g m → (l.foldl handDownStep x).1.Sound g m := by
  induction l with
  | nil => intro x h; exact h
  | cons p l ih => intro x h; exact ih _ (setGrant_sound _ _ h)

theorem grantAll_sound {g m : Bool} {s : State} (h : s.Sound g m) : s.grantAll.Sound g m := by
  unfold State.grantAll; split
  · exact forEach_sound _ h (fun s p h => setGrant_sound _ _ h)
  · exact handDown_sound _ _ (forEach_sound _ h (fun s p h => setGrant_sound _ _ h))

theorem warnCut_sound {g m : Bool} {s : State} (p : Position) (h : s.Sound g m) : (s.warnCut p).Sound g m := by
  unfold State.warnCut; split
  · exact h
  · exact notify_sound _ h

theorem compareDrive_sound {g m : Bool} {s : State} (p : Position) (h : s.Sound g m) : (s.compareDrive p).Sound g m := by
  unfold State.compareDrive; dsimp only; repeat' split
  all_goals first
    | exact h
    | exact setDrive_sound _ _ h
    | exact modBr_sound _ _ h

theorem riseRound_sound {g m : Bool} (v : Branch → Nat) (l : List Position) :
    ∀ x : State × Int, x.1.Sound g m → (l.foldl (riseStep v) x).1.Sound g m := by
  induction l with
  | nil => intro x h; exact h
  | cons p l ih =>
    intro x h
    rw [List.foldl_cons]
    refine ih _ ?_
    unfold riseStep; dsimp only; split
    · exact setDrive_sound _ _ h
    · exact h

theorem rises_sound {g m : Bool} {s : State} (ps : List Position) (h : s.Sound g m) : (s.rises ps).Sound g m := by
  unfold State.rises; split
  · exact h
  · exact riseRound_sound _ _ _ (riseRound_sound _ _ _ h)

theorem setRiseWaiting_sound {g m : Bool} {s : State} (h : s.Sound g m) : s.setRiseWaiting.Sound g m :=
  forEach_sound _ h (fun _ _ h => modBr_sound _ _ h)

theorem reexamine_sound {g m : Bool} {s : State} (h : s.Sound g m) : s.reexamine.Sound g m :=
  setRiseWaiting_sound (rises_sound _ h)

theorem setQueues_sound {g m : Bool} {s : State} (h : s.Sound g m) : s.setQueues.Sound g m := ⟨h.out, h.granted, h.mild⟩

theorem alert_sound {g m : Bool} {s : State} (c : AlertCause) (h : s.Sound g m) : (s.alert c).Sound g m := notify_sound _ h

theorem demand_sound {g m : Bool} {s : State} (h : s.Sound g m) : s.demand.Sound g m := by
  unfold State.demand; dsimp only; split
  · exact notify_sound _ (h.of_same rfl rfl)
  · exact h.of_same rfl rfl

theorem passNotices_sound {g m : Bool} {s : State} (b : State) (l : List Position) (as : List AlertCause) (h : s.Sound g m) :
    (s.passNotices b l as).Sound g m :=
  forEach_sound _ (demand_sound (forEach_sound _ (forEach_sound _ h (fun _ _ h => warnCut_sound _ h))
    (fun _ _ h => notify_sound _ h))) (fun _ _ h => alert_sound _ h)

theorem shortfall_sound {g m : Bool} {s : State} (v : Bool) (h : s.Sound g m) :
    ({ s with arb.shortfall := v } : State).Sound g m := h.of_same rfl rfl

/-- A pass keeps the outbound queue in its bounds, leaves nothing at a free line, and makes only mild reports (R31). -/
theorem pass_sound {g m : Bool} {s : State} (l : List Position) (as : List AlertCause) (h : s.Sound g m) :
    (s.pass l as).Sound g m := by
  unfold State.pass
  exact passNotices_sound _ _ _ (work_sound _ <| setQueues_sound (setRiseWaiting_sound (rises_sound _
    (forEach_sound _ (shortfall_sound _ (grantAll_sound (fitDraws_sound h))) (fun _ _ h => compareDrive_sound _ h)))))

end Sys2Proof.Machine
end

