-- ==== Sys2Proof/Laws/Jobs.lean ====
section
/-! SUPPORT. The operations of the isolation sequencer leave alone all that `State.frozen` keeps, and keep soundness: one lemma per operation. -/

namespace Sys2Proof.Machine

/-- What the work of a job may make of a base state `b`: a state that agrees with it in `State.frozen` and is sound, with
nothing waiting at a free line where `g` asks for it. -/
structure State.Onward (g : Bool) (b s : State) : Prop where
  kept : s.frozen = b.frozen
  sound : s.Sound g false

namespace State.Onward

/-- A sound state is onward from itself. -/
theorem refl {g m : Bool} {s : State} (h : s.Sound g m) : Onward g s s := ⟨rfl, h.weaken⟩

/-- What leaves `State.still` alone and keeps soundness goes onward. -/
theorem quiet {g : Bool} {b s t : State} (h : Onward g b s) (hs : t.still = s.still) (ht : s.Sound g false → t.Sound g false) :
    Onward g b t := ⟨(congrArg State.freeze hs).trans h.kept, ht h.sound⟩

/-- What leaves bus and outbound queue alone and agrees in `State.frozen` goes onward. -/
theorem same {g : Bool} {b s t : State} (h : Onward g b s) (hf : t.frozen = s.frozen) (hl : t.link.outbound = s.link.outbound)
    (hb : t.bus = s.bus) : Onward g b t := ⟨hf.trans h.kept, h.sound.of_same hl hb⟩

/-- Work for each element of a list goes onward if each piece does. -/
theorem each {α : Type} {g : Bool} {b s : State} {f : State → α → State} (l : List α) (h : Onward g b s)
    (hf : ∀ s a, Onward g b s → Onward g b (f s a)) : Onward g b (s.forEach l f) := forEach_keeps _ f hf l s h

variable {g : Bool} {b s : State}

theorem modBr (p : Position) (f : Branch → Branch) (hf : ∀ x, (f x).still.freeze = x.still.freeze) (h : Onward g b s) :
    Onward g b (s.modBr p f) := by
  refine h.same ?_ rfl rfl
  simp only [State.frozen, State.freeze, State.still, State.modBr, List.map_map]
  rw [map_modify_same _ f hf]

theorem modAct (a : ActuatorNo) (f : Actuator → Actuator)
    (hf : ∀ x, ({ (f x).still with reservedBy := 0 } : Actuator) = { x.still with reservedBy := 0 }) (h : Onward g b s) :
    Onward g b (s.modAct a f) := by
  refine ⟨?_, modAct_sound a f h.sound⟩
  refine Eq.trans ?_ h.kept
  simp only [State.frozen, State.freeze, State.still, State.modAct, List.map_map]
  rw [map_modify_same _ f hf]

theorem mapActs (f : Actuator → Actuator)
    (hf : ∀ x, ({ (f x).still with reservedBy := 0 } : Actuator) = { x.still with reservedBy := 0 }) (h : Onward g b s) :
    Onward g b { s with bus.actuators := s.bus.actuators.map f } := by
  refine ⟨?_, ⟨h.sound.out, h.sound.granted, h.sound.mild⟩⟩
  refine Eq.trans ?_ h.kept
  have : (s.bus.actuators.map f).map (fun x => ({ x.still with reservedBy := 0 } : Actuator)) =
      s.bus.actuators.map (fun x => ({ x.still with reservedBy := 0 } : Actuator)) := by
    rw [List.map_map]; exact List.map_congr_left (fun x _ => hf x)
  simp only [List.map_map] at this
  simp only [State.frozen, State.freeze, State.still, List.map_map]
  simp only [Function.comp_def] at this ⊢
  rw [this]

/-- The table of jobs may change, but not its size. -/
theorem iso (x : Sequencer) (hx : x.slots.length = s.iso.slots.length) (h : Onward g b s) : Onward g b { s with iso := x } := by
  refine h.same ?_ rfl rfl
  have : x.slots.map (fun _ => (none : Option Job)) = s.iso.slots.map (fun _ => none) := by
    simp [List.map_const', hx]
  simp only [State.frozen, State.freeze, State.still, this]

theorem store (k : Store) (ha : k.imageA = s.store.imageA) (hb : k.imageB = s.store.imageB)
    (hs : k.saving = s.store.saving) (h0 : k.holdA = s.store.holdA) (h1 : k.holdB = s.store.holdB) (h : Onward g b s) :
    Onward g b { s with store := k } := by
  refine h.same ?_ rfl rfl
  simp [State.frozen, State.freeze, State.still, ha, hb, hs, h0, h1]

theorem modJob (i : JobId) (f : Job → Job) (h : Onward g b s) : Onward g b (s.modJob i f) := h.iso _ (List.length_map ..)
theorem setSlot (k : Nat) (j : Option Job) (h : Onward g b s) : Onward g b (s.setSlot k j) := h.iso _ List.length_set
theorem dropJob (i : JobId) (h : Onward g b s) : Onward g b (s.dropJob i) := h.iso _ (List.length_map ..)

theorem notify (n : Notice) (h : Onward g b s) : Onward g b (s.notify n) := h.quiet (notify_still _ _) (notify_sound _)

theorem work (w : Work) (h : Onward g b s) : Onward g b { s with work := w } := h.same rfl rfl rfl
theorem askPass (l : List Position) (h : Onward g b s) : Onward g b (s.askPass l) := work _ h
theorem afterPass (x : AfterPass) (h : Onward g b s) : Onward g b (s.afterPass x) := work _ h

theorem askDrawPass (h : Onward g b s) : Onward g b s.askDrawPass := by
  unfold State.askDrawPass; split
  · exact h
  · exact askPass _ h

theorem hand (x : HeldNotice) (h : Onward g b s) : Onward g b (s.hand x) := h.quiet (hand_still _ _) (hand_sound _)
theorem flush (h : Onward g b s) : Onward g b s.flush := work _ (each _ h (fun _ _ h => hand _ h))

theorem complete (k : LongKind) (st : Status) (x : CompletionBody) (h : Onward g b s) : Onward g b (s.complete k st x) :=
  h.quiet (complete_still _ _ _ _) (complete_sound _ _ _)

theorem report (c : Client) (a : ActuatorNo) (k : ReportKind) (h : Onward g b s) : Onward g b (s.report c a k) :=
  h.quiet (report_still _ _ _ _) (fun hs => report_sound _ _ hs (fun e => nomatch e))

theorem placeIso (a : ActuatorNo) (t : Nat) (c : Client) (h : Onward g b s) : Onward g b (s.placeIso a t c) :=
  h.quiet (placeIso_still _ _ _ _) (placeIso_sound _ _ _)

theorem placeFlow (a : ActuatorNo) (t : Nat) (h : Onward g b s) : Onward g b (s.placeFlow a t) :=
  h.quiet (placeFlow_still _ _ _) (placeFlow_sound _ _)

theorem placeSvc (a : ActuatorNo) (t : Nat) (c : Client) (h : Onward g b s) : Onward g b (s.placeSvc a t c) :=
  h.quiet (placeSvc_still _ _ _ _) (placeSvc_sound _ _ _)

theorem endService (st : Status) (x : CompletionBody) (h : Onward g b s) : Onward g b (s.endService st x) :=
  h.quiet (endService_still _ _ _) (endService_sound _ _)

theorem endVerify (p : Position) (st : VerifyStatus) (v : Bool) (h : Onward g b s) : Onward g b (s.endVerify p st v) :=
  h.quiet (endVerify_still _ _ _ _) (endVerify_sound _ _ _)

theorem endClosing (p : Position) (h : Onward g b s) : Onward g b (s.endClosing p) :=
  h.quiet (endClosing_still _ _) (endClosing_sound _)

theorem clearDraw (p : Position) (h : Onward g b s) : Onward g b (s.clearDraw p) :=
  h.quiet (clearDraw_still _ _) (clearDraw_sound _)

theorem setDrive (p : Position) (d : Nat) (h : Onward g b s) : Onward g b (s.setDrive p d) :=
  h.quiet (setDrive_still _ _ _) (setDrive_sound _ _)

theorem handOver (p : Position) (h : Onward g b s) : Onward g b (s.handOver p) :=
  h.quiet (handOver_still _ _) (handOver_sound _)

theorem unsettle (p : Position) (c : SettleCause) (h : Onward g b s) : Onward g b (s.unsettle p c) :=
  h.quiet (unsettle_still _ _ _) (unsettle_sound _ _)

theorem returnRule (p : Position) (h : Onward g b s) : Onward g b (s.returnRule p) :=
  h.quiet (returnRule_still _ _) (returnRule_sound _)

theorem followCurve (p : Position) (h : Onward g b s) : Onward g b (s.followCurve p) :=
  h.quiet (followCurve_still _ _) (followCurve_sound _)

theorem shutValves (p : Position) (h : Onward g b s) : Onward g b (s.shutValves p) :=
  h.quiet (shutValves_still _ _) (shutValves_sound _)

theorem shutBranch (p : Position) (h : Onward g b s) : Onward g b (s.shutBranch p) :=
  h.quiet (shutBranch_still _ _) (shutBranch_sound _)

theorem reexamine (h : Onward g b s) : Onward g b s.reexamine := h.quiet (reexamine_still _) reexamine_sound

theorem pass (l : List Position) (as : List AlertCause) (h : Onward g b s) : Onward g b (s.pass l as) :=
  h.quiet (pass_still _ _ _) (pass_sound _ _)

theorem failMove (a : ActuatorNo) (f : FaultCode) (h : Onward g b s) : Onward g b (s.failMove a f) :=
  h.quiet (failMove_still _ _ _) (failMove_sound _ _)

theorem endMove (a : ActuatorNo) (k : ReportKind) (h : Onward g b s) : Onward g b (s.endMove a k) :=
  h.quiet (endMove_still _ _ _) (endMove_sound _ _)

/-! ### Stamps, fault marks, reservations, hold writes -/

theorem takeStamp (p : Position) (h : Onward g b s) : Onward g b (s.takeStamp p) := by
  have nextStamp {s : State} (n : Nat) (h : Onward g b s) : Onward g b { s with arb.nextStamp := n } := h.same rfl rfl rfl
  have step {s : State} (p : Position) (k n : Nat) (h : Onward g b s) :
      Onward g b { s.modBr p (fun x => { x with stamp := some k }) with arb.nextStamp := n } :=
    nextStamp n (modBr p (fun x => { x with stamp := some k }) (fun _ => rfl) h)
  unfold State.takeStamp; dsimp only
  refine step p _ _ ?_
  split
  · exact h
  · exact each _ (nextStamp 1 h) (fun s p h => step p _ _ h)

theorem cancelTrim (p : Position) (c : TrimAbort) (h : Onward g b s) : Onward g b (s.cancelTrim p c) := by
  unfold State.cancelTrim; split
  · exact complete _ _ _ (modBr _ _ (fun _ => rfl) h)
  · exact h

theorem clearArbiterFields (p : Position) (h : Onward g b s) : Onward g b (s.clearArbiterFields p) :=
  cancelTrim p .leftActive (modBr p (fun x => { x with
    request := 0, urgent := false, stamp := none, riseWaiting := false, cut := none }) (fun _ => rfl) h)

theorem markValveFault (p : Position) (v : Option MeterSide) (h : Onward g b s) : Onward g b (s.markFault p .valveFault v) := by
  unfold State.markFault; dsimp only; split
  · exact h
  · exact notify _ (modBr p (fun x => { x with valveFault := true }) (fun _ => rfl) h)

theorem markReturnOpen (p : Position) (v : Option MeterSide) (h : Onward g b s) : Onward g b (s.markFault p .returnOpen v) := by
  unfold State.markFault; dsimp only; split
  · exact h
  · exact notify _ (modBr p (fun x => { x with returnOpen := true }) (fun _ => rfl) h)

theorem recheckValveFault (a : ActuatorNo) (h : Onward g b s) : Onward g b (s.recheckValveFault a) := by
  unfold State.recheckValveFault; split
  · exact h
  · split
    · exact modBr _ (fun x => { x with valveFault := false }) (fun _ => rfl) h
    · exact h

theorem clearReturnOpen (a : ActuatorNo) (h : Onward g b s) : Onward g b (s.clearReturnOpen a) := by
  unfold State.clearReturnOpen; split
  · exact h
  · split
    · exact modBr _ (fun x => { x with returnOpen := false }) (fun _ => rfl) h
    · exact h

theorem completeMove (a : ActuatorNo) (h : Onward g b s) : Onward g b (s.completeMove a) := by
  unfold State.completeMove; split
  · exact endMove _ _ (clearReturnOpen _ (recheckValveFault _
      (modAct a (fun x => { x with fault := .none }) (fun _ => rfl) h)))
  · exact h

theorem reserve (i : JobId) (a : ActuatorNo) (h : Onward g b s) : Onward g b (s.reserve i a) := by
  refine ⟨?_, reserve_sound i a h.sound⟩
  have h1 := modAct a (fun x => { x with reservedBy := i }) (fun _ => rfl) h
  unfold State.reserve; dsimp only
  refine (congrArg State.freeze (forEach_still _ (fun s c => report_still _ _ _ _) _ _)).trans ?_
  exact h1.kept

theorem unreserve (a : ActuatorNo) (h : Onward g b s) : Onward g b (s.unreserve a) :=
  modAct a (fun x => { x with reservedBy := 0 }) (fun _ => rfl) h

theorem unreserveAll (i : JobId) (h : Onward g b s) : Onward g b (s.unreserveAll i) :=
  mapActs _ (fun x => by dsimp only; split <;> rfl) h

theorem askHoldWrite (h : Onward g b s) : Onward g b s.askHoldWrite := by
  unfold State.askHoldWrite; split
  · exact store _ rfl rfl rfl rfl rfl h
  · exact store _ rfl rfl rfl rfl rfl h

theorem holdIfChanged (x : State) (h : Onward g b s) : Onward g b (s.holdIfChanged x) := by
  unfold State.holdIfChanged; split
  · exact askHoldWrite h
  · exact h

theorem setMaint (p : Position) (v : Bool) (h : Onward g b s) : Onward g b (s.setMaint p v) :=
  holdIfChanged _ (modBr p (fun x => { x with maint := v }) (fun _ => rfl) h)

/-! ### Table, drill report -/

theorem mergeInto (i : JobId) (m : List Evidence) (h : Onward g b s) : Onward g b (s.mergeInto i m) := modJob _ _ h

theorem removeIfEmpty (i : JobId) (h : Onward g b s) : Onward g b (s.removeIfEmpty i) := by
  unfold State.removeIfEmpty; split
  · exact h
  · split
    · exact unreserveAll _ (dropJob _ h)
    · exact h

theorem drillOutcome (p : Position) (o : DrillOutcome) (h : Onward g b s) : Onward g b (s.drillOutcome p o) := h.iso _ rfl
theorem drillStatus (x : DrillStatus) (h : Onward g b s) : Onward g b (s.drillStatus x) := h.iso _ rfl
theorem drillRest (o : DrillOutcome) (h : Onward g b s) : Onward g b (s.drillRest o) := h.iso _ rfl

theorem takeFromDrill (p : Position) (h : Onward g b s) : Onward g b (s.takeFromDrill p) := by
  unfold State.takeFromDrill; split
  · exact h
  · split
    · dsimp only; split
      · exact drillStatus _ (dropJob _ (drillOutcome _ _ (modJob _ _ h)))
      · exact drillOutcome _ _ (modJob _ _ h)
    · exact h

theorem endDrill (h : Onward g b s) : Onward g b s.endDrill := by
  unfold State.endDrill; split
  · exact h
  · exact each _ h (fun _ _ h => takeFromDrill _ h)

/-! ### Phases -/

theorem setPhase (i : JobId) (ph : Phase) (d : Option Time) (h : Onward g b s) : Onward g b (s.setPhase i ph d) := modJob _ _ h

theorem checkReturns (i : JobId) (h : Onward g b s) : Onward g b (s.checkReturns i) := by
  unfold State.checkReturns; split
  · exact h
  · split
    · exact setPhase _ _ _ h
    · exact h

theorem enterCloseReturn (i : JobId) (h : Onward g b s) : Onward g b (s.enterCloseReturn i) := by
  unfold State.enterCloseReturn; dsimp only
  have h1 := modJob i (fun j => { j with
    targets := j.targets.map (fun t => { t with ret := t.ret.retried })
    trunk := j.trunk.map (fun k => { k with ret := k.ret.retried }) }) (setPhase i .closeReturn none h)
  split
  · exact h1
  · refine checkReturns _ (each _ ?_ (fun _ _ h => placeIso _ _ _ h))
    split
    · exact placeIso _ _ _ h1
    · exact h1

theorem enterDrain (i : JobId) (h : Onward g b s) : Onward g b (s.enterDrain i) := by
  unfold State.enterDrain; dsimp only; split
  · exact enterCloseReturn _ (setPhase _ _ _ h)
  · exact setPhase _ _ _ h

theorem tellUncontained (i : JobId) (c : Bool) (h : Onward g b s) : Onward g b (s.tellUncontained i c) := by
  unfold State.tellUncontained; split
  · exact h
  · exact notify _ h

theorem enterUncontained (i : JobId) (h : Onward g b s) : Onward g b (s.enterUncontained i) :=
  tellUncontained _ _ (setPhase _ _ _ h)

theorem foundContained (i : JobId) (h : Onward g b s) : Onward g b (s.foundContained i) :=
  enterDrain _ (tellUncontained _ _ (modJob _ _ h))

theorem checkSupply (i : JobId) (h : Onward g b s) : Onward g b (s.checkSupply i) := by
  unfold State.checkSupply; split
  · exact h
  · split
    · split
      · exact enterDrain _ h
      · exact enterUncontained _ h
    · exact h

theorem latchTargets (l : List Target) (h : Onward g b s) : Onward g b (s.latchTargets l) :=
  each _ h (fun _ t h => modBr t.pos (fun x => { x with latched := true, maint := false }) (fun _ => rfl) h)

theorem latch (j : Job) (h : Onward g b s) : Onward g b (s.latch j) := by
  unfold State.latch; dsimp only; split
  · exact store _ rfl rfl rfl rfl rfl (latchTargets _ h)
  · exact latchTargets _ h

theorem latchArrivals (j : Job) (h : Onward g b s) : Onward g b (s.latchArrivals j) :=
  holdIfChanged _ (store _ rfl rfl rfl rfl rfl (latchTargets _ h))

theorem enterCloseSupply (i : JobId) (h : Onward g b s) : Onward g b (s.enterCloseSupply i) := by
  unfold State.enterCloseSupply; split
  · exact h
  · rename_i j _
    have h1 := holdIfChanged s (setPhase i .closeSupply none (latch j h))
    refine checkSupply _ (each _ ?_ (fun _ _ h => placeIso _ _ _ h))
    split
    · exact placeIso _ _ _ h1
    · exact h1

theorem enterSimulate (j : Job) (h : Onward g b s) : Onward g b (s.enterSimulate j) := by
  unfold State.enterSimulate
  refine setPhase _ _ _ (each _ h (fun _ _ h => ?_))
  split
  · exact drillOutcome _ _ h
  · exact drillOutcome _ _ h
  · exact h

theorem endNotify (i : JobId) (h : Onward g b s) : Onward g b (s.endNotify i) := by
  unfold State.endNotify; dsimp only; split
  · exact modJob _ _ h
  · split
    · exact enterSimulate _ (modJob _ _ h)
    · exact enterCloseSupply _ (modJob _ _ h)

theorem checkNotify (i : JobId) (h : Onward g b s) : Onward g b (s.checkNotify i) := by
  unfold State.checkNotify; split
  · exact h
  · split
    · exact endNotify _ h
    · exact h

theorem enterHold (i : JobId) (h : Onward g b s) : Onward g b (s.enterHold i) := by
  unfold State.enterHold; dsimp only
  have h1 := modJob i (fun j => { j with quarantine := 0 }) (setPhase i .hold none h)
  split
  · exact h1
  · refine afterPass _ (askPass _ (each _ h1 (fun _ t h => setDrive _ _ (modBr t.pos _ (fun x => ?_) h))))
    split <;> rfl

/-! ### Joining -/

theorem join (i : JobId) (p : Position) (h : Onward g b s) : Onward g b (s.join i p) := by
  unfold State.join; dsimp only
  have h1 : ∀ {s : State}, Onward g b s → ∀ t : Job → Job,
      Onward g b ((((s.modBr p (fun x => { x with state := .isolating, job := i })).modJob i t).reserve i
        (supplyOf p)).reserve i (returnOf p)) := fun h t =>
    reserve _ _ (reserve _ _ (modJob _ _ (modBr p (fun x => { x with state := .isolating, job := i }) (fun _ => rfl) h)))
  refine h1 ?_ _
  have h2 := takeFromDrill p h
  have h3 : ∀ {s : State}, Onward g b s → Onward g b ((s.endClosing p).clearDraw p) := fun h =>
    clearDraw _ (endClosing _ h)
  repeat' split
  all_goals first
    | exact clearArbiterFields _ (h3 (endService _ _ (endVerify _ _ _ h2)))
    | exact clearArbiterFields _ (h3 (endService _ _ h2))
    | exact clearArbiterFields _ (h3 (endVerify _ _ _ h2))
    | exact clearArbiterFields _ (h3 h2)
    | exact h3 (endService _ _ (endVerify _ _ _ h2))
    | exact h3 (endService _ _ h2)
    | exact h3 (endVerify _ _ _ h2)
    | exact h3 h2

theorem warnTargets (i : JobId) (ps : List Position) (h : Onward g b s) : Onward g b (s.warnTargets i ps) := by
  unfold State.warnTargets; split
  · exact h
  · exact each _ h (fun _ _ h => notify _ h)

theorem reserveTrunk (i : JobId) (h : Onward g b s) : Onward g b (s.reserveTrunk i) := reserve _ _ (reserve _ _ h)

/-- Branches join a job, and the event's pass is asked for (R148). -/
theorem joinAll (i : JobId) (ps : List Position) (h : Onward g b s) : Onward g b (s.joinAll i ps) :=
  afterPass _ (askPass _ (warnTargets _ _ (each _ h (fun _ _ h => join _ _ h))))

/-- A real job is created (R148). -/
theorem createReal (k : Nat) (l : JobLevel) (o : Origin) (e : List Evidence) (ps : List Position) (h : Onward g b s) :
    Onward g b (s.createReal k l o e ps) := by
  unfold State.createReal; dsimp only
  refine joinAll _ _ ?_
  split
  · exact reserveTrunk _ (iso _ rfl (setSlot _ _ h))
  · exact iso _ rfl (setSlot _ _ h)

/-! ### Trunk, escalation, transfer -/

theorem retakeTrunk (i : JobId) (h : Onward g b s) : Onward g b (s.retakeTrunk i) := by
  unfold State.retakeTrunk; split
  · exact h
  · split
    · exact reserveTrunk _ (modJob _ _ h)
    · exact modJob _ _ h
    · exact h

theorem rackPhase (i : JobId) (h : Onward g b s) : Onward g b (s.rackPhase i) := by
  unfold State.rackPhase; split
  · exact h
  · dsimp only; split
    · exact retakeTrunk _ h
    · split
      · split
        · exact placeIso _ _ _ (latchArrivals _ (retakeTrunk _ h))
        · exact latchArrivals _ (retakeTrunk _ h)
      · exact enterCloseSupply _ (retakeTrunk _ h)

theorem escalate (j : Job) (h : Onward g b s) : Onward g b (s.escalate j) :=
  joinAll _ _ (reserveTrunk _ (setSlot _ _ (dropJob _ h)))

/-- Retagging the clients of waiting claims leaves nothing at a free line. -/
theorem passTargets (j : Job) (k : JobId) (h : Onward g b s) : Onward g b (s.passTargets j k) := by
  have h1 : Onward g b (s.forEach j.targets (fun s t => s.modBr t.pos (fun x => { x with job := k }))) :=
    each _ h (fun _ t h => modBr t.pos (fun x => { x with job := k }) (fun _ => rfl) h)
  have h2 := mapActs (fun x => { x with
      reservedBy := if x.reservedBy = j.id then k else x.reservedBy
      move := x.move.map (fun m => { m with client := m.client.retag j.id k }) }) (fun _ => rfl) h1
  unfold State.passTargets
  refine ⟨h2.kept, h2.sound.out, fun e => ?_, fun e => nomatch e⟩
  rcases h1.sound.granted e with hl | ⟨g0, g1, g2, g3, g4, g5⟩
  · exact Or.inl hl
  · refine Or.inr ⟨g0, g1, ?_, g3, g4, g5⟩
    show List.map _ (State.forEach s j.targets _).bus.isoQ = []
    rw [g2]; rfl

theorem transfer (j r : Job) (h : Onward g b s) : Onward g b (s.transfer j r) :=
  askPass _ (rackPhase _ (modJob _ _ (passTargets _ _ (dropJob _ h))))

/-! ### Reports of closes -/

theorem afterSupply (i : JobId) (h : Onward g b s) : Onward g b (s.afterSupply i) := by
  unfold State.afterSupply; split
  · exact h
  · split
    · exact foundContained _ h
    · exact checkSupply _ h

theorem afterFailure (i : JobId) (h : Onward g b s) : Onward g b (s.afterFailure i) := by
  unfold State.afterFailure; split
  · exact h
  · split
    · exact checkSupply _ h
    · split
      · exact h
      · exact enterUncontained _ h

theorem closeOk (j : Job) (x : Side) (h : Onward g b s) : Onward g b (s.closeOk j x) := by
  have h1 : Onward g b ((s.modJob j.id (fun j => j.setClose x .ok)).forEach (j.stopped x) (fun s p => s.setDrive p 0)) :=
    each _ (modJob _ _ h) (fun _ _ h => setDrive _ _ h)
  unfold State.closeOk; dsimp only; split
  · exact afterSupply _ (reexamine h1)
  · exact checkReturns _ h1

theorem closeFailed (j : Job) (x : Side) (f : FaultCode) (h : Onward g b s) : Onward g b (s.closeFailed j x f) := by
  have h1 := modJob j.id (fun j => j.setClose x (.failed f)) h
  unfold State.closeFailed; dsimp only; split
  · split
    · exact afterFailure _ h1
    · split
      · exact escalate _ h1
      · exact transfer _ _ h1
      · exact h1
  · exact afterFailure _ h1
  · exact checkReturns _ (markReturnOpen _ _ h1)
  · exact checkReturns _ h1

theorem closeAgain (j : Job) (x : Side) (a : ActuatorNo) (h : Onward g b s) : Onward g b (s.closeAgain j x a) :=
  placeIso _ _ _ (modJob _ _ h)

theorem lateReport (a : ActuatorNo) (k : ReportKind) (h : Onward g b s) : Onward g b (s.lateReport a k) := by
  unfold State.lateReport; split
  · exact markReturnOpen _ _ h
  · exact h

/-- A job acts on a report of its closes (R152). -/
theorem isoReport (i : JobId) (a : ActuatorNo) (k : ReportKind) (h : Onward g b s) : Onward g b (s.isoReport i a k) := by
  unfold State.isoReport; split
  · exact lateReport _ _ h
  · split
    · split
      · exact closeOk _ _ h
      · exact closeFailed _ _ _ h
      · exact closeAgain _ _ _ h
      · exact closeAgain _ _ _ h
      all_goals exact h
    · exact lateReport _ _ h

theorem retryCloses (j : Job) (h : Onward g b s) : Onward g b (s.retryCloses j) :=
  each _ (modJob _ _ h) (fun _ _ h => closeAgain _ _ _ h)

/-! ### Intake -/

theorem rackAgain (r : Job) (e : List Evidence) (h : Onward g b s) : Onward g b (s.rackAgain r e) := by
  have h1 := mergeInto r.id e h
  unfold State.rackAgain; dsimp only; split
  · split
    · exact rackPhase _ h1
    · exact h1
  · refine joinAll _ _ (setPhase _ _ _ ?_)
    split
    · exact retakeTrunk _ h1
    · exact h1

theorem takeRack (o : Origin) (e : List Evidence) (h : Onward g b s) : Onward g b (s.takeRack o e) := by
  unfold State.takeRack; split
  · exact rackAgain _ _ h
  · exact createReal _ _ _ _ _ h

theorem takeReal (r : IsoRequest) (h : Onward g b s) : Onward g b (s.takeReal r) := by
  unfold State.takeReal; dsimp only
  have h1 : Onward g b (s.forEach (s.jobs.filter (fun j => !j.drill && r.targets.any j.hasTarget))
      (fun s j => s.mergeInto j.id r.evidence)) := each _ h (fun _ _ h => mergeInto _ _ h)
  split
  · exact h1
  · have h2 := each (r.targets.filter (fun p => (s.realJobOf p).isNone)) h1 (fun _ p h => takeFromDrill p h)
    have h3 : ∀ u : State, Onward g b u → Onward g b (match u.emptySlot with
        | some k => u.createReal k r.level r.origin r.evidence (r.targets.filter (fun p => (s.realJobOf p).isNone))
        | none => u.takeRack r.origin r.evidence) := by
      intro u h; split
      · exact createReal _ _ _ _ _ h
      · exact takeRack _ _ h
    refine h3 _ ?_
    split
    · exact endDrill h2
    · exact h2

theorem createDrill (k : Nat) (r : IsoRequest) (ps : List Position) (h : Onward g b s) : Onward g b (s.createDrill k r ps) := by
  unfold State.createDrill; dsimp only
  exact checkNotify _ (warnTargets _ _ (iso _ rfl (setSlot _ _ h)))

theorem takeDrill (r : IsoRequest) (h : Onward g b s) : Onward g b (s.takeDrill r) := by
  unfold State.takeDrill; dsimp only
  generalize (if r.level = .rack then s.newcomers else _) = ps
  split
  · exact h
  · split
    · exact h
    · exact createDrill _ _ _ h

/-- The sequencer takes a request (section 8.2). -/
theorem takeRequest (r : IsoRequest) (h : Onward g b s) : Onward g b (s.takeRequest r) := by
  unfold State.takeRequest; split
  · exact takeDrill _ h
  · split
    · exact takeRack _ _ h
    · exact takeReal _ h

end State.Onward

end Sys2Proof.Machine
end

