-- ==== Sys2Proof/Laws/Reports.lean ====
section
/-! SUPPORT. The delivery of reports and the end of an event: they go onward, they leave the part at rest, and mild reports reach no job. -/

namespace Sys2Proof.Machine

/-! ### Any reports -/

namespace State.Onward

variable {g : Bool} {b s : State}

theorem flowReport (a : ActuatorNo) (k : ReportKind) (h : Onward g b s) : Onward g b (s.flowReport a k) := by
  unfold State.flowReport; repeat' split
  all_goals first
    | exact h
    | exact placeFlow _ _ h
    | exact placeFlow _ _ (markValveFault _ _ h)
    | exact markValveFault _ _ h

theorem openingReport (a : ActuatorNo) (k : ReportKind) (h : Onward g b s) : Onward g b (s.openingReport a k) := by
  unfold State.openingReport; repeat' split
  all_goals first
    | exact h
    | exact placeIso _ _ _ h

theorem freeDraw (p : Position) (h : Onward g b s) : Onward g b (s.freeDraw p) := by
  unfold State.freeDraw; split
  · exact askDrawPass (clearDraw _ h)
  · exact h

theorem serviceReport (a : ActuatorNo) (k : ReportKind) (h : Onward g b s) : Onward g b (s.serviceReport a k) := by
  unfold State.serviceReport; split
  · exact h
  · split
    · dsimp only; split
      · exact endService _ _ h
      · exact freeDraw _ (endService _ _ h)
    · exact h

/-- What changes neither presence, positions, reservations nor anything that waits goes onward. -/
theorem bus (u : Bus) (ha : u.actuators = s.bus.actuators) (hg : s.bus.Granted → u.Granted) (h : Onward g b s) :
    Onward g b { s with bus := u } :=
  ⟨(congrArg State.freeze (still_bus s u (congrArg _ ha))).trans h.kept, h.sound.out, fun e => hg (h.sound.granted e),
    fun e => nomatch e⟩

theorem verifyMove (x : VerifyStep) (h : Onward g b s) : Onward g b (s.verifyMove x) := by
  have h1 : Onward g b { s with bus.verify := { s.bus.verify with step := x } } := bus _ rfl id h
  unfold State.verifyMove; dsimp only; split
  · exact h1
  · exact placeSvc _ _ _ h1

theorem verifyFault (p : Position) (f : FaultCode) (h : Onward g b s) : Onward g b (s.verifyFault p f) :=
  askDrawPass (endVerify _ _ _ h)

theorem verifyReport (k : ReportKind) (h : Onward g b s) : Onward g b (s.verifyReport k) := by
  unfold State.verifyReport; repeat' split
  all_goals first
    | exact h
    | exact verifyMove _ h
    | exact verifyFault _ _ h

theorem closingReport (a : ActuatorNo) (k : ReportKind) (h : Onward g b s) : Onward g b (s.closingReport a k) := by
  have h1 : ∀ x : Option Closing, Onward g b { s with bus.closing := x } := fun x => bus _ rfl id h
  unfold State.closingReport; repeat' split
  all_goals first
    | exact h
    | exact h1 _
    | exact placeSvc _ _ _ (h1 _)

/-- A report reaches its client (R72). -/
theorem deliverOne (r : Report) (h : Onward g b s) : Onward g b (s.deliverOne r) := by
  unfold State.deliverOne; split
  · exact h
  · exact flowReport _ _ h
  · exact isoReport _ _ _ h
  · exact openingReport _ _ h
  · exact serviceReport _ _ h
  · exact verifyReport _ h
  · exact closingReport _ _ h

theorem reports (l : List Report) (h : Onward g b s) : Onward g b { s with bus.reports := l } := bus _ rfl id h

theorem deliverSome : ∀ (n : Nat) {s : State}, Onward g b s → Onward g b (s.deliverSome n)
  | 0, _, h => reports _ h
  | n + 1, s, h => by
    unfold State.deliverSome; split
    · exact h
    · exact deliverSome n (deliverOne _ (reports _ h))

theorem deliver (h : Onward g b s) : Onward g b s.deliver := deliverSome _ h

theorem grantLine (h : Onward g b s) : Onward g b s.grantLine :=
  h.quiet (grantLine_still _) (fun h => grantLine_sound h.out h.mild)

theorem transmit (h : Onward g b s) : Onward g b s.transmit := h.quiet (transmit_still _) transmit_sound

theorem follow (x : AfterPass) (h : Onward g b s) : Onward g b (s.follow x) := by
  unfold State.follow; split
  · exact notify _ h
  · exact checkNotify _ h

/-- The pass an event has asked for, and what follows it (R31). -/
theorem runPass (h : Onward g b s) : Onward g b s.runPass := by
  have h1 : Onward g b (if s.work.due then
      (State.pass { s with work.due := false, work.left := [] } s.work.left []).arbiterSpeaksLast else s) := by
    split
    · exact work _ (pass _ _ (work _ h))
    · exact h
  exact each _ (work _ h1) (fun _ _ h => follow _ h)

theorem settle (h : Onward g b s) : Onward g b s.settle := deliver (runPass (deliver h))

end State.Onward

/-- Delivery leaves no report behind (R72). -/
theorem deliverSome_reports : ∀ (n : Nat) (s : State), (s.deliverSome n).bus.reports = []
  | 0, _ => rfl
  | n + 1, s => by
    unfold State.deliverSome; split
    · rename_i h; exact h
    · exact deliverSome_reports n _

theorem deliver_reports (s : State) : s.deliver.bus.reports = [] := deliverSome_reports _ s

/-- With no report waiting there is nothing to deliver. -/
theorem deliver_none {s : State} (h : s.bus.reports = []) : s.deliver = s := by
  unfold State.deliver reportBound
  rw [show (1024 : Nat) = 1023 + 1 from rfl]
  unfold State.deliverSome
  rw [h]

/-- The transmitter does not touch the bus. -/
theorem transmit_bus (s : State) : s.transmit.bus = s.bus := by
  unfold State.transmit; repeat' split
  all_goals rfl

/-- A busy line is not granted again. -/
theorem grantLine_busy {s : State} (h : s.bus.line ≠ .free) : s.grantLine = s := by
  unfold State.grantLine; rw [if_neg h]

/-- A free line with nothing waiting stays free. -/
theorem grantLine_idle {s : State} (h : s.bus.Granted) : s.grantLine = s := by
  by_cases hl : s.bus.line = .free
  · rcases h with h | ⟨h0, h1, h2, h3, h4, h5⟩
    · exact absurd hl h
    · unfold State.grantLine State.grantClaim
      rw [if_pos hl, h0]
      simp only [h1, h2, h3, h4, h5]
  · exact grantLine_busy hl

/-- With no work of an event waiting no pass is run. -/
theorem runPass_idle {s : State} (h : s.work = Work.idle) : s.runPass = s := by
  obtain ⟨_, _, _, _, _, _, _, _, _, _, _, _, _, _, _, _, _, w⟩ := s
  cases h; rfl

/-- With no report waiting and no work of an event there is nothing to settle. -/
theorem settle_idle {s : State} (hr : s.bus.reports = []) (hw : s.work = Work.idle) : s.settle = s := by
  unfold State.settle
  rw [deliver_none hr, runPass_idle hw, deliver_none hr]

/-- With no work of an event there is no notice to hand over. -/
theorem flush_idle {s : State} (h : s.work = Work.idle) : s.flush = s := by
  obtain ⟨_, _, _, _, _, _, _, _, _, _, _, _, _, _, _, _, _, w⟩ := s
  cases h; rfl

/-- At rest, the end of an event is the transmitter's alone. -/
theorem finish_atRest {s : State} (h : s.AtRest) : s.finish = s.transmit := by
  unfold State.finish
  rw [settle_idle h.reports h.work, grantLine_idle h.granted, settle_idle h.reports h.work, flush_idle h.work]

/-- The end of an event leaves no report behind. -/
theorem settle_reports (s : State) : s.settle.bus.reports = [] := deliver_reports _

theorem countFor_bus (s : State) (is : List Nat) : (s.countFor is).bus = s.bus := by
  unfold State.countFor
  refine forEach_leaves (fun s : State => s.bus) _ (fun s i => ?_) is s
  rfl

theorem hand_bus (s : State) (x : HeldNotice) : (s.hand x).bus = s.bus := by
  unfold State.hand State.enqueue; repeat' split
  all_goals first
    | rfl
    | exact countFor_bus _ _

/-- The handing over of notices does not touch the bus. -/
theorem flush_bus (s : State) : s.flush.bus = s.bus := forEach_leaves (fun s : State => s.bus) State.hand hand_bus _ _

theorem transmit_work (s : State) : s.transmit.work = s.work := by
  unfold State.transmit; repeat' split
  all_goals rfl

/-- The end of an event goes onward and leaves the part at rest. -/
theorem State.Onward.finish {g : Bool} {b s : State} (h : State.Onward g b s) :
    State.Onward true b s.finish ∧ s.finish.AtRest := by
  have h0 := h.settle
  have h1 : State.Onward true b s.settle.grantLine :=
    ⟨(congrArg State.freeze (grantLine_still _)).trans h0.kept, grantLine_sound h0.sound.out (fun e => nomatch e)⟩
  have h2 := h1.settle.flush.transmit
  refine ⟨h2, ?_, h2.sound.granted rfl, ?_⟩
  · show (State.transmit _).bus.reports = []
    rw [transmit_bus, flush_bus]; exact settle_reports _
  · show (State.transmit _).work = _
    rw [transmit_work]; rfl

/-- The end of a transaction goes onward and leaves the part at rest (R71). -/
theorem State.Onward.finishLine {g : Bool} {b s : State} (h : State.Onward g b s) :
    State.Onward true b s.finishLine ∧ s.finishLine.AtRest := by
  have h0 := h.settle
  unfold State.finishLine; dsimp only
  refine State.Onward.finish (g := false) ⟨?_, h0.sound.out, (fun e => nomatch e), fun e => nomatch e⟩
  exact h0.kept

/-! ### Mild reports -/

/-- What a pass and the bus may make of a base state `b`: it agrees with it in `State.still`, is sound, and every report
waiting is mild. -/
structure State.Calm (b s : State) : Prop where
  kept : s.still = b.still
  sound : s.Sound true true

namespace State.Calm

variable {b s : State}

theorem refl {s : State} (h : s.Sound true true) : Calm s s := ⟨rfl, h⟩

theorem quiet {t : State} (h : Calm b s) (hs : t.still = s.still) (ht : s.Sound true true → t.Sound true true) : Calm b t :=
  ⟨hs.trans h.kept, ht h.sound⟩

theorem bus (u : Bus) (ha : u.actuators = s.bus.actuators) (hg : s.bus.Granted → u.Granted)
    (hm : ∀ r ∈ u.reports, r ∈ s.bus.reports) (h : Calm b s) : Calm b { s with bus := u } :=
  ⟨(still_bus s u (congrArg _ ha)).trans h.kept, h.sound.out, fun e => hg (h.sound.granted e),
    fun e r hr => h.sound.mild e r (hm r hr)⟩

theorem pass (l : List Position) (as : List AlertCause) (h : Calm b s) : Calm b (s.pass l as) :=
  h.quiet (pass_still _ _ _) (pass_sound _ _)

theorem work (w : Work) (hw : w.after = s.work.after) (h : Calm b s) : Calm b { s with work := w } :=
  h.quiet (still_work _ _ hw) (work_sound _)

theorem serviceReport (a : ActuatorNo) (k : ReportKind) (h : Calm b s) : Calm b (s.serviceReport a k) := by
  have h1 : ∀ st x, Calm b (s.endService st x) := fun st x => h.quiet (endService_still _ _ _) (endService_sound _ _)
  unfold State.serviceReport; split
  · exact h
  · split
    · dsimp only; split
      · exact h1 _ _
      · unfold State.freeDraw; split
        · exact ((h1 _ _).quiet (clearDraw_still _ _) (clearDraw_sound _)).quiet (askDrawPass_still _) askDrawPass_sound
        · exact h1 _ _
    · exact h

theorem verifyReport {k : ReportKind} (hk : k = .superseded ∨ k = .refusedReserved) (h : Calm b s) :
    Calm b (s.verifyReport k) := by
  have h1 : ∀ x, Calm b (s.verifyMove x) := by
    intro x
    have h2 : Calm b { s with bus.verify := { s.bus.verify with step := x } } := bus _ rfl id (fun _ => id) h
    unfold State.verifyMove; dsimp only; split
    · exact h2
    · exact h2.quiet (placeSvc_still _ _ _ _) (placeSvc_sound _ _ _)
  unfold State.verifyReport; split
  · rcases hk with rfl | rfl
    · split
      all_goals first
        | exact h
        | exact h1 _
        | (rename_i e; exact absurd e (by simp))
    · split
      all_goals first
        | exact h
        | skip
      all_goals simp_all
  · exact h

theorem closingReport (a : ActuatorNo) (k : ReportKind) (h : Calm b s) : Calm b (s.closingReport a k) := by
  have h1 : ∀ x : Option Closing, Calm b { s with bus.closing := x } := fun x => bus _ rfl id (fun _ => id) h
  unfold State.closingReport; repeat' split
  all_goals first
    | exact h
    | exact h1 _
    | exact (h1 _).quiet (placeSvc_still _ _ _ _) (placeSvc_sound _ _ _)

/-- A mild report is acted on by a service move, a verify or a closing sequence alone. -/
theorem deliverOne {r : Report} (hr : r.Mild) (h : Calm b s) : Calm b (s.deliverOne r) := by
  unfold State.deliverOne; split
  · exact h
  · have : s.flowReport r.actuator r.kind = s := by
      rcases hr with e | e <;> rw [e] <;> unfold State.flowReport <;> split <;> rfl
    rw [this]; exact h
  · rename_i i _
    have : s.isoReport i r.actuator r.kind = s := by
      rcases hr with e | e <;> rw [e] <;> unfold State.isoReport State.lateReport <;>
        cases s.job? i <;> cases sideOf r.actuator <;> simp
    rw [this]; exact h
  · have : s.openingReport r.actuator r.kind = s := by
      rcases hr with e | e <;> rw [e] <;> rfl
    rw [this]; exact h
  · exact serviceReport _ _ h
  · exact verifyReport hr h
  · exact closingReport _ _ h

theorem deliverSome : ∀ (n : Nat) {s : State}, Calm b s → Calm b (s.deliverSome n)
  | 0, _, h => bus _ rfl id (fun _ hr => nomatch hr) h
  | n + 1, s, h => by
    unfold State.deliverSome; split
    · exact h
    · rename_i r l e
      refine deliverSome n (deliverOne (h.sound.mild rfl r (e ▸ List.mem_cons_self)) ?_)
      exact bus _ rfl id (fun x hx => e ▸ List.mem_cons_of_mem r hx) h

theorem deliver (h : Calm b s) : Calm b s.deliver := deliverSome _ h

/-- What follows the pass of the event is what `State.still` keeps. -/
theorem after (h : Calm b s) : s.work.after = b.work.after := congrArg (fun x => x.work.after) h.kept

/-- A pass that nothing follows. -/
theorem runPass (hb : b.work.after = []) (h : Calm b s) : Calm b s.runPass := by
  have h1 : Calm b (if s.work.due then
      (State.pass { s with work.due := false, work.left := [] } s.work.left []).arbiterSpeaksLast else s) := by
    split
    · exact work _ rfl (pass _ _ (work _ rfl h))
    · exact h
  revert h1
  unfold State.runPass; dsimp only
  generalize (if s.work.due = true then _ else s) = t
  intro h1
  rw [h1.after.trans hb]
  exact work _ (h1.after.trans hb).symm h1

theorem settle (hb : b.work.after = []) (h : Calm b s) : Calm b s.settle := deliver (runPass hb (deliver h))

/-- The end of an event whose reports are mild, after whose pass nothing follows, leaves alone all that `State.still`
keeps. -/
theorem finish (hb : b.work.after = []) (h : Calm b s) : Calm b s.finish := by
  have h1 := settle hb h
  have h2 : Calm b s.settle.grantLine := h1.quiet (grantLine_still _) (fun h => grantLine_sound h.out h.mild)
  have h3 := settle hb h2
  exact (h3.quiet (flush_still (h3.after.trans hb)) flush_sound).quiet (transmit_still _) transmit_sound

end State.Calm

end Sys2Proof.Machine
end

