-- ==== Sys2Proof/Laws/Blocks.lean ====
section
/-! SUPPORT. The operations of localization, drip sense, the measurement window, start-up and the valve bus keep the sizes, the bounds and the order of floors and ceilings: one lemma per operation. -/

namespace Sys2Proof.Machine

/-- The part of the invariants that a pass and the work of a job cannot touch: sizes, the inbound queue, the window
counter, and floors under ceilings. -/
structure State.Shape (s : State) : Prop where
  sized : s.Sized
  inbound : s.link.inbound.length ≤ Config.inboundSize
  commands : ∀ i ∈ s.link.inbound, i.cmd?.isSome = true
  counter : s.window.counter ≤ 255
  fit : s.Fit

/-- The shape of a state is read from what `State.frozen` keeps. -/
theorem State.Shape.of_frozen {s t : State} (h : s.Shape) (e : t.frozen = s.frozen) : t.Shape := by
  have eb : (t.branches.map Branch.still).map Branch.freeze = (s.branches.map Branch.still).map Branch.freeze :=
    congrArg State.branches e
  have ea := congrArg (fun x => x.bus.actuators.length) e
  have ec : t.sense = s.sense := show t.frozen.sense = s.frozen.sense from e ▸ rfl
  have ek : t.cases = s.cases := show t.frozen.cases = s.frozen.cases from e ▸ rfl
  have ei := congrArg (fun x => x.iso.slots.length) e
  have er := congrArg (fun x => x.link.requesters.length) e
  have en : t.link.inbound = s.link.inbound := congrArg (fun x => x.link.inbound) e
  have ew : t.window = s.window := show t.frozen.window = s.frozen.window from e ▸ rfl
  have ep : t.pol = s.pol := show t.frozen.pol = s.frozen.pol from e ▸ rfl
  have e1 : t.store.imageA = s.store.imageA := congrArg (fun x => x.store.imageA) e
  have e2 : t.store.imageB = s.store.imageB := congrArg (fun x => x.store.imageB) e
  have e3 : t.store.saving = s.store.saving := congrArg (fun x => x.store.saving) e
  have el := congrArg List.length eb
  simp only [List.length_map] at el
  simp only [State.frozen, State.freeze, State.still, List.length_map] at ea ei er
  refine ⟨⟨el.trans h.sized.branches, ea.trans h.sized.actuators, ec ▸ h.sized.channels, ek ▸ h.sized.cases,
    ei.trans h.sized.slots, er.trans h.sized.requesters, e1 ▸ h.sized.imageA, e2 ▸ h.sized.imageB,
    e3 ▸ h.sized.saving⟩, en ▸ h.inbound, en ▸ h.commands, ew ▸ h.counter,
    ⟨fun b hb => ?_, ep ▸ h.fit.active, e1 ▸ h.fit.imageA, e2 ▸ h.fit.imageB, e3 ▸ h.fit.saving⟩⟩
  have hm : b.still.freeze ∈ (s.branches.map Branch.still).map Branch.freeze :=
    eb ▸ List.mem_map_of_mem (List.mem_map_of_mem hb)
  obtain ⟨_, hy, e⟩ := List.mem_map.1 hm
  obtain ⟨c, hc, rfl⟩ := List.mem_map.1 hy
  have f := h.fit.branches c hc
  have el : c.limits = b.limits := show c.still.freeze.limits = b.still.freeze.limits from e ▸ rfl
  have ee : c.effCeiling = b.effCeiling := show c.still.freeze.effCeiling = b.still.freeze.effCeiling from e ▸ rfl
  have em : c.MetersAgree → b.MetersAgree := show c.still.freeze.MetersAgree → b.still.freeze.MetersAgree from e ▸ id
  exact ⟨el ▸ f.1, el ▸ ee ▸ f.2.1, em f.2.2⟩

/-- A state of good shape that is sound, with nothing waiting at a free line where `g` asks for it. -/
structure State.Good (g : Bool) (s : State) : Prop where
  shape : s.Shape
  sound : s.Sound g false

namespace State.Good

variable {g : Bool} {s : State}

theorem onward {t : State} (h : Good g s) (ht : Onward g s s → Onward g s t) : Good g t :=
  have h1 := ht (Onward.refl h.sound)
  ⟨h.shape.of_frozen h1.kept, h1.sound⟩

theorem quiet {t : State} (h : Good g s) (hs : t.still = s.still) (ht : s.Sound g false → t.Sound g false) : Good g t :=
  ⟨h.shape.of_frozen (congrArg State.freeze hs), ht h.sound⟩

theorem each {α : Type} {f : State → α → State} (l : List α) (h : Good g s)
    (hf : ∀ s a, Good g s → Good g (f s a)) : Good g (s.forEach l f) := forEach_keeps _ f hf l s h

theorem notify (n : Notice) (h : Good g s) : Good g (s.notify n) := h.quiet (notify_still _ _) (notify_sound _)

theorem complete (k : LongKind) (st : Status) (x : CompletionBody) (h : Good g s) : Good g (s.complete k st x) :=
  h.quiet (complete_still _ _ _ _) (complete_sound _ _ _)

theorem pass (l : List Position) (as : List AlertCause) (h : Good g s) : Good g (s.pass l as) :=
  h.quiet (pass_still _ _ _) (pass_sound _ _)

theorem askPass (l : List Position) (h : Good g s) : Good g (s.askPass l) := h.onward (Onward.askPass l)
theorem askDrawPass (h : Good g s) : Good g s.askDrawPass := h.onward Onward.askDrawPass

/-- A change of a branch record that leaves it fit. -/
theorem modBrAt (p : Position) (f : Branch → Branch) (hf : p < s.branches.length → (s.br p).Fit → (f (s.br p)).Fit)
    (h : Good g s) : Good g (s.modBr p f) := by
  have z := h.shape.sized
  refine ⟨⟨⟨(List.length_modify ..).trans z.branches, z.actuators, z.channels, z.cases, z.slots, z.requesters, z.imageA,
    z.imageB, z.saving⟩, h.shape.inbound, h.shape.commands, h.shape.counter,
    ⟨fun b hb => ?_, h.shape.fit.active, h.shape.fit.imageA, h.shape.fit.imageB, h.shape.fit.saving⟩⟩,
    modBr_sound _ _ h.sound⟩
  obtain ⟨i, hi, rfl⟩ := List.getElem_of_mem hb
  simp only [State.modBr, List.getElem_modify]
  have hl : i < s.branches.length := by simpa [State.modBr] using hi
  have hx := h.shape.fit.branches _ (List.getElem_mem hl)
  split
  · rename_i e
    subst e
    have : s.branches[p] = s.br p := by unfold State.br; rw [List.getD_eq_getElem?_getD, List.getElem?_eq_getElem hl]; rfl
    rw [this] at hx ⊢
    exact hf hl hx
  · exact hx

/-- A change of branch records that leaves every one fit. -/
theorem modBr (p : Position) (f : Branch → Branch) (hf : ∀ x, x.Fit → (f x).Fit) (h : Good g s) : Good g (s.modBr p f) :=
  modBrAt p f (fun _ => hf _) h

/-- A change of a shadow. -/
theorem modAct (a : ActuatorNo) (f : Actuator → Actuator) (h : Good g s) : Good g (s.modAct a f) := by
  have z := h.shape.sized
  exact ⟨⟨⟨z.branches, (List.length_modify ..).trans z.actuators, z.channels, z.cases, z.slots, z.requesters, z.imageA,
    z.imageB, z.saving⟩, h.shape.inbound, h.shape.commands, h.shape.counter, ⟨h.shape.fit.branches, h.shape.fit.active,
      h.shape.fit.imageA, h.shape.fit.imageB, h.shape.fit.saving⟩⟩, modAct_sound _ _ h.sound⟩

/-- A written case. -/
theorem setCase (e : Nat) (c : Option Case) (h : Good g s) : Good g (s.setCase e c) := by
  have z := h.shape.sized
  exact ⟨⟨⟨z.branches, z.actuators, z.channels, List.length_set.trans z.cases, z.slots, z.requesters, z.imageA, z.imageB,
    z.saving⟩, h.shape.inbound, h.shape.commands, h.shape.counter, ⟨h.shape.fit.branches, h.shape.fit.active,
      h.shape.fit.imageA, h.shape.fit.imageB, h.shape.fit.saving⟩⟩, h.sound.of_same rfl rfl⟩

/-- What leaves tables, link, window and store alone, and the bus as good as it was. -/
theorem other {t : State} (h : Good g s) (h1 : t.branches = s.branches)
    (h2 : t.bus.actuators.length = s.bus.actuators.length) (h3 : t.sense.channels.length = s.sense.channels.length)
    (h4 : t.cases.length = s.cases.length) (h5 : t.iso.slots.length = s.iso.slots.length)
    (h6 : t.link.requesters.length = s.link.requesters.length) (h7 : t.link.inbound = s.link.inbound)
    (h8 : t.window.counter ≤ 255) (h9 : t.pol.active = s.pol.active) (ha : t.store = s.store)
    (hs : t.Sound g false) : Good g t := by
  have z := h.shape.sized
  exact ⟨⟨⟨h1 ▸ z.branches, h2.trans z.actuators, h3.trans z.channels, h4.trans z.cases, h5.trans z.slots,
    h6.trans z.requesters, ha ▸ z.imageA, ha ▸ z.imageB, ha ▸ z.saving⟩, h7 ▸ h.shape.inbound, h7 ▸ h.shape.commands, h8,
    ⟨h1 ▸ h.shape.fit.branches, h9 ▸ h.shape.fit.active, ha ▸ h.shape.fit.imageA, ha ▸ h.shape.fit.imageB,
      ha ▸ h.shape.fit.saving⟩⟩, hs⟩

theorem takeRequest (r : IsoRequest) (h : Good g s) : Good g (s.takeRequest r) := h.onward (Onward.takeRequest r)
theorem placeSvc (a : ActuatorNo) (t : Nat) (c : Client) (h : Good g s) : Good g (s.placeSvc a t c) :=
  h.quiet (placeSvc_still _ _ _ _) (placeSvc_sound _ _ _)
theorem placeFlow (a : ActuatorNo) (t : Nat) (h : Good g s) : Good g (s.placeFlow a t) :=
  h.quiet (placeFlow_still _ _ _) (placeFlow_sound _ _)
theorem endVerify (p : Position) (st : VerifyStatus) (v : Bool) (h : Good g s) : Good g (s.endVerify p st v) :=
  h.quiet (endVerify_still _ _ _ _) (endVerify_sound _ _ _)

/-! ### Localization -/

theorem caseNotice (ev : CaseEvent) (src : CaseSource) (d : Bool) (e : List Evidence) (t : Option Time)
    (r : Option IsoRequest) (h : Good g s) : Good g (s.caseNotice ev src d e t r) := notify _ h

theorem handRequest (src : CaseSource) (r : IsoRequest) (h : Good g s) : Good g (s.handRequest src r) := by
  unfold State.handRequest; split
  · exact caseNotice _ _ _ _ _ _ h
  · exact takeRequest _ h

theorem makeRequest (ev : CaseEvent) (src : CaseSource) (r : IsoRequest) (h : Good g s) :
    Good g (s.makeRequest ev src r) := handRequest _ _ (caseNotice _ _ _ _ _ _ h)

theorem expireCase (e : Nat) (h : Good g s) : Good g (s.expireCase e) := by
  unfold State.expireCase; split
  · exact h
  · exact makeRequest _ _ _ (setCase _ _ h)

theorem openCase (e : Nat) (ps : List Position) (c : ChannelNo) (d : Bool) (h : Good g s) :
    Good g (s.openCase e ps c d) := by
  unfold State.openCase; dsimp only; split
  · exact expireCase _ (caseNotice _ _ _ _ _ _ (setCase _ _ h))
  · exact caseNotice _ _ _ _ _ _ (setCase _ _ h)

theorem addToCase (k : Nat) (e : Evidence) (h : Good g s) : Good g (s.addToCase k e) := by
  unfold State.addToCase; split
  · exact h
  · exact setCase _ _ h

theorem openOrRequest (k : Nat) (ps : List Position) (c : ChannelNo) (d : Bool) (h : Good g s) :
    Good g (s.openOrRequest k ps c d) := by
  unfold State.openOrRequest; dsimp only; split
  · exact openCase _ _ _ _ h
  · exact makeRequest _ _ _ h

theorem emptyZone (z : Nat) (e : Evidence) (h : Good g s) : Good g (s.emptyZone z e) := caseNotice _ _ _ _ _ _ h

theorem moveBase (z : Nat) (b : Case) (e : Evidence) (ps : List Position) (h : Good g s) :
    Good g (s.moveBase z b e ps) := by
  unfold State.moveBase; dsimp only; split
  · exact caseNotice _ _ _ _ _ _ (setCase _ _ (setCase _ _ h))
  · exact makeRequest _ _ _ (setCase _ _ (caseNotice _ _ _ _ _ _ (setCase _ _ (setCase _ _ h))))

theorem mergeBase (z : Nat) (b c : Case) (e : Evidence) (h : Good g s) : Good g (s.mergeBase z b c e) :=
  caseNotice _ _ _ _ _ _ (setCase _ _ (setCase _ _ h))

theorem ropeToBase (z : Nat) (e : Evidence) (h : Good g s) : Good g (s.ropeToBase z e) := by
  unfold State.ropeToBase; dsimp only; split
  · exact emptyZone _ _ (addToCase _ _ h)
  · exact addToCase _ _ h

theorem ropeOverBase (z : Nat) (b : Case) (e : Evidence) (h : Good g s) : Good g (s.ropeOverBase z b e) := by
  unfold State.ropeOverBase; split
  · exact ropeToBase _ _ (addToCase _ _ h)
  · split
    · split
      · exact addToCase _ _ h
      · exact mergeBase _ _ _ _ h
    · split
      · exact ropeToBase _ _ h
      · exact moveBase _ _ _ _ h

theorem ropeOnset (z : Nat) (d : Bool) (h : Good g s) : Good g (s.ropeOnset z d) := by
  unfold State.ropeOnset; dsimp only; split
  · exact ropeOverBase _ _ _ h
  · exact addToCase _ _ h
  · split
    · exact emptyZone _ _ h
    · exact openOrRequest _ _ _ _ h

theorem baseOnset (c : ChannelNo) (d : Bool) (h : Good g s) : Good g (s.baseOnset c d) := by
  unfold State.baseOnset; dsimp only; split
  · exact addToCase _ _ h
  · split
    · exact caseNotice _ _ _ _ _ _ h
    · exact openOrRequest _ _ _ _ h

theorem narrow (l : List (Nat × Case)) (p : Position) (e : Evidence) (o : Origin) (h : Good g s) :
    Good g (s.narrow l p e o) :=
  handRequest _ _ (each _ h (fun _ _ h => caseNotice _ _ _ _ _ _ (setCase _ _ h)))

theorem fineOnset (p : Position) (e : Evidence) (o : Origin) (h : Good g s) : Good g (s.fineOnset p e o) := by
  unfold State.fineOnset; dsimp only
  generalize (if e.drill = true then _ else _ : List (Nat × Case)) = closing
  split
  · split
    · exact makeRequest _ _ _ h
    · exact each _ h (fun _ _ h => addToCase _ _ h)
  · exact narrow _ _ _ _ h

/-- A channel onset is handed to localization (section 7.3). -/
theorem channelOnset (c : ChannelNo) (d : Bool) (h : Good g s) : Good g (s.channelOnset c d) := by
  unfold State.channelOnset; split
  · exact ropeOnset _ _ h
  · exact fineOnset _ _ _ h
  · exact baseOnset _ _ h

/-- An event of a channel is handed to localization (R117, R138). -/
theorem channelEvent (x : ChannelEvent) (h : Good g s) : Good g (s.channelEvent x) := by
  unfold State.channelEvent; split
  · exact channelOnset _ _ h
  · exact h

theorem channelFault (x : FaultEvent) (h : Good g s) : Good g (s.channelFault x) := h

/-- An imbalance event is handed to localization (R111, R138). -/
theorem imbalanceEvent (x : ImbalanceEvent) (h : Good g s) : Good g (s.imbalanceEvent x) := by
  unfold State.imbalanceEvent; split
  · exact fineOnset _ _ _ h
  · exact h

theorem cancelCases (h : Good g s) : Good g s.cancelCases := by
  refine each _ h (fun s e h => ?_)
  split
  · exact h
  · split
    · exact caseNotice _ _ _ _ _ _ (setCase _ _ h)
    · exact h

/-! ### Drip sense -/

theorem deriveGuard (p : Position) (h : Good g s) : Good g (s.deriveGuard p) := by
  refine modBr p _ (fun x hx => ⟨hx.1, ?_, hx.2.2⟩) h
  unfold Branch.ceilingUnder; split
  · exact Or.inr rfl
  · exact Or.inl rfl

theorem deriveGuards (ps : List Position) (h : Good g s) : Good g (s.deriveGuards ps) :=
  each _ h (fun _ _ h => deriveGuard _ h)

theorem rederive (cs : List ChannelNo) (h : Good g s) : Good g (s.rederive cs) := by
  unfold State.rederive; dsimp only; split
  · exact pass _ _ (deriveGuards _ h)
  · exact deriveGuards _ h

theorem dripNotice (c : ChannelNo) (b : ChannelState) (x : DripCause) (h : Good g s) : Good g (s.dripNotice c b x) :=
  notify _ h

theorem sense (x : Sense) (hx : x.channels.length = 34) (h : Good g s) : Good g { s with sense := x } :=
  h.other rfl rfl (hx.trans h.shape.sized.channels.symm) rfl rfl rfl rfl h.shape.counter rfl rfl (h.sound.of_same rfl rfl)

/-- Work for which the line is held (R71). -/
theorem holdingLine {f : State → State} (hf : ∀ t, Good false t → Good false (f t)) (h : Good g s) :
    Good false (s.holdingLine f) := by
  have h0 : Good false s := ⟨h.shape, h.sound.out, (fun e => nomatch e), fun e => nomatch e⟩
  have h1 : Good false { s with bus.line := .stopping } :=
    h0.other rfl rfl rfl rfl rfl rfl rfl h.shape.counter rfl rfl ⟨h.sound.out, (fun e => nomatch e), fun e => nomatch e⟩
  have h2 := hf _ h1
  exact h2.other rfl rfl rfl rfl rfl rfl rfl h2.shape.counter rfl rfl ⟨h2.sound.out, (fun e => nomatch e), fun e => nomatch e⟩

/-- The grant of the line leaves nothing waiting at a free one (R71). -/
theorem granted {g' : Bool} (h : Good g s) : Good g' s.grantLine :=
  ⟨h.shape.of_frozen (congrArg State.freeze (grantLine_still _)), grantLine_sound h.sound.out (fun e => nomatch e)⟩

theorem arbiterSpeaksLast (h : Good g s) : Good g s.arbiterSpeaksLast :=
  h.quiet (arbiterSpeaksLast_still _) arbiterSpeaksLast_sound

theorem stillJoined (b : State) (h : Good g s) : Good g (s.stillJoined b) :=
  each _ h (fun _ p h => modBr p _ (fun _ hx => hx) h)

/-- A sample event, with a window end or without (R115, R116). -/
theorem sampleEvent (l : List Sample) (e : Bool) (h : Good g s) : Good g (s.sampleEvent l e) := by
  unfold State.sampleEvent; dsimp only
  refine granted (arbiterSpeaksLast (stillJoined _ (each _ (holdingLine (fun _ h => rederive _ h)
    (each _ (each _ (sense _ ?_ h) (fun _ _ h => channelFault _ h)) (fun t x h => ?_))) (fun _ _ h => channelEvent _ h))))
  · simp [State.channelSteps, Config.channels]
  · split
    · exact h
    · exact dripNotice _ _ _ h

theorem modChan (c : ChannelNo) (f : Channel → Channel) (h : Good g s) : Good g (s.modChan c f) :=
  sense _ ((List.length_modify ..).trans h.shape.sized.channels) h

theorem maskSet (l : List ChannelNo) (h : Good g s) : Good g { s with pol.maskSet := l } :=
  h.other rfl rfl rfl rfl rfl rfl rfl h.shape.counter rfl rfl (h.sound.of_same rfl rfl)

theorem maskChannel (c : ChannelNo) (h : Good g s) : Good g (s.maskChannel c) :=
  rederive _ (dripNotice _ _ _ (maskSet _ (modChan _ _ h)))

theorem unmaskChannel (c : ChannelNo) (h : Good g s) : Good g (s.unmaskChannel c) :=
  rederive _ (dripNotice _ _ _ (maskSet _ (modChan _ _ h)))

theorem cancelInjections (h : Good g s) : Good g s.cancelInjections :=
  sense _ ((List.length_map ..).trans h.shape.sized.channels) h

/-! ### Measurement window -/

/-- METER_FAULT follows meters that have just been judged (R108, R109). -/
theorem followMarks (p : Position) (v : MeterSide) (f : Branch → Branch)
    (hf : ∀ x, (f x).limits = x.limits ∧ (f x).effCeiling = x.effCeiling ∧ (f x).meterFault = x.meterFault ∧
      (f x).imbalance = x.imbalance ∧ (f x).imbalanceRun = x.imbalanceRun ∧ (f x).clearRun = x.clearRun)
    (h : Good g s) : Good g ((s.modBr p f).followMarks p v) := by
  have hp : p < s.branches.length → (s.modBr p f).br p = f (s.br p) := modBr_br_self s p f
  obtain ⟨h1, h2, h3, h4, h5, h6⟩ := hf (s.br p)
  have hfit : ∀ x : Branch, x.limits = (f (s.br p)).limits → x.effCeiling = (f (s.br p)).effCeiling → x.MetersAgree →
      (s.br p).Fit → x.Fit := fun x e1 e2 hm hx =>
    ⟨(e1.trans h1) ▸ hx.1, (e1.trans h1) ▸ (e2.trans h2) ▸ hx.2.1, hm⟩
  unfold State.followMarks; split
  · rename_i hm
    split
    · rename_i hv
      refine modBrAt p f (fun hl hx => hfit _ rfl rfl ⟨?_, fun _ => ?_⟩ hx) h
      · rw [← hp hl, hv, hm]
      · have hx' := hx.2.2.2 (h3 ▸ (hp hl) ▸ hv)
        exact ⟨h4.trans hx'.1, h5.trans hx'.2.1, h6.trans hx'.2.2⟩
    · rename_i hv
      unfold State.markFault; dsimp only
      rw [if_neg hv]
      have e := fun n x => modBr_modBr (State.hold s n 0 (.entries x)) p
        (fun b => { f b with meterFault := true }) (fun b => { b with imbalance := false, imbalanceRun := 0, clearRun := 0 })
      rw [modBr_modBr]
      refine (e _ _).symm ▸ modBrAt p _ (fun hl hx => hfit _ rfl rfl ⟨?_, fun _ => ⟨rfl, rfl, rfl⟩⟩ hx)
        (h.onward (fun h => Onward.work _ h))
      exact (hm ▸ congrArg Branch.meterMarked (hp hl)).trans rfl
  · rename_i hm
    rw [modBr_modBr]
    refine modBrAt p _ (fun hl hx => hfit _ rfl rfl ⟨?_, fun e => nomatch e⟩ hx) h
    have := hp hl ▸ (Bool.not_eq_true _).mp hm
    exact this.symm

theorem judgeMeters (p : Position) (h : Good g s) : Good g (s.judgeMeters p) :=
  followMarks p .ret (fun b => { b with returnMeter := b.returnMeter.judge (s.flowExpected p) })
    (fun _ => ⟨rfl, rfl, rfl, rfl, rfl, rfl⟩)
    (followMarks p .supply (fun b => { b with supplyMeter := b.supplyMeter.judge (s.flowExpected p) })
      (fun _ => ⟨rfl, rfl, rfl, rfl, rfl, rfl⟩) h)

theorem judgeSettle (p : Position) (h : Good g s) : Good g (s.judgeSettle p) := by
  unfold State.judgeSettle; split
  · dsimp only
    have h1 := modBr p (fun b => { b with
      settleRun := if b.settleRun < s.pol.active.timing.settleCount then b.settleRun + 1 else b.settleRun
      settled := b.settled || s.settlesNow p }) (fun _ hx => hx) h
    split
    · exact notify _ h1
    · exact h1
  · exact h.quiet (unsettle_still _ _ _) (unsettle_sound _ _)

theorem adjust (p : Position) (q : Bool) (h : Good g s) : Good g (s.adjust p q) := by
  unfold State.adjust; dsimp only; split
  · split
    · exact h
    · exact placeFlow _ _ (modBr p (fun b => { b with controlTarget := some _ }) (fun _ hx => hx) h)
  · exact h

theorem finishTrim (p : Position) (h : Good g s) : Good g (s.finishTrim p) := by
  have h1 := modBr p (fun b => { b with controlTarget := some ((s.br p).curveTarget (s.br p).drive), trim := none })
    (fun _ hx => hx) h
  unfold State.finishTrim; dsimp only; repeat' split
  all_goals first
    | exact placeFlow _ _ h1
    | exact h1

theorem advanceTrim (p : Position) (v : Bool) (h : Good g s) : Good g (s.advanceTrim p v) := by
  unfold State.advanceTrim; split
  · exact h
  · rename_i tr _
    have h1 := modBr p (fun b => { b with trim := some { tr with windows := tr.windows + 1 } }) (fun _ hx => hx) h
    dsimp only; split
    · exact complete _ _ _ (finishTrim _ (modBr p (fun b => { b with trimOffset := _ }) (fun _ hx => hx) h1))
    · split
      · exact complete _ _ _ (finishTrim _ h1)
      · exact h1

theorem judgeImbalance (p : Position) (h : Good g s) : Good g (s.judgeImbalance p) := by
  unfold State.judgeImbalance; dsimp only; split
  · exact modBr p (fun b => { b with imbalance := false, imbalanceRun := 0, clearRun := 0 })
      (fun _ hx => ⟨hx.1, hx.2.1, hx.2.2.1, fun _ => ⟨rfl, rfl, rfl⟩⟩) h
  · split
    · rename_i hq
      refine modBrAt p _ (fun _ hx => ?_) h
      have hn : (s.br p).meterFault = false := by
        rw [hx.2.2.1]
        unfold State.qualifies at hq
        simp only [Bool.and_eq_true, Bool.not_eq_true'] at hq
        exact hq.1.1
      unfold Branch.judgeImbalance; dsimp only; repeat' split
      all_goals exact ⟨hx.1, hx.2.1, hx.2.2.1, fun e => absurd (hn.symm.trans e) (by decide)⟩
    · exact h

/-- The work of a window expiry on one branch (R96). -/
theorem branchWindow (p : Position) (h : Good g s) : Good g (s.branchWindow p) :=
  modBr p (fun b => { b with
      driveChanged := false, supplyMeter := { b.supplyMeter with pulses := 0 }
      returnMeter := { b.returnMeter with pulses := 0 } }) (fun _ hx => hx)
    (judgeImbalance _ (advanceTrim _ _ (adjust _ _ (judgeSettle _ (judgeMeters _
      (modBr p (fun b => { b with
        measuredSupply := flowOf b.supplyMeter.pulses b.limits.kSupply s.window.length
        measuredReturn := flowOf b.returnMeter.pulses b.limits.kReturn s.window.length }) (fun _ hx => hx) h))))))

theorem sendTelemetry (h : Good g s) : Good g s.sendTelemetry := by
  have h1 := notify s.telemetryEntry h
  exact h1.other rfl rfl rfl rfl rfl (List.length_map ..) rfl h1.shape.counter rfl rfl (h1.sound.of_same rfl rfl)

theorem busOnly (u : Bus) (ha : u.actuators.length = s.bus.actuators.length) (hg : s.bus.Granted → u.Granted)
    (h : Good g s) : Good g { s with bus := u } :=
  h.other rfl ha rfl rfl rfl rfl rfl h.shape.counter rfl rfl
    ⟨h.sound.out, fun e => hg (h.sound.granted e), fun e => nomatch e⟩

theorem judgeStop (p : Position) (k : Nat) (h : Good g s) : Good g (s.judgeStop p k) := by
  unfold State.judgeStop; dsimp only; split
  · exact askDrawPass (endVerify _ _ _ (busOnly _ rfl id h))
  · split
    · exact askDrawPass (endVerify _ _ _ (busOnly _ rfl id h))
    · exact placeSvc _ _ _ (busOnly _ rfl id h)

theorem verifyWindow (h : Good g s) : Good g s.verifyWindow := by
  unfold State.verifyWindow; repeat' split
  all_goals first
    | exact h
    | exact judgeStop _ _ h
    | exact busOnly _ rfl id h

theorem confirmJob (j : Job) (h : Good g s) : Good g (s.confirmJob j) := by
  unfold State.confirmJob; split
  · exact h
  · split
    · exact h.onward (fun h => Onward.enterHold _ (Onward.modJob _ _ h))
    · exact h.onward (Onward.modJob _ _)

theorem nextWindow (h : Good g s) : Good g s.nextWindow :=
  h.other rfl rfl rfl rfl rfl rfl rfl h.shape.counter rfl rfl (h.sound.of_same rfl rfl)

/-- A measurement window expires (R96). -/
theorem windowExpiry (h : Good g s) : Good g s.windowExpiry := by
  have h0 : Good g s.advanceCounter := by
    refine h.other rfl rfl rfl rfl rfl rfl rfl ?_ rfl rfl (h.sound.of_same rfl rfl)
    have := h.shape.counter
    show (if s.window.counter = 255 then 0 else s.window.counter + 1) ≤ 255
    split <;> omega
  unfold State.windowExpiry
  exact each _ (verifyWindow (each _ (nextWindow (sendTelemetry (each Config.positions h0
    (fun _ p h => branchWindow p h)))) (fun _ _ h => imbalanceEvent _ h))) (fun _ _ h => confirmJob _ h)

end State.Good

end Sys2Proof.Machine
end

