-- ==== Sys2Proof/Laws/Valves.lean ====
section
/-! SUPPORT. Start-up, the end of the survey and the events of the valve bus keep the shape and the soundness of the part: one lemma per operation. -/

namespace Sys2Proof.Machine

namespace State.Good

variable {g : Bool} {s : State}

/-- Soundness without regard to what waits at a free line. -/
theorem loose (h : Good g s) : Good false s := ⟨h.shape, h.sound.out, (fun e => nomatch e), (fun e => nomatch e)⟩

theorem report (c : Client) (a : ActuatorNo) (k : ReportKind) (h : Good g s) : Good g (s.report c a k) :=
  h.quiet (report_still _ _ _ _) (fun hs => report_sound _ _ hs (fun e => nomatch e))

theorem placePoll (a : ActuatorNo) (v : Bool) (h : Good g s) : Good g (s.placePoll a v) :=
  h.quiet (placePoll_still _ _ _) (placePoll_sound _ _)

theorem failMove (a : ActuatorNo) (f : FaultCode) (h : Good g s) : Good g (s.failMove a f) :=
  h.quiet (failMove_still _ _ _) (failMove_sound _ _)

theorem completeMove (a : ActuatorNo) (h : Good g s) : Good g (s.completeMove a) := h.onward (Onward.completeMove a)

theorem endService (st : Status) (x : CompletionBody) (h : Good g s) : Good g (s.endService st x) :=
  h.quiet (endService_still _ _ _) (endService_sound _ _)

theorem clearDraw (p : Position) (h : Good g s) : Good g (s.clearDraw p) := h.quiet (clearDraw_still _ _) (clearDraw_sound _)

theorem shutValves (p : Position) (h : Good g s) : Good g (s.shutValves p) :=
  h.quiet (shutValves_still _ _) (shutValves_sound _)

theorem transmit (h : Good g s) : Good g s.transmit := h.quiet (transmit_still _) transmit_sound

/-- The end of an event keeps the shape and leaves the part at rest. -/
theorem finish (h : Good g s) : Good true s.finish ∧ s.finish.AtRest :=
  have h1 := Onward.finish (Onward.refl h.sound)
  ⟨⟨h.shape.of_frozen h1.1.kept, h1.1.sound⟩, h1.2⟩

/-- The end of a transaction keeps the shape and leaves the part at rest. -/
theorem finishLine (h : Good g s) : Good true s.finishLine ∧ s.finishLine.AtRest :=
  have h1 := Onward.finishLine (Onward.refl h.sound)
  ⟨⟨h.shape.of_frozen h1.1.kept, h1.1.sound⟩, h1.2⟩

/-! ### The end of the survey -/

theorem boot (x : Boot) (h : Good g s) : Good g { s with boot := x } :=
  h.other rfl rfl rfl rfl rfl rfl rfl h.shape.counter rfl rfl (h.sound.of_same rfl rfl)

theorem closeStrays (h : Good g s) : Good g s.closeStrays := by
  unfold State.closeStrays; split
  · exact h
  · exact each _ h (fun _ _ h => h.onward (Onward.closeAgain _ _ _))

theorem leaveHeld (p : Position) (h : Good g s) : Good g (s.leaveHeld p) := by
  unfold State.leaveHeld; split
  · have h1 := (modBr p (fun b => { b with state := .active, request := b.limits.entryRequest }) (fun _ hx => hx) h).onward
      (Onward.takeStamp p)
    have h2 := fun d => modBr p (fun b => { b with drive := d, driveChanged := true }) (fun _ hx => hx) h1
    exact (h2 _).onward (fun h => Onward.followCurve _ (Onward.unsettle _ _ h))
  · exact modBr p (fun b => { b with state := .vacant }) (fun _ hx => hx) h

theorem endSurvey (h : Good g s) : Good g s.endSurvey := by
  unfold State.endSurvey; dsimp only
  refine askPass _ (notify _ (each _ (each _ (closeStrays (boot _ h)) (fun _ _ h => leaveHeld _ h)) (fun s p h => ?_)))
  unfold State.shutIdle; split
  · exact shutValves _ h
  · exact h

theorem surveyDone (a : ActuatorNo) (h : Good g s) : Good g (s.surveyDone a) := by
  unfold State.surveyDone; split
  · exact h
  · dsimp only; split
    · exact endSurvey h
    · exact boot _ h

/-! ### Replies and failures -/

theorem recheckValveFault (a : ActuatorNo) (h : Good g s) : Good g (s.recheckValveFault a) :=
  h.onward (Onward.recheckValveFault a)

theorem hear (a : ActuatorNo) (q : Nat) (f : ActuatorFlags) (h : Good g s) : Good g (s.hear a q f) :=
  recheckValveFault _ (modAct _ _ h)

theorem unheard (a : ActuatorNo) (h : Good g s) : Good g (s.unheard a) := modAct _ _ h

theorem judgeIdle (a : ActuatorNo) (h : Good g s) : Good g (s.judgeIdle a) := by
  unfold State.judgeIdle; split
  · exact report _ _ _ (modAct _ _ h)
  · exact h

theorem judgeMove (a : ActuatorNo) (q : Nat) (f : ActuatorFlags) (h : Good g s) : Good g (s.judgeMove a q f) := by
  unfold State.judgeMove; repeat' split
  · exact h
  · exact failMove _ _ h
  · exact completeMove _ h
  · exact modAct _ _ h

theorem judgeTracking (a : ActuatorNo) (q : Nat) (f : ActuatorFlags) (h : Good g s) : Good g (s.judgeTracking a q f) := by
  unfold State.judgeTracking; repeat' split
  · exact h
  · exact judgeIdle _ h
  · exact failMove _ _ h
  · exact completeMove _ h
  · exact modAct _ _ h

theorem judgeSurvey (a : ActuatorNo) (q : Nat) (f : ActuatorFlags) (h : Good g s) : Good g (s.judgeSurvey a q f) := by
  unfold State.judgeSurvey; split
  · exact failMove _ _ h
  · exact modAct _ _ h

theorem clearPollDone (a : ActuatorNo) (h : Good g s) : Good g (s.clearPollDone a) := by
  refine busOnly _ rfl (fun hg => ?_) h
  rcases hg with hl | ⟨h0, h1, h2, h3, h4, h5⟩
  · exact Or.inl hl
  · refine Or.inr ⟨?_, h1, h2, h3, h4, h5⟩
    show (match s.bus.clearing with | none => none | some c => _) = none
    rw [h0]

theorem restActuator (a : ActuatorNo) (h : Good g s) : Good g (s.restActuator a) := modAct _ _ h

theorem answered (t : Transaction) (q : Nat) (f : ActuatorFlags) (h : Good g s) : Good g (s.answered t q f) := by
  unfold State.answered; split
  · exact judgeMove _ _ _ h
  · exact judgeTracking _ _ _ h
  · exact judgeIdle _ h
  · exact surveyDone _ (judgeSurvey _ _ _ h)
  · exact clearPollDone _ (restActuator _ h)

theorem unanswered (t : Transaction) (h : Good g s) : Good g (s.unanswered t) := by
  unfold State.unanswered; split
  · exact failMove _ _ h
  · exact failMove _ _ h
  · exact report _ _ _ h
  · exact surveyDone _ h
  · exact clearPollDone _ (restActuator _ h)

/-- A failed attempt is repeated or ends the transaction (R69). -/
theorem attemptFailed (t : Transaction) (h : Good g s) :
    Good true (s.attemptFailed t) ∧ (s.attemptFailed t).AtRest := by
  unfold State.attemptFailed; split
  · have h1 : Good g (s.sendRequest t.actuator t.request 2) :=
      h.quiet (sendRequest_still _ _ _ _) (fun h => sendRequest_sound _ _ _ h.out h.mild)
    exact finish h1
  · exact finishLine (unanswered _ (unheard _ h))

/-- A reply answers the transaction, or its attempt has failed (R69). -/
theorem replyArrives (r : ValveReply) (t : Transaction) (h : Good g s) :
    Good true (s.replyArrives r t) ∧ (s.replyArrives r t).AtRest := by
  unfold State.replyArrives; split
  · exact finishLine (answered _ _ _ (hear _ _ _ h))
  · exact attemptFailed _ h

theorem startTimerOut (a : ActuatorNo) (x : Move) (h : Good g s) : Good g (s.startTimerOut a x) := by
  unfold State.startTimerOut; split
  · exact modAct _ _ h
  · exact failMove _ _ h

theorem trackingDue (a : ActuatorNo) (h : Good g s) : Good false (s.trackingDue a) := by
  unfold State.trackingDue; split
  · exact h.loose.other rfl rfl rfl rfl rfl rfl rfl h.shape.counter rfl rfl
      ⟨h.sound.out, (fun e => nomatch e), (fun e => nomatch e)⟩
  · exact h.loose

theorem idleDue (a : ActuatorNo) (h : Good g s) : Good g (s.idleDue a) := by
  unfold State.idleDue; dsimp only; repeat' split
  all_goals first
    | exact h
    | exact placePoll _ _ h

/-! ### BUS_CLEAR -/

theorem abortReport (c : Client) (a : ActuatorNo) (h : Good g s) : Good g (s.abortReport c a) := by
  unfold State.abortReport; split
  · exact report _ _ _ h
  · exact h

theorem clearBus (h : Good g s) : Good false s.clearBus := by
  unfold State.clearBus; dsimp only
  have h1 : Good g ((s.forEach (s.bus.isoQ ++ s.bus.flowQ ++ s.bus.svcQ) (fun s c => s.abortReport c.client c.actuator)).forEach
      (Config.actuators.filterMap (fun a => (s.act a).move.map (fun m => (m.client, a)))) (fun s x => s.abortReport x.1 x.2)) :=
    each _ (each _ h (fun _ _ h => abortReport _ _ h)) (fun _ _ h => abortReport _ _ h)
  revert h1
  generalize (s.forEach (s.bus.isoQ ++ s.bus.flowQ ++ s.bus.svcQ) (fun s c => s.abortReport c.client c.actuator)).forEach
      _ _ = u
  intro h1
  have z := h1.shape.sized
  refine ⟨⟨⟨(List.length_map ..).trans z.branches, (List.length_map ..).trans z.actuators, z.channels, z.cases, z.slots,
    z.requesters, z.imageA, z.imageB, z.saving⟩, h1.shape.inbound, h1.shape.commands, h1.shape.counter,
    ⟨fun b hb => ?_, h1.shape.fit.active, h1.shape.fit.imageA, h1.shape.fit.imageB, h1.shape.fit.saving⟩⟩,
    h1.sound.out, (fun e => nomatch e), (fun e => nomatch e)⟩
  obtain ⟨c, hc, rfl⟩ := List.mem_map.1 hb
  exact h1.shape.fit.branches c hc

/-- BUS_CLEAR (R82). -/
theorem busClear (h : Good g s) : Good false s.busClear := by
  have h1 := clearBus h
  have h2 : Good false s.clearBus.clearVerify := by
    unfold State.clearVerify; split
    · exact endVerify _ _ _ h1
    · exact h1
  have h3 : Good false s.clearBus.clearVerify.clearService := by
    unfold State.clearService; split
    · exact h2
    · dsimp only; split
      · exact clearDraw _ (endService _ _ h2)
      · exact endService _ _ h2
  unfold State.busClear; dsimp only; split
  · exact askDrawPass h3
  · exact h3

/-! ### Start-up -/

/-- A current image is one of the two stored. -/
theorem image_cases {k : Store} {i : Image} (h : k.image = some i) : k.imageA = some i ∨ k.imageB = some i := by
  unfold Store.image at h; split at h
  · exact Or.inl h
  · exact Or.inr h
  · cases h

/-- What start-up wakes with (R189): of the state before, only the stored images matter. -/
theorem wake (c : StartCause) (hs : ∀ i, s.store.image = some i → i.requesters.length = 32 ∧ i.policy.Fit)
    (ha : ∀ i, s.store.imageA = some i → i.requesters.length = 32 ∧ i.policy.Fit)
    (hb : ∀ i, s.store.imageB = some i → i.requesters.length = 32 ∧ i.policy.Fit) : Good true (s.wake c) := by
  have hp : Policy.Fit ((s.store.image.map (fun i => i.policy)).getD Policy.factory) := by
    cases h : s.store.image with
    | none =>
      intro n hn
      show (((List.replicate 24 BranchPolicy.factory).getD n BranchPolicy.factory).limits.Fit)
      rw [List.getD_eq_getElem?_getD, List.getElem?_replicate_of_lt hn]; show (50 : Nat) ≤ 300; omega
    | some i => exact (hs i h).2
  have hr : ((s.store.image.map (fun i => i.requesters.map (Option.map StoredRequester.wake))).getD
      (List.replicate 32 none)).length = 32 := by
    cases h : s.store.image with
    | none => rfl
    | some i => exact (List.length_map ..).trans (hs i h).1
  unfold State.wake; dsimp only
  refine deriveGuards _ ⟨⟨⟨by simp [Config.positions], by simp [Config.actuators], by simp [Config.channels], rfl, ?_, hr,
    fun i h => (ha i h).1, fun i h => (hb i h).1, fun x h => nomatch h⟩, by simp [Link.reset],
    (fun i h => nomatch h), by simp,
    ⟨fun b h => ?_, hp, fun i h => (ha i h).2, fun i h => (hb i h).2, fun x h => nomatch h⟩⟩,
    by simp [Link.reset], fun _ => Or.inr ⟨rfl, rfl, rfl, rfl, rfl, rfl⟩, fun e => nomatch e⟩
  · dsimp only
    generalize HoldRecord.restoredJob _ _ = j
    cases j <;> simp [restoredSlots]
  · obtain ⟨p, hm, rfl⟩ := List.mem_map.1 h
    exact ⟨hp p (by simpa [Config.positions] using hm), Or.inl rfl, rfl, fun _ => ⟨rfl, rfl, rfl⟩⟩

/-- Start-up brings up a part of good shape, whatever went before (R189). -/
theorem startUp (c : StartCause) (ha : ∀ i, s.store.imageA = some i → i.requesters.length = 32 ∧ i.policy.Fit)
    (hb : ∀ i, s.store.imageB = some i → i.requesters.length = 32 ∧ i.policy.Fit) : Good true (s.startUp c) :=
  each _ (wake c (fun i h => (image_cases h).elim (ha i) (hb i)) ha hb) (fun _ _ h => placePoll _ _ h)

end State.Good

/-- Nothing but polls waits for the line, and no report waits. -/
structure State.PollsOnly (s : State) : Prop where
  reports : s.bus.reports = []
  clearing : s.bus.clearing = none
  track : s.bus.trackDue = []
  iso : s.bus.isoQ = []
  flow : s.bus.flowQ = []
  svc : s.bus.svcQ = []

theorem State.PollsOnly.of_bus {s t : State} (e : t.bus = s.bus) (h : s.PollsOnly) : t.PollsOnly :=
  ⟨e ▸ h.reports, e ▸ h.clearing, e ▸ h.track, e ▸ h.iso, e ▸ h.flow, e ▸ h.svc⟩

/-- A poll placed where nothing but polls waits makes no report. -/
theorem placePoll_pollsOnly {s : State} (a : ActuatorNo) (v : Bool) (h : s.PollsOnly) : (s.placePoll a v).PollsOnly := by
  obtain ⟨h0, h1, h2, h3, h4, h5⟩ := h
  unfold State.placePoll; split
  · exact ⟨h0, h1, h2, h3, h4, h5⟩
  · unfold State.grantLine; split
    · split
      · rename_i c hc; exact absurd (hc.symm.trans h1) (by simp)
      · unfold State.grantClaim
        dsimp only
        rw [h2, h3, h4, h5]
        cases s.bus.pollQ ++ [{ actuator := a, survey := v, madeAt := s.now }] with
        | nil => exact ⟨h0, h1, rfl, rfl, rfl, rfl⟩
        | cons x l => exact ⟨h0, h1, rfl, rfl, rfl, rfl⟩
    · exact ⟨h0, h1, h2, h3, h4, h5⟩

theorem deriveGuards_bus (s : State) (ps : List Position) : (s.deriveGuards ps).bus = s.bus :=
  forEach_leaves (fun s : State => s.bus) State.deriveGuard (fun _ _ => rfl) ps s

/-- Start-up makes no report. -/
theorem startUp_reports (s : State) (c : StartCause) : (s.startUp c).bus.reports = [] := by
  have h : (s.wake c).PollsOnly :=
    State.PollsOnly.of_bus (deriveGuards_bus _ _) ⟨rfl, rfl, rfl, rfl, rfl, rfl⟩
  unfold State.startUp
  exact (forEach_keeps State.PollsOnly (fun s a => s.placePoll a true) (fun s a h => placePoll_pollsOnly a true h) _ _
    h).reports

/-! ### The bus does not touch the work of an event -/

theorem report_work (s : State) (c : Client) (a : ActuatorNo) (k : ReportKind) : (s.report c a k).work = s.work := by
  unfold State.report; split <;> rfl

theorem sendMove_work (s : State) (c : Claim) : (s.sendMove c).work = s.work := by
  show (s.supersede c.actuator).work = s.work
  unfold State.supersede; split
  · rfl
  · exact report_work _ _ _ _

theorem grantClaim_work (s : State) : s.grantClaim.work = s.work := by
  unfold State.grantClaim; split
  all_goals first
    | rfl
    | exact sendMove_work _ _

theorem grantLine_work (s : State) : s.grantLine.work = s.work := by
  unfold State.grantLine State.grantClear; repeat' split
  all_goals first
    | rfl
    | exact grantClaim_work _

theorem placePoll_work (s : State) (a : ActuatorNo) (v : Bool) : (s.placePoll a v).work = s.work := by
  unfold State.placePoll; split
  · rfl
  · exact grantLine_work _

/-- Start-up leaves no work of an event. -/
theorem startUp_work (s : State) (c : StartCause) : (s.startUp c).work = Work.idle := by
  refine (forEach_leaves (fun s : State => s.work) (fun s a => s.placePoll a true) (fun s a => placePoll_work s a true) _ _).trans ?_
  exact forEach_leaves (fun s : State => s.work) State.deriveGuard (fun _ _ => rfl) _ _

end Sys2Proof.Machine
end

