-- ==== Sys2Proof/Laws/Commands.lean ====
section
/-! SUPPORT. The ranges that the STAGE commands check, and what the blocks of the commands keep: sizes, bounds, floors under ceilings, and soundness: one lemma per block. -/

namespace Sys2Proof.Machine

/-- A refusal leaves the part as it was. -/
theorem refuses_fst (s : State) (r : Reason) (b : ReplyBody) : (s.refuses r b).1 = s := rfl

/-! ### The ranges of section 3.2, as the checks of the STAGE commands read them (R50) -/

theorem BranchGroup.checks_ranges (g : BranchGroup) : BranchGroup.checks g =
    ([true, g.cls ≤ 3, g.floor ≤ 600, g.ceiling ≤ 600, g.entryRequest.all (fun r => r ≤ 600), true, g.mode ≤ 1, g.p0 ≤ 500,
      100 ≤ g.pfull ∧ g.pfull ≤ 1000, 100 ≤ g.kSupply ∧ g.kSupply ≤ 10000, 100 ≤ g.kReturn ∧ g.kReturn ≤ 10000] : List Bool) := by
  cases h : g.entryRequest <;> simp [BranchGroup.checks, inRange, h]

theorem timingChecks_ranges (g : Timing) : timingChecks g =
    ([200 ≤ g.cutDeadline ∧ g.cutDeadline ≤ 10000, g.warnDeadline ≤ 2000, g.drainDelay ≤ 30, g.localizationWindow ≤ 10,
      g.measurementWindow ∈ [250, 500, 1000, 2000], 1 ≤ g.settleTolerance ∧ g.settleTolerance ≤ 20,
      1 ≤ g.settleCount ∧ g.settleCount ≤ 8, 5 ≤ g.dryWindows ∧ g.dryWindows ≤ 120,
      5 ≤ g.imbalanceThreshold ∧ g.imbalanceThreshold ≤ 100, 2 ≤ g.imbalanceWindows ∧ g.imbalanceWindows ≤ 20] : List Bool) := by
  simp [timingChecks, inRange]

theorem SupplyGroup.checks_ranges (g : SupplyGroup) : SupplyGroup.checks g =
    ([g.reserve ≤ 2000, g.assumed ≤ 16000, 5 ≤ g.ageing ∧ g.ageing ≤ 300, g.unguardedCap ≤ 1, true,
      g.hallPolarity ≤ 1] : List Bool) := by
  simp [SupplyGroup.checks, inRange]

theorem extentChecks_ranges (a b : Nat) : extentChecks (some (a, b)) = ([a ≤ 23, b ≤ 23] : List Bool) := by
  simp [extentChecks, inRange]

/-- A block keeps the shape and the soundness of the part. -/
def Block.Keeps (run : Block) : Prop := ∀ s, State.Good true s → State.Good false (run s).1

namespace State.Good

variable {g : Bool} {s : State}

theorem reply (w : Answering) (c : Cmd) (n : Nat) (a : Answer) (h : Good g s) : Good g (s.reply w c n a) := by
  unfold State.reply; split
  · exact h.other rfl rfl rfl rfl rfl rfl rfl h.shape.counter rfl rfl (h.sound.of_same rfl rfl)
  · exact h

theorem handReply (f : ReplyFrame) (h : Good g s) : Good g (s.handReply f) :=
  h.other rfl rfl rfl rfl rfl rfl rfl h.shape.counter rfl rfl (h.sound.of_same rfl rfl)

theorem recordLong (k : LongKind) (c : Cmd) (h : Good g s) : Good g (s.recordLong k c) :=
  h.other rfl rfl rfl rfl rfl rfl rfl h.shape.counter rfl rfl (h.sound.of_same rfl rfl)

theorem advance (t : Time) (h : Good g s) : Good g (s.advance t) :=
  h.other rfl rfl rfl rfl rfl rfl rfl h.shape.counter rfl rfl (h.sound.of_same rfl rfl)

/-- The head of the queue is taken. -/
theorem takeHead (h : Good g s) : Good g { s with link.inbound := s.link.inbound.tail } := by
  have z := h.shape.sized
  refine ⟨⟨⟨z.branches, z.actuators, z.channels, z.cases, z.slots, z.requesters, z.imageA, z.imageB, z.saving⟩, ?_,
    fun i hi => h.shape.commands i (List.mem_of_mem_tail hi), h.shape.counter, ⟨h.shape.fit.branches, h.shape.fit.active,
      h.shape.fit.imageA, h.shape.fit.imageB, h.shape.fit.saving⟩⟩, h.sound.of_same rfl rfl⟩
  have := h.shape.inbound
  simp only [List.length_tail]; omega

/-- A command of the link is offered to the queue (R174). -/
theorem offer (i : Instr) (c : Cmd) (hi : i.cmd?.isSome = true) (h : Good g s) : Good g (s.offer i c) := by
  unfold State.offer; split
  · rename_i hl
    have hp : (enqueueCommand i s.link.inbound).Perm (i :: s.link.inbound) := by
      unfold enqueueCommand; split
      · refine List.perm_middle.trans (List.Perm.cons _ ?_)
        rw [List.takeWhile_append_dropWhile]
      · exact List.perm_append_singleton _ _
    have z := h.shape.sized
    refine ⟨⟨⟨z.branches, z.actuators, z.channels, z.cases, z.slots, z.requesters, z.imageA, z.imageB, z.saving⟩,
      (by rw [hp.length_eq]; exact hl), fun j hj => ?_, h.shape.counter, ⟨h.shape.fit.branches, h.shape.fit.active,
        h.shape.fit.imageA, h.shape.fit.imageB, h.shape.fit.saving⟩⟩, h.sound.of_same rfl rfl⟩
    rcases List.mem_cons.1 (hp.mem_iff.1 hj) with rfl | hj
    · exact hi
    · exact h.shape.commands j hj
  · exact handReply _ h

/-- A link that changes none of its tables, queues or entries in number. -/
theorem setRequester (i : Nat) (r : Option Requester) (h : Good g s) : Good g (s.setRequester i r) :=
  h.other rfl rfl rfl rfl rfl List.length_set rfl h.shape.counter rfl rfl (h.sound.of_same rfl rfl)

theorem setDraw (p : Position) (h : Good g s) : Good g (s.setDraw p) := by
  unfold State.setDraw; split
  · exact pass _ _ (modBr p (fun b => { b with draw := b.limits.ceiling }) (fun _ hx => hx) h)
  · exact h

theorem setMaint (p : Position) (v : Bool) (h : Good g s) : Good g (s.setMaint p v) := h.onward (Onward.setMaint _ _)
theorem takeStamp (p : Position) (h : Good g s) : Good g (s.takeStamp p) := h.onward (Onward.takeStamp _)
theorem shutBranch (p : Position) (h : Good g s) : Good g (s.shutBranch p) := h.onward (Onward.shutBranch _)
theorem endClosing (p : Position) (h : Good g s) : Good g (s.endClosing p) := h.onward (Onward.endClosing _)
theorem unsettle (p : Position) (c : SettleCause) (h : Good g s) : Good g (s.unsettle p c) :=
  h.onward (Onward.unsettle _ _)
theorem removeIfEmpty (i : JobId) (h : Good g s) : Good g (s.removeIfEmpty i) := h.onward (Onward.removeIfEmpty _)

/-! ### Flow commands -/

theorem writeRequest (p : Position) (f : Nat) (u : Bool) (h : Good g s) : Good g (s.writeRequest p f u) := by
  unfold State.writeRequest; dsimp only
  refine modBr p (fun b => { b with request := f, urgent := u && b.limits.urgentPermitted }) (fun _ hx => hx) ?_
  split
  · exact takeStamp _ h
  · exact h

theorem carryCut (p : Position) (k : PendingCut) (h : Good g s) : Good g (s.carryCut p k) :=
  (modBr p (fun b => { b with cut := none }) (fun _ hx => hx) h).onward (fun h => Onward.reexamine (Onward.setDrive _ _ h))

theorem arb (a : Arbiter) (h : Good g s) : Good g { s with arb := a } :=
  h.other rfl rfl rfl rfl rfl rfl rfl h.shape.counter rfl rfl (h.sound.of_same rfl rfl)

end State.Good

theorem flowRequestOn_keeps (f : Nat) (u : Bool) (p : Position) : Block.Keeps (flowRequestOn f u p) := by
  intro s h; unfold flowRequestOn; split
  · exact h.loose
  · split
    · exact h.loose
    · exact ((h.writeRequest _ _ _).pass _ _).loose

theorem flowReleaseOn_keeps (p : Position) : Block.Keeps (flowReleaseOn p) := by
  intro s h; unfold flowReleaseOn; split
  · exact h.loose
  · exact ((h.modBr p (fun b => { b with request := 0, urgent := false }) (fun _ hx => hx)).pass _ _).loose

theorem cutAckOn_keeps (p : Position) : Block.Keeps (cutAckOn p) := by
  intro s h; unfold cutAckOn; split
  · exact (h.carryCut _ _).loose
  · exact h.loose

theorem declareSupplyBlock_keeps (n : Nat) : Block.Keeps (declareSupplyBlock n) := by
  intro s h; unfold declareSupplyBlock; split
  · exact h.loose
  · have h1 : State.Good true (s.declared n) := h.arb _
    exact (h1.pass _ _).loose

theorem onBound_keeps (c : Cmd) (run : Position → Block) (h : ∀ p, Block.Keeps (run p)) : Block.Keeps (onBound c run) := by
  intro s hs; unfold onBound; split
  · exact h _ s hs
  · exact hs.loose

/-! ### Policy commands -/

/-- What changes the policy unit but not its active copy. -/
theorem State.Good.staged {g : Bool} {s : State} (p : PolicyUnit) (hp : p.active = s.pol.active) (h : State.Good g s) :
    State.Good g { s with pol := p } :=
  h.other rfl rfl rfl rfl rfl rfl rfl h.shape.counter hp rfl (h.sound.of_same rfl rfl)

theorem stageBlock_keeps (b : Bool) (l : List Bool) (f : Policy → Policy) : Block.Keeps (stageBlock b l f) := by
  intro s h; unfold stageBlock; repeat' split
  · exact h.loose
  · exact h.loose
  · exact (State.Good.staged { s.pol with staged := f s.pol.staged, dirty := true } rfl h).loose

theorem discardBlock_keeps : Block.Keeps discardBlock := fun s h =>
  (State.Good.staged { s.pol with staged := s.pol.active, dirty := false } rfl h).loose

/-- A policy without errors has its floors under its ceilings (R56). -/
theorem fit_of_no_error {p : Policy} (h : p.error = none) : p.Fit := by
  intro n hn
  unfold Policy.error at h
  split at h
  · cases h
  · rename_i hf
    have := List.findSome?_eq_none_iff.1 hf n (by simpa [Config.positions] using hn)
    rw [Option.map_eq_none_iff] at this
    unfold BranchPolicy.error at this
    split at this
    · cases this
    · rename_i hl; exact Nat.not_lt.1 hl

/-- An image that is written keeps sizes and order (R187). -/
theorem snapshot_good {s : State} (h : s.Shape) : s.snapshot.requesters.length = 32 ∧ s.snapshot.policy.Fit :=
  ⟨(List.length_map ..).trans h.sized.requesters, h.fit.active⟩

theorem saveBlock_keeps (c : Cmd) : Block.Keeps (saveBlock c) := by
  intro s h; unfold saveBlock; split
  · exact h.loose
  · refine State.Good.recordLong _ _ ?_
    have z := h.shape.sized
    have q := snapshot_good h.shape
    exact ⟨⟨⟨z.branches, z.actuators, z.channels, z.cases, z.slots, z.requesters, z.imageA, z.imageB,
      fun x hx => by cases hx; exact q.1⟩, h.shape.inbound, h.shape.commands, h.shape.counter, ⟨h.shape.fit.branches,
        h.shape.fit.active, h.shape.fit.imageA, h.shape.fit.imageB, fun x hx => by cases hx; exact q.2⟩⟩,
      h.loose.sound.of_same rfl rfl⟩

/-! ### The apply -/

/-- A state of good shape but for its effective ceilings, which an apply derives anew (R58). -/
structure State.Copying (s : State) : Prop where
  sized : s.Sized
  inbound : s.link.inbound.length ≤ Config.inboundSize
  commands : ∀ i ∈ s.link.inbound, i.cmd?.isSome = true
  counter : s.window.counter ≤ 255
  limits : ∀ b ∈ s.branches, b.limits.Fit ∧ b.MetersAgree
  active : s.pol.active.Fit
  imageA : ∀ i, s.store.imageA = some i → i.policy.Fit
  imageB : ∀ i, s.store.imageB = some i → i.policy.Fit
  saving : ∀ x, s.store.saving = some x → x.2.policy.Fit
  sound : s.Sound true false

/-- A branch record after reset is fit. -/
theorem reset_fit : Branch.reset.Fit := ⟨by show (50 : Nat) ≤ 300; omega, Or.inl rfl, rfl, fun _ => ⟨rfl, rfl, rfl⟩⟩

namespace State.Copying

variable {s : State}

/-- What changes the policy unit but not its active copy. -/
theorem pol (p : PolicyUnit) (hp : p.active = s.pol.active) (h : s.Copying) : State.Copying { s with pol := p } := by
  obtain ⟨z, h1, h2, h3, h4, h5, h6, h7, h8, h9⟩ := h
  exact ⟨⟨z.branches, z.actuators, z.channels, z.cases, z.slots, z.requesters, z.imageA, z.imageB, z.saving⟩, h1, h2, h3,
    h4, hp ▸ h5, h6, h7, h8, h9.of_same rfl rfl⟩

theorem modBr (p : Position) (f : Branch → Branch) (hf : ∀ x, x.limits.Fit ∧ x.MetersAgree → (f x).limits.Fit ∧ (f x).MetersAgree)
    (h : s.Copying) :
    (s.modBr p f).Copying := by
  obtain ⟨z, h1, h2, h3, h4, h5, h6, h7, h8, h9⟩ := h
  refine ⟨⟨(List.length_modify ..).trans z.branches, z.actuators, z.channels, z.cases, z.slots, z.requesters, z.imageA,
    z.imageB, z.saving⟩, h1, h2, h3, fun b hb => ?_, h5, h6, h7, h8, modBr_sound _ _ h9⟩
  obtain ⟨i, hi, rfl⟩ := List.getElem_of_mem hb
  simp only [State.modBr, List.getElem_modify]
  have := h4 _ (List.getElem_mem (by simpa [State.modBr] using hi))
  split
  · exact hf _ this
  · exact this

theorem zones (z : List (Option (Nat × Nat))) (h : s.Copying) :
    (s.forEach Config.positions (fun s p => s.modBr p (fun b => { b with zone := zoneOf z p }))).Copying :=
  forEach_keeps State.Copying (fun s p => s.modBr p (fun b => { b with zone := zoneOf z p }))
    (fun _ p ht => ht.modBr p (fun b => { b with zone := zoneOf z p }) (fun _ hx => hx)) _ _ h

/-- The derivation of every guard ends the copying (R8, R9). -/
theorem derive (h : s.Copying) : State.Good true (s.deriveGuards Config.positions) := by
  have hk : ∀ (s : State) (p : Position), s.Copying → (s.deriveGuard p).Copying := fun s p h => modBr p _ (fun _ hx => hx) h
  have h1 : (s.deriveGuards Config.positions).Copying := forEach_keeps _ _ hk _ _ h
  have h2 := forEach_each State.Copying (fun p t => (t.br p).Fit) State.deriveGuard hk
    (fun s p h => ?_) (fun s p q h hq => ?_) Config.positions s h
  · obtain ⟨z, g1, g2, g3, g4, g5, g6, g7, g8, g9⟩ := h1
    refine ⟨⟨z, g1, g2, g3, ⟨fun b hb => ?_, g5, g6, g7, g8⟩⟩, g9⟩
    obtain ⟨i, hi, rfl⟩ := List.getElem_of_mem hb
    have hm := h2 i (by simpa [Config.positions] using z.branches ▸ hi)
    have : (State.forEach s Config.positions State.deriveGuard).br i =
        (s.deriveGuards Config.positions).branches[i] := by
      show (s.deriveGuards Config.positions).branches.getD i Branch.reset = _
      rw [List.getD_eq_getElem?_getD, List.getElem?_eq_getElem hi]; rfl
    exact this ▸ hm
  · by_cases hp : p < s.branches.length
    · show ((s.modBr p _).br p).Fit
      rw [modBr_br_self _ _ _ hp]
      have hx : (s.br p).limits.Fit ∧ (s.br p).MetersAgree := by
        unfold State.br
        rw [List.getD_eq_getElem?_getD, List.getElem?_eq_getElem hp]
        exact h.limits _ (List.getElem_mem hp)
      refine ⟨hx.1, ?_, hx.2⟩
      · unfold Branch.ceilingUnder; split
        · exact Or.inr rfl
        · exact Or.inl rfl
    · show ((s.modBr p _).br p).Fit
      unfold State.br State.modBr
      rw [List.getD_eq_getElem?_getD, List.getElem?_eq_none (by simpa using hp)]
      exact reset_fit
  · by_cases e : p = q
    · subst e
      by_cases hp : p < s.branches.length
      · show ((s.modBr p _).br p).Fit
        rw [modBr_br_self _ _ _ hp]
        refine ⟨hq.1, ?_, hq.2.2⟩
        unfold Branch.ceilingUnder; split
        · exact Or.inr rfl
        · exact Or.inl rfl
      · show ((s.modBr p _).br p).Fit
        unfold State.br State.modBr
        rw [List.getD_eq_getElem?_getD, List.getElem?_eq_none (by simpa using hp)]
        exact reset_fit
    · show ((s.modBr p _).br q).Fit
      rw [modBr_br_ne _ _ e]; exact hq

end State.Copying

/-- Steps 1 to 3 of an apply (R58). -/
theorem copyPolicy_good {s : State} (h : State.Good true s) (he : s.pol.staged.error = none) :
    State.Good true s.copyPolicy := by
  have hf := fit_of_no_error he
  have h0 : State.Copying { s with pol.active := s.pol.staged, pol.dirty := false } :=
    have z := h.shape.sized
    ⟨⟨z.branches, z.actuators, z.channels, z.cases, z.slots, z.requesters, z.imageA, z.imageB, z.saving⟩,
      h.shape.inbound, h.shape.commands, h.shape.counter, fun b hb => ⟨(h.shape.fit.branches b hb).1, (h.shape.fit.branches b hb).2.2⟩, hf,
      h.shape.fit.imageA, h.shape.fit.imageB, h.shape.fit.saving, h.sound.of_same rfl rfl⟩
  have h1 : State.Copying (State.forEach { s with pol.active := s.pol.staged, pol.dirty := false } Config.positions
      State.copyLimits) :=
    forEach_keeps_mem State.Copying State.copyLimits _ _ (fun t p hp ht =>
      ht.modBr p _ (fun x hx => ⟨ht.active p (by simpa [Config.positions] using hp), hx.2⟩)) h0
  unfold State.copyPolicy; dsimp only
  revert h1
  generalize State.forEach _ Config.positions State.copyLimits = u
  intro h1
  refine State.Copying.derive (State.Copying.zones _ (State.Copying.pol _ ?_ h1))
  rfl

namespace State.Good

variable {g : Bool} {s : State}

theorem reage (b : State) (h : Good g s) : Good g (s.reage b) := by
  unfold State.reage; split
  · dsimp only; split
    · exact arb _ h
    · exact arb _ h
  · exact h

theorem recurve (b : State) (p : Position) (h : Good g s) : Good g (s.recurve b p) := by
  unfold State.recurve; split
  · have h1 := h.onward (Onward.cancelTrim p .policyChanged)
    dsimp only; split
    · exact h1.onward (Onward.handOver _)
    · exact (h1.modBr p (fun b => { b with driveChanged := true }) (fun _ hx => hx)).unsettle p _
  · exact h

theorem rehall (b : State) (h : Good g s) : Good g (s.rehall b) := by
  unfold State.rehall; split
  · exact h.other rfl rfl rfl rfl rfl rfl rfl h.shape.counter rfl rfl (h.sound.of_same rfl rfl)
  · exact h

theorem occupancy (p : Position) (h : Good g s) : Good g (s.occupancy p) := by
  unfold State.occupancy; split
  · exact ((h.modBr p (fun b => { b with state := .vacant }) (fun _ hx => hx)).onward
      (Onward.clearArbiterFields p)).shutBranch p
  · exact (((h.modBr p (fun b => { b with
      state := .active, request := b.limits.entryRequest, controlTarget := some 0 }) (fun _ hx => hx)).takeStamp p)).onward
      (Onward.returnRule p)
  · exact h

end State.Good

/-- An apply of a policy without errors (R58). -/
theorem applyPolicy_good {s : State} (h : State.Good true s) (he : s.pol.staged.error = none) :
    State.Good true s.applyPolicy := by
  unfold State.applyPolicy; dsimp only
  exact State.Good.pass _ _ (State.Good.each _ (State.Good.rehall s (State.Good.each _ (State.Good.reage s
    (copyPolicy_good h he)) (fun _ p h => h.recurve s p))) (fun _ p h => h.occupancy p))

theorem applyPolicyBlock_keeps : Block.Keeps applyPolicyBlock := by
  intro s h; unfold applyPolicyBlock; split
  · exact h.loose
  · split
    · exact State.Good.loose (State.Good.staged _ rfl h)
    · rename_i he
      dsimp only
      have h1 := applyPolicy_good h he
      revert h1
      generalize s.applyPolicy = u
      intro h1
      exact State.Good.loose (State.Good.notify _ (State.Good.staged _ rfl h1))

/-! ### Maintenance and valve service -/

theorem enterMaintenanceBlock_keeps (p : Position) : Block.Keeps (enterMaintenanceBlock p) := by
  intro s h; unfold enterMaintenanceBlock; repeat' split
  · exact h.loose
  · exact h.loose
  · have h1 := (h.modBr p (fun b => { b with state := .maintenance }) (fun _ hx => hx)).onward
      (State.Onward.clearArbiterFields p)
    exact (((h1.shutBranch p).setMaint p true).pass _ _).loose

theorem leaveMaintenance_good {g : Bool} {s : State} (p : Position) (h : State.Good g s) :
    State.Good g (s.leaveMaintenance p) := by
  have h1 := ((h.clearDraw p).setMaint p false).endClosing p
  unfold State.leaveMaintenance; dsimp only; split
  · exact ((h1.modBr p (fun b => { b with state := .active, request := b.limits.entryRequest })
      (fun _ hx => hx)).takeStamp p).onward (fun h => State.Onward.returnRule _ (State.Onward.followCurve _ h))
  · exact (h1.modBr p (fun b => { b with state := .vacant }) (fun _ hx => hx)).shutBranch p

theorem leaveMaintenanceBlock_keeps (p : Position) : Block.Keeps (leaveMaintenanceBlock p) := by
  intro s h; unfold leaveMaintenanceBlock; repeat' split
  · exact h.loose
  · exact h.loose
  · exact h.loose
  · exact ((leaveMaintenance_good p h).pass _ _).loose

theorem trimOnceBlock_keeps (c : Cmd) (p : Position) : Block.Keeps (trimOnceBlock c p) := by
  intro s h; unfold trimOnceBlock; repeat' split
  · exact h.loose
  · exact h.loose
  · exact h.loose
  · exact (((h.recordLong (.trim p) c).modBr p (fun b => { b with trim := some ⟨c.src, c.tag, 0⟩ })
      (fun _ hx => hx)).unsettle p .trim).loose

theorem serviceMoveBlock_keeps (c : Cmd) (a q : Nat) : Block.Keeps (serviceMoveBlock c a q) := by
  intro s h; unfold serviceMoveBlock; repeat' split
  all_goals (try simp only [refuses_fst])
  all_goals first
    | with_reducible exact h.loose
    | skip
  rename_i p _ _ _ _
  refine State.Good.loose (g := true) ?_
  have h1 := (h.recordLong .service c).endClosing p
  unfold State.startService; dsimp only
  refine State.Good.placeSvc _ _ _ (State.Good.busOnly _ rfl id ?_)
  split
  · exact h1.setDraw p
  · exact h1

theorem curveVerifyBlock_keeps (c : Cmd) (p : Position) : Block.Keeps (curveVerifyBlock c p) := by
  intro s h; unfold curveVerifyBlock; repeat' split
  all_goals (try simp only [refuses_fst])
  all_goals first
    | with_reducible exact h.loose
    | skip
  have h1 : State.Good true (State.mk .. : State) := (h.recordLong .verify c).busOnly
    { (s.recordLong .verify c).bus with verify := (s.recordLong .verify c).newVerify p } rfl id
  exact ((h1.setDraw p).placeSvc _ _ _).loose

theorem busClearBlock_keeps : Block.Keeps busClearBlock := by
  intro s h; unfold busClearBlock; split
  · exact h.loose
  · exact h.busClear

/-! ### Drip sense, drills, isolation -/

theorem maskBlock_keeps (c : ChannelNo) : Block.Keeps (maskBlock c) := by
  intro s h; unfold maskBlock; repeat' split
  all_goals (try simp only [refuses_fst])
  all_goals first
    | with_reducible exact h.loose
    | exact (h.maskChannel c).loose

theorem unmaskBlock_keeps (c : ChannelNo) : Block.Keeps (unmaskBlock c) := by
  intro s h; unfold unmaskBlock; repeat' split
  all_goals (try simp only [refuses_fst])
  all_goals first
    | with_reducible exact h.loose
    | exact (h.unmaskChannel c).loose

theorem startDrillBlock_keeps (c : ChannelNo) (n : Nat) : Block.Keeps (startDrillBlock c n) := by
  intro s h; unfold startDrillBlock; repeat' split
  all_goals (try simp only [refuses_fst])
  all_goals first
    | with_reducible exact h.loose
    | exact (h.modChan c _).loose

theorem cancelDrillJob_good {g : Bool} {s : State} (h : State.Good g s) : State.Good g s.cancelDrillJob := by
  unfold State.cancelDrillJob; split
  · exact h
  · exact h.onward (fun h => State.Onward.drillStatus _ (State.Onward.drillRest _ (State.Onward.dropJob _ h)))

theorem cancelDrillBlock_keeps : Block.Keeps cancelDrillBlock := by
  intro s h; unfold cancelDrillBlock; split
  · exact h.loose
  · dsimp only
    exact (State.Good.cancelCases (cancelDrillJob_good h).cancelInjections).loose

theorem ackWarning_good {g : Bool} {s : State} (j : Job) (p : Position) (b : Bool) (h : State.Good g s) :
    State.Good g (s.ackWarning j p b) := by
  refine h.onward (fun h => ?_)
  have h1 : State.Onward g s ((s.modJob j.id (fun j => j.modTarget p (fun t => { t with warning := .acked }))).recordAck
      j p) := by
    unfold State.recordAck; split
    · exact State.Onward.iso _ rfl (State.Onward.modJob _ _ h)
    · exact State.Onward.modJob _ _ h
  unfold State.ackWarning; dsimp only; split
  · exact h1
  · split
    · exact State.Onward.endNotify _ h1
    · exact h1

theorem warnAckOn_keeps (p : Position) : Block.Keeps (warnAckOn p) := by
  intro s h; unfold warnAckOn; repeat' split
  all_goals first
    | with_reducible exact h.loose
    | exact (ackWarning_good _ _ _ h).loose

theorem releaseBranch_good {g : Bool} {s : State} (p : Position) (h : State.Good g s) : State.Good g (s.releaseBranch p) :=
  (((h.modBr p (fun b => { b with state := .maintenance, job := 0, latched := false, maint := true })
    (fun _ hx => hx)).onward (fun h => State.Onward.unreserve _ (State.Onward.unreserve _
      (State.Onward.holdIfChanged s h))))).shutBranch p

theorem releaseIsolationBlock_keeps (p : Position) : Block.Keeps (releaseIsolationBlock p) := by
  intro s h; unfold releaseIsolationBlock; repeat' split
  all_goals (try simp only [refuses_fst])
  all_goals first
    | with_reducible exact h.loose
    | skip
  exact (((((releaseBranch_good p h).pass _ _).onward (State.Onward.modJob _ _))).removeIfEmpty _).loose

theorem releaseTrunkBlock_keeps : Block.Keeps releaseTrunkBlock := by
  intro s h; unfold releaseTrunkBlock; repeat' split
  all_goals (try simp only [refuses_fst])
  all_goals first
    | with_reducible exact h.loose
    | skip
  refine State.Good.loose (g := true) (h.onward (fun h => ?_))
  have h1 := State.Onward.holdIfChanged s (State.Onward.store { s.store with trunkLatch := false } rfl rfl rfl rfl rfl h)
  exact State.Onward.removeIfEmpty _ (State.Onward.placeIso _ _ _ (State.Onward.placeIso _ _ _
    (State.Onward.unreserve _ (State.Onward.unreserve _ (State.Onward.modJob _ _ h1)))))

/-! ### Link commands -/

theorem setBound_good {g : Bool} {s : State} (p : Option Position) (i : Option Nat) (h : State.Good g s) :
    State.Good g (s.setBound p i) := by
  unfold State.setBound; split
  · exact h
  · exact h.modBr _ (fun b => { b with boundTo := i }) (fun _ hx => hx)

theorem bindBlock_keeps (a : Addr) (r : Nat) (b : Option Nat) (m : Option (BitVec 16)) : Block.Keeps (bindBlock a r b m) := by
  intro s h; unfold bindBlock; repeat' split
  all_goals (try simp only [refuses_fst])
  all_goals first
    | with_reducible exact h.loose
    | exact (setBound_good _ _ (setBound_good _ _ (h.setRequester _ _))).loose

theorem unbindBlock_keeps (i : Nat) : Block.Keeps (unbindBlock i) := by
  intro s h; unfold unbindBlock; repeat' split
  all_goals (try simp only [refuses_fst])
  all_goals first
    | with_reducible exact h.loose
    | exact (setBound_good _ _ (h.setRequester _ _)).loose

theorem modSender_good {g : Bool} {s : State} (c : Cmd) (f : Requester → Requester) (h : State.Good g s) :
    State.Good g (s.modSender c f) := by
  unfold State.modSender; split
  · exact h
  · exact h.setRequester _ _

theorem setNoticesBlock_keeps (c : Cmd) (m : BitVec 16) : Block.Keeps (setNoticesBlock c m) := by
  intro s h; unfold setNoticesBlock; split
  · exact h.loose
  · exact (modSender_good _ _ h).loose

theorem setTelemetryBlock_keeps (c : Cmd) (n k : Nat) : Block.Keeps (setTelemetryBlock c n k) := by
  intro s h; unfold setTelemetryBlock; repeat' split
  · exact h.loose
  · exact h.loose
  · exact (modSender_good _ _ h).loose

theorem restartBlock_keeps : Block.Keeps restartBlock := fun s h =>
  State.Good.loose (g := true) (State.Good.other (t := { s with link.restarting := true }) h rfl rfl rfl rfl rfl rfl rfl
    h.shape.counter rfl rfl (h.sound.of_same rfl rfl))

/-- A block that changes nothing, as every read's is (R177). -/
theorem unchanged_keeps {run : Block} (h : ∀ s, (run s).1 = s) : Block.Keeps run := fun s hs => (h s).symm ▸ hs.loose

end Sys2Proof.Machine
end

