-- ==== Sys2Proof/Laws/Ledger.lean ====
section
/-! SUPPORT. The first law along an event: what each operation leaves of the grants, the draws, the job table and the work of the event, and how an event that changes the budget, the quarantine or a draw comes to its pass: one lemma per operation. -/

namespace Sys2Proof.Machine

-- One declaration after another: checked side by side they wait for one another on more threads than a memory limit allows.
set_option Elab.async false

/-! ### Sums -/

/-- Adding up from a start is the start and the sum. -/
theorem foldl_sum {α : Type} (f : α → Nat) : ∀ (l : List α) (n : Nat), l.foldl (fun n a => n + f a) n = n + sumOf f l
  | [], n => rfl
  | a :: l, n => by
    have h1 := foldl_sum f l (n + f a)
    have h2 := foldl_sum f l (0 + f a)
    show l.foldl _ (n + f a) = n + l.foldl _ (0 + f a)
    rw [h1, h2]; omega

/-- The sum over a list with a first element. -/
theorem sumOf_cons {α : Type} (f : α → Nat) (a : α) (l : List α) : sumOf f (a :: l) = f a + sumOf f l := by
  show l.foldl _ (0 + f a) = _
  rw [foldl_sum]; omega

/-- A sum does not grow when a change of one element does not. -/
theorem sumOf_modify_le {α : Type} (f : α → Nat) (g : α → α) (h : ∀ a, f (g a) ≤ f a) :
    ∀ (l : List α) (i : Nat), sumOf f (l.modify i g) ≤ sumOf f l
  | [], _ => by simp
  | a :: l, 0 => by
    have := h a
    simp only [List.modify_zero_cons, sumOf_cons]; omega
  | a :: l, i + 1 => by
    have := sumOf_modify_le f g h l i
    simp only [List.modify_succ_cons, sumOf_cons]; omega

/-- A sum is read through a map. -/
theorem sumOf_map {α β : Type} (f : β → Nat) (g : α → β) : ∀ l : List α, sumOf f (l.map g) = sumOf (fun a => f (g a)) l
  | [] => rfl
  | a :: l => by rw [List.map_cons, sumOf_cons, sumOf_cons, sumOf_map f g l]

/-- A sum does not grow when no summand does. -/
theorem sumOf_le {α : Type} (f g : α → Nat) : ∀ l : List α, (∀ a ∈ l, f a ≤ g a) → sumOf f l ≤ sumOf g l
  | [], _ => Nat.le_refl _
  | a :: l, h => by
    have h1 := h a List.mem_cons_self
    have h2 := sumOf_le f g l (fun x hx => h x (List.mem_cons_of_mem a hx))
    rw [sumOf_cons, sumOf_cons]; omega

/-! ### The job table -/

/-- The table has its nine slots, and its jobs are in order. -/
structure State.Tabled (s : State) : Prop where
  slots : s.iso.slots.length = 9
  jobs : s.JobsInOrder

/-- What the job of a slot adds to the quarantined flow (R22). -/
def slotHeld : Option Job → Nat
  | none => 0
  | some j => if j.beforeHold then j.quarantine else 0

/-- The quarantined flow, slot by slot. -/
theorem quarantined_slots (s : State) : s.quarantined = sumOf slotHeld s.iso.slots := by
  unfold State.quarantined State.jobs
  induction s.iso.slots with
  | nil => rfl
  | cons x l ih =>
    rw [sumOf_cons, ← ih]
    cases x with
    | none => simp [slotHeld]
    | some j =>
      rw [show List.filterMap id (some j :: l) = j :: List.filterMap id l from rfl, List.filter_cons]
      split
      · rename_i h; rw [sumOf_cons]; simp [slotHeld, h]
      · rename_i h; simp [slotHeld, h]

/-- Jobs and quarantine are read from the slots. -/
theorem State.Tabled.of_slots {s t : State} (e : t.iso.slots = s.iso.slots) (h : s.Tabled) :
    t.Tabled ∧ t.quarantined ≤ s.quarantined := by
  have ej : t.jobs = s.jobs := by unfold State.jobs; rw [e]
  have eq : t.quarantined = s.quarantined := by unfold State.quarantined; rw [ej]
  exact ⟨⟨e ▸ h.slots, ⟨ej ▸ h.jobs.ids, ej ▸ h.jobs.released⟩⟩, Nat.le_of_eq eq⟩

/-- The ids of the jobs of a list of slots. -/
def slotIds (l : List (Option Job)) : List JobId := (l.filterMap id).map (fun j => j.id)

/-- The ids after a slot is written. -/
theorem slotIds_set (j : Job) : ∀ (l : List (Option Job)) (k : Nat), (slotIds l).Nodup → j.id ∉ slotIds l →
    (slotIds (l.set k (some j))).Nodup ∧ (∀ i ∈ slotIds (l.set k (some j)), i = j.id ∨ i ∈ slotIds l)
  | [], _, h, _ => ⟨h, fun _ hi => Or.inr hi⟩
  | x :: l, 0, h, hj => by
    cases x with
    | none => exact ⟨List.nodup_cons.2 ⟨hj, h⟩, fun i hi => List.mem_cons.1 hi⟩
    | some y =>
      refine ⟨List.nodup_cons.2 ⟨fun e => hj (List.mem_cons_of_mem _ e), (List.nodup_cons.1 h).2⟩, fun i hi => ?_⟩
      exact (List.mem_cons.1 hi).imp_right (List.mem_cons_of_mem _)
  | x :: l, k + 1, h, hj => by
    cases x with
    | none => exact slotIds_set j l k h hj
    | some y =>
      have h1 := List.nodup_cons.1 h
      obtain ⟨g1, g2⟩ := slotIds_set j l k h1.2 (fun e => hj (List.mem_cons_of_mem _ e))
      refine ⟨List.nodup_cons.2 ⟨fun e => ?_, g1⟩, fun i hi => ?_⟩
      · rcases g2 _ e with e | e
        · exact hj (e ▸ List.mem_cons_self)
        · exact h1.1 e
      · rcases List.mem_cons.1 hi with e | e
        · exact Or.inr (e ▸ List.mem_cons_self)
        · exact (g2 i e).imp_right (List.mem_cons_of_mem _)

/-- The jobs after a slot is written are the new one and old ones. -/
theorem jobs_set (j : Job) (l : List (Option Job)) (k : Nat) :
    ∀ x ∈ (l.set k (some j)).filterMap id, x = j ∨ x ∈ l.filterMap id := by
  intro x hx
  obtain ⟨o, ho, e⟩ := List.mem_filterMap.1 hx
  rcases List.mem_or_eq_of_mem_set ho with h | h
  · exact Or.inr (List.mem_filterMap.2 ⟨o, h, e⟩)
  · rw [h] at e; exact Or.inl (Option.some.inj e).symm

/-- A list with no element twice, all of whose elements stand in another, is no longer than it. -/
theorem nodup_length_le : ∀ (l m : List Nat), l.Nodup → (∀ a ∈ l, a ∈ m) → l.length ≤ m.length
  | [], _, _, _ => Nat.zero_le _
  | a :: l, m, h, hm => by
    obtain ⟨h1, h2⟩ := List.nodup_cons.1 h
    have ha : a ∈ m := hm a List.mem_cons_self
    have := nodup_length_le l (m.erase a) h2 (fun b hb =>
      (List.mem_erase_of_ne (fun e : b = a => h1 (e ▸ hb))).2 (hm b (List.mem_cons_of_mem a hb)))
    have hl := List.length_erase_of_mem ha
    have : 0 < m.length := List.length_pos_of_mem ha
    simp only [List.length_cons]; omega

/-- A table has at most as many jobs as slots. -/
theorem State.Tabled.jobs_length {s : State} (h : s.Tabled) : s.jobs.length ≤ 9 :=
  h.slots ▸ List.length_filterMap_le id s.iso.slots

/-- The 255 ids that follow a last one are all different. -/
theorem shifted_ne (n a b : Nat) (ha : a < 255) (hb : b < 255) (h : a ≠ b) : (n + a) % 255 + 1 ≠ (n + b) % 255 + 1 := by
  omega

/-- No job holds the id that is issued next (R142). -/
theorem issueId_fresh {s : State} (h : s.Tabled) : ∀ j ∈ s.jobs, j.id ≠ s.issueId := by
  intro j hj e
  unfold State.issueId at e
  cases hf : ((List.range 255).map (fun k => (s.iso.lastId + k) % 255 + 1)).find?
      (fun i => !s.jobs.any (fun j => j.id = i)) with
  | some i =>
    rw [hf] at e
    have := List.find?_some hf
    simp only [Bool.not_eq_true', List.any_eq_false, decide_eq_true_eq] at this
    exact this j hj e
  | none =>
    have hall := List.find?_eq_none.1 hf
    have hn : ((List.range 255).map (fun k => (s.iso.lastId + k) % 255 + 1)).Nodup := by
      refine List.Pairwise.map _ (fun a b hab => ?_) (List.Pairwise.and_mem.1 List.nodup_range)
      obtain ⟨ha, hb, hne⟩ := hab
      have := List.mem_range.1 ha
      have := List.mem_range.1 hb
      exact fun e => absurd e (shifted_ne s.iso.lastId a b ‹_› ‹_› hne)
    have := nodup_length_le _ (s.jobs.map (fun j => j.id)) hn (fun i hi => by
      have := hall i hi
      simp only [Bool.not_eq_true', Bool.not_eq_false, List.any_eq_true, decide_eq_true_eq] at this
      obtain ⟨k, hk, e⟩ := this
      exact List.mem_map.2 ⟨k, hk, e⟩)
    simp only [List.length_map, List.length_range] at this
    have := h.jobs_length
    omega

/-- The jobs that stay when those with an id leave. -/
theorem dropJob_jobs (s : State) (i : JobId) : (s.dropJob i).jobs = s.jobs.filter (fun j => j.id ≠ i) := by
  unfold State.jobs State.dropJob
  dsimp only
  induction s.iso.slots with
  | nil => rfl
  | cons x l ih =>
    rw [List.map_cons]
    cases x with
    | none => exact ih
    | some j =>
      dsimp only
      rw [show List.filterMap id (some j :: l) = j :: List.filterMap id l from rfl, List.filter_cons]
      by_cases e : j.id = i
      · simp only [e, if_true, ne_eq, not_true, decide_false, Bool.false_eq_true, if_false]; exact ih
      · simp only [e, if_false, ne_eq, not_false_iff, decide_true, if_true]
        exact congrArg (j :: ·) ih

/-- A job leaves the table in order. -/
theorem State.Tabled.dropJob {s : State} (i : JobId) (h : s.Tabled) :
    (s.dropJob i).Tabled ∧ (s.dropJob i).quarantined ≤ s.quarantined := by
  refine ⟨⟨(List.length_map ..).trans h.slots, ⟨?_, fun j hj => ?_⟩⟩, ?_⟩
  · rw [dropJob_jobs]
    exact List.Nodup.sublist (List.Sublist.map _ List.filter_sublist) h.jobs.ids
  · rw [dropJob_jobs] at hj
    exact h.jobs.released j (List.mem_filter.1 hj).1
  · rw [quarantined_slots, quarantined_slots]
    show sumOf slotHeld (s.iso.slots.map _) ≤ _
    rw [sumOf_map]
    refine sumOf_le _ _ _ (fun x _ => ?_)
    cases x with
    | none => exact Nat.le_refl _
    | some j =>
      dsimp only; split
      · exact Nat.zero_le _
      · exact Nat.le_refl _

/-- A job whose id no other holds is put into a slot. -/
theorem State.Tabled.setSlot {s : State} (k : Nat) (j : Job) (hid : ∀ x ∈ s.jobs, x.id ≠ j.id)
    (hr : j.drill = false → j.beforeHold = false → j.quarantine = 0) (h : s.Tabled) : (s.setSlot k (some j)).Tabled := by
  have hj : j.id ∉ slotIds s.iso.slots := fun e => by
    obtain ⟨x, hx, e⟩ := List.mem_map.1 e
    exact hid x hx e
  refine ⟨List.length_set.trans h.slots, ⟨(slotIds_set j s.iso.slots k h.jobs.ids hj).1, fun x hx => ?_⟩⟩
  rcases jobs_set j s.iso.slots k x hx with e | e
  · exact e ▸ hr
  · exact h.jobs.released x e

/-- What a written slot adds to the quarantined flow. -/
theorem setSlot_quarantined (s : State) (k : Nat) (j : Job) (hq : slotHeld (some j) = 0) :
    (s.setSlot k (some j)).quarantined ≤ s.quarantined := by
  rw [quarantined_slots, quarantined_slots]
  show sumOf slotHeld (s.iso.slots.set k (some j)) ≤ _
  generalize s.iso.slots = l
  induction l generalizing k with
  | nil => exact Nat.le_refl _
  | cons x l ih =>
    cases k with
    | zero => rw [List.set_cons_zero, sumOf_cons, sumOf_cons, hq]; omega
    | succ k => have := ih k; rw [List.set_cons_succ, sumOf_cons, sumOf_cons]; omega

/-! ### What an operation leaves -/

/-- From `b` to `s` the job table keeps its order and holds no more quarantine, the grants, the supply record, the active
policy and what the event has asked for stay as they are, and no draw grows; where `m` asks for it, every report made is
mild. -/
structure State.Keeps (m : Bool) (b s : State) : Prop where
  table : b.Tabled → s.Tabled ∧ s.quarantined ≤ b.quarantined
  grants : s.branches.map (fun x => x.grant) = b.branches.map (fun x => x.grant)
  draws : s.draws ≤ b.draws
  supply : s.arb.supply = b.arb.supply
  policy : s.pol.active = b.pol.active
  due : s.work.due = b.work.due
  ran : s.work.ran = b.work.ran
  after : s.work.after = b.work.after
  mild : m = true → (∀ r ∈ b.bus.reports, r.Mild) → ∀ r ∈ s.bus.reports, r.Mild

namespace State.Keeps

variable {m : Bool} {b s : State}

theorem refl (m : Bool) (s : State) : Keeps m s s :=
  ⟨fun h => ⟨h, Nat.le_refl _⟩, rfl, Nat.le_refl _, rfl, rfl, rfl, rfl, rfl, fun _ h => h⟩

/-- The table is read from the slots. -/
theorem slots_table {t : State} (e : t.iso.slots = s.iso.slots) (h : s.Tabled ∧ s.quarantined ≤ b.quarantined) :
    t.Tabled ∧ t.quarantined ≤ b.quarantined :=
  ⟨(h.1.of_slots e).1, Nat.le_trans (h.1.of_slots e).2 h.2⟩

theorem trans {t : State} (h : Keeps m b s) (k : Keeps m s t) : Keeps m b t :=
  ⟨fun hb => ⟨(k.table (h.table hb).1).1, Nat.le_trans (k.table (h.table hb).1).2 (h.table hb).2⟩, k.grants.trans h.grants, Nat.le_trans k.draws h.draws, k.supply.trans h.supply,
    k.policy.trans h.policy, k.due.trans h.due, k.ran.trans h.ran, k.after.trans h.after,
    fun e hb => k.mild e (h.mild e hb)⟩

/-- Without regard to the reports. -/
theorem loose (h : Keeps m b s) : Keeps false b s :=
  ⟨h.table, h.grants, h.draws, h.supply, h.policy, h.due, h.ran, h.after, fun e => nomatch e⟩

/-- What touches none of it. -/
theorem other {t : State} (h : Keeps m b s) (hs : t.iso.slots = s.iso.slots := by rfl)
    (hb : t.branches = s.branches := by rfl) (ha : t.arb.supply = s.arb.supply := by rfl)
    (hp : t.pol.active = s.pol.active := by rfl) (hd : t.work.due = s.work.due := by rfl)
    (hn : t.work.ran = s.work.ran := by rfl) (hf : t.work.after = s.work.after := by rfl)
    (hr : t.bus.reports = s.bus.reports := by rfl) : Keeps m b t :=
  have hw : t.draws = s.draws := by unfold State.draws; rw [hb]
  ⟨fun hk => slots_table hs (h.table hk), (congrArg _ hb).trans h.grants, hw ▸ h.draws,
    ha.trans h.supply, hp.trans h.policy, hd.trans h.due, hn.trans h.ran, hf.trans h.after, fun e hb => hr ▸ h.mild e hb⟩

theorem each {α : Type} {f : State → α → State} (l : List α) (h : Keeps m b s)
    (hf : ∀ s a, Keeps m b s → Keeps m b (f s a)) : Keeps m b (s.forEach l f) := forEach_keeps _ f hf l s h

/-- A change of a branch record that leaves its grant and does not raise its draw. -/
theorem modBr (p : Position) (f : Branch → Branch) (h : Keeps m b s)
    (hf : ∀ x, (f x).grant = x.grant ∧ (f x).draw ≤ x.draw := by exact fun _ => ⟨rfl, Nat.le_refl _⟩) :
    Keeps m b (s.modBr p f) :=
  ⟨fun e => slots_table (s := s) rfl (h.table e), (map_modify_same _ f (fun x => (hf x).1) _ _).trans h.grants,
    Nat.le_trans (sumOf_modify_le _ f (fun x => (hf x).2) _ _) h.draws, h.supply, h.policy, h.due, h.ran, h.after, h.mild⟩

/-! ### Link -/

theorem notify (n : Notice) (h : Keeps m b s) : Keeps m b (s.notify n) := h.other
theorem arbiterSpeaksLast (h : Keeps m b s) : Keeps m b s.arbiterSpeaksLast := h.other

theorem complete (k : LongKind) (st : Status) (x : CompletionBody) (h : Keeps m b s) : Keeps m b (s.complete k st x) := by
  unfold State.complete; split
  · exact h
  · exact h.other

theorem countFor (is : List Nat) (h : Keeps m b s) : Keeps m b (s.countFor is) := each _ h (fun _ _ h => h.other)

theorem hand (x : HeldNotice) (h : Keeps m b s) : Keeps m b (s.hand x) := by
  unfold State.hand State.enqueue; repeat' split
  · exact h
  · exact h
  · exact countFor _ h.other

theorem transmit (h : Keeps m b s) : Keeps m b s.transmit := by
  unfold State.transmit; repeat' split
  all_goals exact h.other

theorem reply (w : Answering) (c : Cmd) (n : Nat) (a : Answer) (h : Keeps m b s) : Keeps m b (s.reply w c n a) := by
  unfold State.reply; split
  · exact h.other
  · exact h

/-! ### Bus -/

theorem report (c : Client) (a : ActuatorNo) (k : ReportKind) (h : Keeps m b s)
    (hk : m = true → k = .superseded ∨ k = .refusedReserved) : Keeps m b (s.report c a k) := by
  unfold State.report; split
  · exact h
  · refine ⟨fun e => slots_table (s := s) rfl (h.table e), h.grants, h.draws, h.supply, h.policy, h.due, h.ran, h.after, fun e hb r hr => ?_⟩
    rcases List.mem_append.1 hr with hr | hr
    · exact h.mild e hb r hr
    · cases List.mem_singleton.1 hr; exact hk e

theorem superseded (c : Client) (a : ActuatorNo) (h : Keeps m b s) : Keeps m b (s.report c a .superseded) :=
  report _ _ _ h (fun _ => Or.inl rfl)

theorem refused (c : Client) (a : ActuatorNo) (h : Keeps m b s) : Keeps m b (s.report c a .refusedReserved) :=
  report _ _ _ h (fun _ => Or.inr rfl)

theorem sendRequest (a : ActuatorNo) (r : Request) (n : Nat) (h : Keeps m b s) : Keeps m b (s.sendRequest a r n) := h.other

theorem supersede (a : ActuatorNo) (h : Keeps m b s) : Keeps m b (s.supersede a) := by
  unfold State.supersede; split
  · exact h
  · exact superseded _ _ h

theorem sendMove (c : Claim) (h : Keeps m b s) : Keeps m b (s.sendMove c) := (supersede c.actuator h).other

theorem grantClaim (h : Keeps m b s) : Keeps m b s.grantClaim := by
  unfold State.grantClaim; split
  all_goals first
    | exact sendRequest _ _ _ h.other
    | exact sendMove _ h.other
    | exact h

theorem grantLine (h : Keeps m b s) : Keeps m b s.grantLine := by
  unfold State.grantLine State.grantClear; repeat' split
  all_goals first
    | exact sendRequest _ _ _ h
    | exact grantClaim h
    | exact grantClaim h.other
    | exact h.other

theorem placeIso (a : ActuatorNo) (t : Nat) (c : Client) (h : Keeps m b s) : Keeps m b (s.placeIso a t c) := grantLine h.other

theorem placeFlow (a : ActuatorNo) (t : Nat) (h : Keeps m b s) : Keeps m b (s.placeFlow a t) := by
  unfold State.placeFlow; split
  · exact refused _ _ h
  · exact grantLine h.other

theorem placeSvc (a : ActuatorNo) (t : Nat) (c : Client) (h : Keeps m b s) : Keeps m b (s.placeSvc a t c) := by
  unfold State.placeSvc; split
  · exact refused _ _ h
  · exact grantLine h.other

theorem placePoll (a : ActuatorNo) (v : Bool) (h : Keeps m b s) : Keeps m b (s.placePoll a v) := by
  unfold State.placePoll; split
  · exact h
  · exact grantLine h.other

theorem reserve (i : JobId) (a : ActuatorNo) (h : Keeps m b s) : Keeps m b (s.reserve i a) := by
  unfold State.reserve; dsimp only
  exact each _ h.other (fun _ _ h => refused _ _ h)

theorem unreserve (a : ActuatorNo) (h : Keeps m b s) : Keeps m b (s.unreserve a) := h.other
theorem unreserveAll (i : JobId) (h : Keeps m b s) : Keeps m b (s.unreserveAll i) := h.other
theorem dismiss (c : Client) (h : Keeps m b s) : Keeps m b (s.dismiss c) := h.other

theorem markFault (p : Position) (x : FaultMember) (v : Option MeterSide) (h : Keeps m b s) :
    Keeps m b (s.markFault p x v) := by
  unfold State.markFault; repeat' split
  all_goals first
    | exact h
    | exact notify _ (modBr _ _ h)

theorem recheckValveFault (a : ActuatorNo) (h : Keeps m b s) : Keeps m b (s.recheckValveFault a) := by
  unfold State.recheckValveFault; repeat' split
  all_goals first
    | exact h
    | exact modBr _ _ h

theorem clearReturnOpen (a : ActuatorNo) (h : Keeps m b s) : Keeps m b (s.clearReturnOpen a) := by
  unfold State.clearReturnOpen; repeat' split
  all_goals first
    | exact h
    | exact modBr _ _ h

theorem endMove (a : ActuatorNo) (k : ReportKind) (h : Keeps m b s) : Keeps false b (s.endMove a k) := by
  unfold State.endMove; split
  · exact h.loose
  · exact report _ _ _ h.loose.other (fun e => nomatch e)

theorem failMove (a : ActuatorNo) (f : FaultCode) (h : Keeps m b s) : Keeps false b (s.failMove a f) := by
  unfold State.failMove; split
  · exact endMove _ _ (m := m) h.other
  · exact h.loose

theorem completeMove (a : ActuatorNo) (h : Keeps m b s) : Keeps false b (s.completeMove a) := by
  unfold State.completeMove; split
  · exact endMove _ _ (clearReturnOpen a (recheckValveFault a (m := m) h.other))
  · exact h.loose

theorem endService (st : Status) (x : CompletionBody) (h : Keeps m b s) : Keeps m b (s.endService st x) := by
  unfold State.endService; split
  · exact (complete _ _ _ h).other
  · exact h

theorem clearDraw (p : Position) (h : Keeps m b s) : Keeps m b (s.clearDraw p) :=
  modBr _ _ h (fun _ => ⟨rfl, Nat.zero_le _⟩)

theorem endVerify (p : Position) (st : VerifyStatus) (v : Bool) (h : Keeps m b s) : Keeps m b (s.endVerify p st v) := by
  unfold State.endVerify; dsimp only
  have h1 : Keeps m b { s with bus.verify := { s.bus.verify with status := st } } := h.other
  have h2 := dismiss .verify (clearDraw p h1)
  refine complete _ _ _ ?_
  split
  · exact placeSvc _ _ _ h2.other
  · exact h2

theorem endClosing (p : Position) (h : Keeps m b s) : Keeps m b (s.endClosing p) := by
  unfold State.endClosing; repeat' split
  all_goals first
    | exact h
    | exact h.other

/-! ### Flow control and arbiter -/

theorem unsettle (p : Position) (c : SettleCause) (h : Keeps m b s) : Keeps m b (s.unsettle p c) := by
  unfold State.unsettle; dsimp only; split
  · exact notify _ (modBr _ _ h)
  · exact modBr _ _ h

theorem returnRule (p : Position) (h : Keeps m b s) : Keeps m b (s.returnRule p) := by
  unfold State.returnRule; split
  · exact h
  · exact placeFlow _ _ h

theorem followCurve (p : Position) (h : Keeps m b s) : Keeps m b (s.followCurve p) := placeFlow _ _ (modBr _ _ h)

theorem actOnDrive (p : Position) (h : Keeps m b s) : Keeps m b (s.actOnDrive p) := by
  unfold State.actOnDrive; split
  · exact returnRule _ (followCurve _ h)
  all_goals first
    | exact h
    | exact modBr _ _ h

theorem handOver (p : Position) (h : Keeps m b s) : Keeps m b (s.handOver p) := actOnDrive _ (unsettle _ _ (modBr _ _ h))

theorem setDrive (p : Position) (d : Nat) (h : Keeps m b s) : Keeps m b (s.setDrive p d) := by
  unfold State.setDrive; split
  · exact h
  · exact handOver _ (modBr _ _ h)

theorem shutValves (p : Position) (h : Keeps m b s) : Keeps m b (s.shutValves p) := placeFlow _ _ (placeFlow _ _ h)

theorem shutBranch (p : Position) (h : Keeps m b s) : Keeps m b (s.shutBranch p) :=
  shutValves _ (modBr _ _ (setDrive _ _ h))

theorem riseRound (v : Branch → Nat) (l : List Position) :
    ∀ x : State × Int, Keeps m b x.1 → Keeps m b (l.foldl (riseStep v) x).1 := by
  induction l with
  | nil => intro x h; exact h
  | cons p l ih =>
    intro x h
    rw [List.foldl_cons]
    refine ih _ ?_
    unfold riseStep; dsimp only; split
    · exact setDrive _ _ h
    · exact h

theorem rises (ps : List Position) (h : Keeps m b s) : Keeps m b (s.rises ps) := by
  unfold State.rises; split
  · exact h
  · exact riseRound _ _ _ (riseRound _ _ _ h)

theorem setRiseWaiting (h : Keeps m b s) : Keeps m b s.setRiseWaiting := each _ h (fun _ _ h => modBr _ _ h)
theorem reexamine (h : Keeps m b s) : Keeps m b s.reexamine := setRiseWaiting (rises _ h)

theorem carryCut (p : Position) (k : PendingCut) (h : Keeps m b s) : Keeps m b (s.carryCut p k) :=
  reexamine (setDrive _ _ (modBr _ _ h))

theorem takeStamp (p : Position) (h : Keeps m b s) : Keeps m b (s.takeStamp p) := by
  have step {s : State} (p : Position) (k n : Nat) (h : Keeps m b s) :
      Keeps m b { s.modBr p (fun x => { x with stamp := some k }) with arb.nextStamp := n } :=
    (modBr p (fun x => { x with stamp := some k }) h).other
  unfold State.takeStamp; dsimp only
  refine step p _ _ ?_
  split
  · exact h
  · exact each _ h.other (fun s p h => step p _ _ h)

theorem cancelTrim (p : Position) (c : TrimAbort) (h : Keeps m b s) : Keeps m b (s.cancelTrim p c) := by
  unfold State.cancelTrim; split
  · exact complete _ _ _ (modBr _ _ h)
  · exact h

theorem clearArbiterFields (p : Position) (h : Keeps m b s) : Keeps m b (s.clearArbiterFields p) :=
  cancelTrim p .leftActive (modBr p _ h)

theorem revokeDraw (p : Position) (h : Keeps m b s) : Keeps m b (s.revokeDraw p) := by
  unfold State.revokeDraw; dsimp only
  refine shutValves _ ?_
  have h1 := clearDraw p h
  repeat' split
  all_goals first
    | exact h1
    | exact endVerify _ _ _ (endService _ _ h1)
    | exact endVerify _ _ _ h1
    | exact endService _ _ h1

/-! ### Store, cases, channels -/

theorem askHoldWrite (h : Keeps m b s) : Keeps m b s.askHoldWrite := by
  unfold State.askHoldWrite; split
  all_goals exact h.other

theorem holdIfChanged (x : State) (h : Keeps m b s) : Keeps m b (s.holdIfChanged x) := by
  unfold State.holdIfChanged; split
  · exact askHoldWrite h
  · exact h

theorem setMaint (p : Position) (v : Bool) (h : Keeps m b s) : Keeps m b (s.setMaint p v) :=
  holdIfChanged _ (modBr _ _ h)

theorem latchTargets (l : List Target) (h : Keeps m b s) : Keeps m b (s.latchTargets l) := each _ h (fun _ _ h => modBr _ _ h)

theorem latch (j : Job) (h : Keeps m b s) : Keeps m b (s.latch j) := by
  unfold State.latch; dsimp only; split
  · exact (latchTargets _ h).other
  · exact latchTargets _ h

theorem latchArrivals (j : Job) (h : Keeps m b s) : Keeps m b (s.latchArrivals j) := holdIfChanged _ (latchTargets _ h).other

theorem deriveGuards (ps : List Position) (h : Keeps m b s) : Keeps m b (s.deriveGuards ps) :=
  each _ h (fun _ _ h => modBr _ _ h)

theorem caseNotice (ev : CaseEvent) (src : CaseSource) (d : Bool) (e : List Evidence) (t : Option Time)
    (r : Option IsoRequest) (h : Keeps m b s) : Keeps m b (s.caseNotice ev src d e t r) := notify _ h

theorem setCase (e : Nat) (c : Option Case) (h : Keeps m b s) : Keeps m b (s.setCase e c) := h.other

/-! ### The job table -/

/-- A change of the jobs with an id that keeps ids and levels, raises no quarantine, and leaves none to a real job it
takes to HOLD. -/
theorem modJobOf (i : JobId) (f : Job → Job) (h : Keeps m b s)
    (hf : s.Tabled → ∀ j ∈ s.jobs, j.id = i → (f j).id = j.id ∧ (f j).drill = j.drill ∧ (f j).quarantine ≤ j.quarantine ∧
      ((f j).drill = false → (f j).beforeHold = false → j.beforeHold = true → (f j).quarantine = 0)) :
    Keeps m b (s.modJob i f) := by
  refine ⟨fun e => ?_, h.grants, h.draws, h.supply, h.policy, h.due, h.ran, h.after, h.mild⟩
  obtain ⟨hs, hq⟩ := h.table e
  have hj : ∀ j ∈ s.jobs, ∀ k, k = (if j.id = i then f j else j) → k.id = j.id ∧ k.drill = j.drill ∧ k.quarantine ≤ j.quarantine ∧
      (k.drill = false → k.beforeHold = false → k.quarantine = 0) := by
    intro j hm k e
    by_cases hi : j.id = i
    · rw [if_pos hi] at e; subst e
      obtain ⟨h1, h2, h3, h4⟩ := hf hs j hm hi
      refine ⟨h1, h2, h3, fun hd hb => ?_⟩
      by_cases hbj : j.beforeHold = true
      · exact h4 hd hb hbj
      · have := hs.jobs.released j hm (h2 ▸ hd) (by simpa using hbj)
        omega
    · rw [if_neg hi] at e; rw [e]
      exact ⟨rfl, rfl, Nat.le_refl _, hs.jobs.released j hm⟩
  have ejobs : (s.modJob i f).jobs = s.jobs.map (fun j => if j.id = i then f j else j) := by
    unfold State.jobs State.modJob
    dsimp only
    rw [List.filterMap_map, List.map_filterMap]
    rfl
  have hids : (s.modJob i f).jobs.map (fun j => j.id) = s.jobs.map (fun j => j.id) := by
    rw [ejobs, List.map_map]
    exact List.map_congr_left (fun j hm => (hj j hm _ rfl).1)
  refine ⟨⟨(List.length_map ..).trans hs.slots, ⟨hids ▸ hs.jobs.ids, fun k hk => ?_⟩⟩, Nat.le_trans ?_ hq⟩
  · rw [ejobs] at hk
    obtain ⟨j, hm, rfl⟩ := List.mem_map.1 hk
    exact (hj j hm _ rfl).2.2.2
  · rw [quarantined_slots, quarantined_slots]
    show sumOf slotHeld (s.iso.slots.map _) ≤ _
    rw [sumOf_map]
    refine sumOf_le _ _ _ (fun x hx => ?_)
    cases x with
    | none => exact Nat.le_refl _
    | some j =>
      have hm : j ∈ s.jobs := List.mem_filterMap.2 ⟨some j, hx, rfl⟩
      obtain ⟨_, h2, h3, h4⟩ := hj j hm _ rfl
      show slotHeld (some (if j.id = i then f j else j)) ≤ slotHeld (some j)
      generalize (if j.id = i then f j else j) = k at h2 h3 h4
      unfold slotHeld
      dsimp only
      split
      · split
        · exact h3
        · rename_i hk hb
          have hd : j.drill = false := by
            rw [← h2]; unfold Job.beforeHold at hk
            cases hx : k.drill with
            | false => rfl
            | true => rw [hx] at hk; simp at hk
          have := hs.jobs.released j hm hd (by simpa using hb)
          omega
      · exact Nat.zero_le _

/-- A change of the jobs with an id that leaves what the books hold of them. -/
theorem modJob (i : JobId) (f : Job → Job) (h : Keeps m b s)
    (hf : ∀ j, (f j).id = j.id ∧ (f j).drill = j.drill ∧ (f j).phase = j.phase ∧ (f j).quarantine = j.quarantine := by
      exact fun _ => ⟨rfl, rfl, rfl, rfl⟩) : Keeps m b (s.modJob i f) :=
  modJobOf i f h (fun _ j _ _ => by
    obtain ⟨h1, h2, h3, h4⟩ := hf j
    refine ⟨h1, h2, Nat.le_of_eq h4, fun _ hb hb' => ?_⟩
    unfold Job.beforeHold at hb hb'
    rw [h2, h3, hb'] at hb; cases hb)

end State.Keeps

end Sys2Proof.Machine
end

