-- ==== Sys2Proof/Laws/PerInstr.lean ====
section
/-! SUPPORT. Laws stated of every command and event, one lemma per constructor. -/

namespace Sys2Proof.Laws.CommandNumbers

/-- The commands of the link are the rows with a number of R170, each with its issuers; an event has neither. -/
def Statement (i : Instr) : Prop :=
  (i.cmd?.isSome = true ↔ 1 ≤ i.code ∧ i.code ≤ 42) ∧ i.permitted.isSome = i.cmd?.isSome

theorem of_command {i : Instr} (taken : i.cmd?.isSome = true) (low : Nat.ble 1 i.code = true)
    (high : Nat.ble i.code 42 = true) (issued : i.permitted.isSome = true) : Statement i :=
  ⟨⟨fun _ => ⟨Nat.le_of_ble_eq_true low, Nat.le_of_ble_eq_true high⟩, fun _ => taken⟩, issued.trans taken.symm⟩

theorem of_event {i : Instr} (none : i.cmd?.isSome = false) (zero : i.code = 0)
    (issued : i.permitted.isSome = false) : Statement i :=
  ⟨⟨fun h => absurd (none.symm.trans h) Bool.false_ne_true, fun h => absurd (Nat.le_trans h.1 (Nat.le_of_eq zero)) (Nat.not_succ_le_zero 0)⟩,
    issued.trans none.symm⟩

theorem flowRequest (c : Cmd) (flow : Nat) (urgent : Bool) : Statement (.flowRequest c flow urgent) :=
  of_command rfl rfl rfl rfl
theorem flowRelease (c : Cmd) : Statement (.flowRelease c) :=
  of_command rfl rfl rfl rfl
theorem cutAck (c : Cmd) : Statement (.cutAck c) :=
  of_command rfl rfl rfl rfl
theorem declareSupply (c : Cmd) (supply : Nat) : Statement (.declareSupply c supply) :=
  of_command rfl rfl rfl rfl
theorem stageBranch (c : Cmd) (position : Nat) (group : BranchGroup) : Statement (.stageBranch c position group) :=
  of_command rfl rfl rfl rfl
theorem stageZone (c : Cmd) (zone : Nat) (extent : Option (Nat × Nat)) : Statement (.stageZone c zone extent) :=
  of_command rfl rfl rfl rfl
theorem stageChannelClass (c : Cmd) (cls : Nat) (threshold : Nat) (confirm : Nat) : Statement (.stageChannelClass c cls threshold confirm) :=
  of_command rfl rfl rfl rfl
theorem stageTiming (c : Cmd) (group : Timing) : Statement (.stageTiming c group) :=
  of_command rfl rfl rfl rfl
theorem stageSupply (c : Cmd) (group : SupplyGroup) : Statement (.stageSupply c group) :=
  of_command rfl rfl rfl rfl
theorem applyPolicy (c : Cmd) : Statement (.applyPolicy c) :=
  of_command rfl rfl rfl rfl
theorem discardStaged (c : Cmd) : Statement (.discardStaged c) :=
  of_command rfl rfl rfl rfl
theorem savePolicy (c : Cmd) : Statement (.savePolicy c) :=
  of_command rfl rfl rfl rfl
theorem enterMaintenance (c : Cmd) (position : Nat) : Statement (.enterMaintenance c position) :=
  of_command rfl rfl rfl rfl
theorem leaveMaintenance (c : Cmd) (position : Nat) : Statement (.leaveMaintenance c position) :=
  of_command rfl rfl rfl rfl
theorem trimOnce (c : Cmd) (position : Nat) : Statement (.trimOnce c position) :=
  of_command rfl rfl rfl rfl
theorem serviceMove (c : Cmd) (actuator : Nat) (position : Nat) : Statement (.serviceMove c actuator position) :=
  of_command rfl rfl rfl rfl
theorem curveVerify (c : Cmd) (position : Nat) : Statement (.curveVerify c position) :=
  of_command rfl rfl rfl rfl
theorem busClear (c : Cmd) : Statement (.busClear c) :=
  of_command rfl rfl rfl rfl
theorem maskChannel (c : Cmd) (channel : Nat) : Statement (.maskChannel c channel) :=
  of_command rfl rfl rfl rfl
theorem unmaskChannel (c : Cmd) (channel : Nat) : Statement (.unmaskChannel c channel) :=
  of_command rfl rfl rfl rfl
theorem startDrill (c : Cmd) (channel : Nat) (windows : Nat) : Statement (.startDrill c channel windows) :=
  of_command rfl rfl rfl rfl
theorem cancelDrill (c : Cmd) : Statement (.cancelDrill c) :=
  of_command rfl rfl rfl rfl
theorem warnAck (c : Cmd) : Statement (.warnAck c) :=
  of_command rfl rfl rfl rfl
theorem releaseIsolation (c : Cmd) (position : Nat) : Statement (.releaseIsolation c position) :=
  of_command rfl rfl rfl rfl
theorem releaseTrunk (c : Cmd) : Statement (.releaseTrunk c) :=
  of_command rfl rfl rfl rfl
theorem identify (c : Cmd) : Statement (.identify c) :=
  of_command rfl rfl rfl rfl
theorem bindRequester (c : Cmd) (addr : Addr) (role : Nat) (branch : Option Nat) (mask : Option (BitVec 16)) : Statement (.bindRequester c addr role branch mask) :=
  of_command rfl rfl rfl rfl
theorem unbindRequester (c : Cmd) (entry : Nat) : Statement (.unbindRequester c entry) :=
  of_command rfl rfl rfl rfl
theorem setNotices (c : Cmd) (mask : BitVec 16) : Statement (.setNotices c mask) :=
  of_command rfl rfl rfl rfl
theorem setTelemetry (c : Cmd) (mode : Nat) (count : Nat) : Statement (.setTelemetry c mode count) :=
  of_command rfl rfl rfl rfl
theorem restart (c : Cmd) : Statement (.restart c) :=
  of_command rfl rfl rfl rfl
theorem readBranches (c : Cmd) : Statement (.readBranches c) :=
  of_command rfl rfl rfl rfl
theorem readSupply (c : Cmd) : Statement (.readSupply c) :=
  of_command rfl rfl rfl rfl
theorem readPending (c : Cmd) : Statement (.readPending c) :=
  of_command rfl rfl rfl rfl
theorem readPolicy (c : Cmd) (copy : Nat) : Statement (.readPolicy c copy) :=
  of_command rfl rfl rfl rfl
theorem readActuators (c : Cmd) : Statement (.readActuators c) :=
  of_command rfl rfl rfl rfl
theorem readVerify (c : Cmd) : Statement (.readVerify c) :=
  of_command rfl rfl rfl rfl
theorem readChannels (c : Cmd) : Statement (.readChannels c) :=
  of_command rfl rfl rfl rfl
theorem readCases (c : Cmd) : Statement (.readCases c) :=
  of_command rfl rfl rfl rfl
theorem readJobs (c : Cmd) : Statement (.readJobs c) :=
  of_command rfl rfl rfl rfl
theorem readDrillReport (c : Cmd) : Statement (.readDrillReport c) :=
  of_command rfl rfl rfl rfl
theorem readRequesters (c : Cmd) : Statement (.readRequesters c) :=
  of_command rfl rfl rfl rfl
theorem frameArrival (t : Time) (frame : RawFrame) : Statement (.frameArrival t frame) :=
  of_event rfl rfl rfl
theorem frameSent (t : Time) : Statement (.frameSent t) :=
  of_event rfl rfl rfl
theorem portLinkChange (t : Time) (up : Bool) : Statement (.portLinkChange t up) :=
  of_event rfl rfl rfl
theorem supplyAgeingExpiry : Statement (.supplyAgeingExpiry) :=
  of_event rfl rfl rfl
theorem cutDeadlineExpiry (position : Nat) : Statement (.cutDeadlineExpiry position) :=
  of_event rfl rfl rfl
theorem measurementWindowExpiry : Statement (.measurementWindowExpiry) :=
  of_event rfl rfl rfl
theorem meterPulse (t : Time) (meter : Nat) : Statement (.meterPulse t meter) :=
  of_event rfl rfl rfl
theorem senseSampleEvent (samples : List Sample) : Statement (.senseSampleEvent samples) :=
  of_event rfl rfl rfl
theorem senseWindowEnd (samples : List Sample) : Statement (.senseWindowEnd samples) :=
  of_event rfl rfl rfl
theorem caseDeadlineExpiry (entry : Nat) : Statement (.caseDeadlineExpiry entry) :=
  of_event rfl rfl rfl
theorem jobPhaseDeadlineExpiry (job : Nat) : Statement (.jobPhaseDeadlineExpiry job) :=
  of_event rfl rfl rfl
theorem uncontainedRetryExpiry (job : Nat) : Statement (.uncontainedRetryExpiry job) :=
  of_event rfl rfl rfl
theorem drainDeadlineExpiry (job : Nat) : Statement (.drainDeadlineExpiry job) :=
  of_event rfl rfl rfl
theorem simulateDeadlineExpiry (job : Nat) : Statement (.simulateDeadlineExpiry job) :=
  of_event rfl rfl rfl
theorem lineLevelChange (t : Time) (line : LineName) (level : Level) : Statement (.lineLevelChange t line level) :=
  of_event rfl rfl rfl
theorem lineDebounceExpiry (line : LineName) : Statement (.lineDebounceExpiry line) :=
  of_event rfl rfl rfl
theorem valveReply (t : Time) (reply : ValveReply) : Statement (.valveReply t reply) :=
  of_event rfl rfl rfl
theorem valveReplyTimeout : Statement (.valveReplyTimeout) :=
  of_event rfl rfl rfl
theorem startTimerExpiry (actuator : Nat) : Statement (.startTimerExpiry actuator) :=
  of_event rfl rfl rfl
theorem moveTimerExpiry (actuator : Nat) : Statement (.moveTimerExpiry actuator) :=
  of_event rfl rfl rfl
theorem trackingPollDue (actuator : Nat) : Statement (.trackingPollDue actuator) :=
  of_event rfl rfl rfl
theorem idlePollDue (actuator : Nat) : Statement (.idlePollDue actuator) :=
  of_event rfl rfl rfl
theorem holdWriteEnd (t : Time) (ok : Bool) : Statement (.holdWriteEnd t ok) :=
  of_event rfl rfl rfl
theorem saveWriteEnd (t : Time) (ok : Bool) : Statement (.saveWriteEnd t ok) :=
  of_event rfl rfl rfl
theorem powerOn (t : Time) : Statement (.powerOn t) :=
  of_event rfl rfl rfl
theorem restartReset (t : Time) (imageWritten : Bool) : Statement (.restartReset t imageWritten) :=
  of_event rfl rfl rfl
theorem stopSent (t : Time) : Statement (.stopSent t) :=
  of_event rfl rfl rfl
theorem powerLoss (t : Time) (imageWritten : Bool) : Statement (.powerLoss t imageWritten) :=
  of_event rfl rfl rfl

end Sys2Proof.Laws.CommandNumbers
end

