-- ==== Sys2Proof/Laws/Startup.lean ====
section
/-! SUPPORT. Start-up, block by block: what the loading of a store gives, the guards derived from it, and the survey that begins (R189, R190). -/

namespace Sys2Proof.Machine

/-! ### The survey -/

/-- A survey poll placed while the line is busy waits at the end of the POLL queue (R70, R71). -/
theorem placePoll_waits {s : State} {a : ActuatorNo} (hl : s.bus.line ≠ .free) (ha : ∀ p ∈ s.bus.pollQ, p.actuator ≠ a) :
    s.placePoll a true = { s with bus.pollQ := s.bus.pollQ ++ [{ actuator := a, survey := true, madeAt := s.now }] } := by
  unfold State.placePoll
  rw [if_neg (by simpa using ha)]
  exact grantLine_busy hl

/-- The survey polls of a list of actuators wait in its order. -/
theorem surveyPolls_wait : ∀ (l : List ActuatorNo) (s : State), s.bus.line ≠ .free → l.Nodup →
    (∀ p ∈ s.bus.pollQ, p.actuator ∉ l) →
    s.forEach l (fun s a => s.placePoll a true) =
      { s with bus.pollQ := s.bus.pollQ ++ l.map (fun a => { actuator := a, survey := true, madeAt := s.now }) }
  | [], s, _, _, _ => by simp [State.forEach]
  | a :: l, s, hl, hn, hq => by
    have hc := List.nodup_cons.1 hn
    have e := placePoll_waits (a := a) hl (fun p hp h => hq p hp (h ▸ List.mem_cons_self))
    show State.forEach (s.placePoll a true) l _ = _
    rw [e, surveyPolls_wait l _ (by exact hl) hc.2 ?_]
    · simp [List.append_assoc]
    · intro p hp
      rcases List.mem_append.1 hp with h | h
      · exact fun hm => hq p h (List.mem_cons_of_mem _ hm)
      · cases List.mem_singleton.1 h; exact hc.1

/-- Of what start-up wakes with, the derivation of the guards touches the branches alone (R8, R189). -/
theorem deriveGuards_leaves {α : Type} (f : State → α) (hf : ∀ (s : State) p g, f (s.modBr p g) = f s) (s : State)
    (ps : List Position) : f (s.deriveGuards ps) = f s :=
  forEach_leaves f State.deriveGuard (fun s p => hf s p _) ps s

/-- The first poll of a survey is granted the line at once (R71). -/
theorem firstPoll (t : State) (l : List Actuator) (n : Time) (h : t.bus = { Bus.reset with actuators := l }) (hn : t.now = n) :
    t.placePoll 0 true = { t with bus := { Bus.reset with
      actuators := l.modify 0 (fun x => { x with lastTx := some n })
      line := .busy { actuator := 0, request := .survey, attempt := 1, sentAt := n } } } := by
  obtain ⟨pending, now, powered, stationAddr, hall, commissioning, branches, arb, pol, bus, window, sense, cases, iso, link,
    store, boot, work⟩ := t
  cases h; cases hn; rfl

/-- The survey begins: the first poll is granted the line at once, and the others wait in address order (R71, R79, R189). -/
theorem survey_begins (t : State) (l : List Actuator) (n : Time) (h : t.bus = { Bus.reset with actuators := l })
    (hn : t.now = n) :
    t.forEach Config.actuators (fun s a => s.placePoll a true) = { t with bus := { Bus.reset with
      actuators := l.modify 0 (fun x => { x with lastTx := some n })
      pollQ := (List.range 50).tail.map (fun a => { actuator := a, survey := true, madeAt := n })
      line := .busy { actuator := 0, request := .survey, attempt := 1, sentAt := n } } } := by
  have ea : Config.actuators = 0 :: (List.range 50).tail := by decide
  rw [ea, State.forEach, List.foldl_cons, firstPoll t l n h hn]
  refine (surveyPolls_wait _ _ (by simp) List.nodup_range.tail (by simp [Bus.reset])).trans ?_
  subst hn; rfl

/-- What start-up leaves of what it wakes with (R189). -/
theorem startUp_eq (s : State) (c : StartCause) :
    s.startUp c = { s.wake c with bus := { Bus.reset with
      actuators := (Config.actuators.map (wakeActuator ((s.store.hold.getD HoldRecord.empty).restoredJob s.now))).modify 0
        (fun x => { x with lastTx := some s.now })
      pollQ := (List.range 50).tail.map (fun a => { actuator := a, survey := true, madeAt := s.now })
      line := .busy { actuator := 0, request := .survey, attempt := 1, sentAt := s.now } } } := by
  have hb : (s.wake c).bus = { Bus.reset with
      actuators := Config.actuators.map (wakeActuator ((s.store.hold.getD HoldRecord.empty).restoredJob s.now)) } :=
    deriveGuards_leaves State.bus (fun _ _ _ => rfl) _ _
  have hn : (s.wake c).now = s.now := deriveGuards_leaves State.now (fun _ _ _ => rfl) _ _
  exact survey_begins _ _ _ hb hn

/-- Guard and effective ceiling are all a branch record loses when it is derived anew, and no guard reads them (R8, R9). -/
theorem deriveGuards_br : ∀ (ps : List Position) (s : State) (p : Position), ps.Nodup → (∀ q ∈ ps, q < s.branches.length) →
    (s.deriveGuards ps).br p = (if p ∈ ps then
      { s.br p with guardLevel := s.guardOf p
                    effCeiling := ({ s.br p with guardLevel := s.guardOf p } : Branch).ceilingUnder
                      s.pol.active.supply.unguardedCap } else s.br p) ∧
    (s.deriveGuards ps).branches.length = s.branches.length
  | [], s, p, _, _ => by simp [State.deriveGuards, State.forEach]
  | q :: ps, s, p, hn, hl => by
    have hc := List.nodup_cons.1 hn
    have hq := hl q List.mem_cons_self
    have hlen : (s.deriveGuard q).branches.length = s.branches.length := List.length_modify ..
    have ih := deriveGuards_br ps (s.deriveGuard q) p hc.2 (fun x hx => hlen ▸ hl x (List.mem_cons_of_mem _ hx))
    have e : s.deriveGuards (q :: ps) = (s.deriveGuard q).deriveGuards ps := rfl
    have hg : (s.deriveGuard q).guardOf p = s.guardOf p := by
      have hz : ((s.deriveGuard q).br p).zone = (s.br p).zone := by
        by_cases h : q = p
        · subst h; exact (congrArg Branch.zone (modBr_br_self s q _ hq)).trans rfl
        · exact congrArg Branch.zone (modBr_br_ne s _ h)
      unfold State.guardOf; rw [hz]; rfl
    rw [e, ih.1, ih.2, hlen, hg]
    refine ⟨?_, rfl⟩
    by_cases h : q = p
    · subst h
      rw [if_neg hc.1, if_pos List.mem_cons_self]
      exact modBr_br_self s q _ hq
    · have hb : (s.deriveGuard q).br p = s.br p := modBr_br_ne s _ h
      rw [hb]
      by_cases hp : p ∈ ps
      · rw [if_pos hp, if_pos (List.mem_cons_of_mem _ hp)]; rfl
      · rw [if_neg hp, if_neg (fun x => (List.mem_cons.1 x).elim (fun y => h y.symm) hp)]

/-! ### What a store brings up -/

theorem policy_of_store (k : Store) : (k.image.map (fun i => i.policy)).getD Policy.factory = k.policy := by
  unfold Store.policy; cases k.image <;> rfl

theorem maskSet_of_store (k : Store) : (k.image.map (fun i => i.maskSet)).getD [] = k.maskSet := by
  unfold Store.maskSet; cases k.image <;> rfl

theorem requesters_of_store (k : Store) :
    (k.image.map (fun i => i.requesters.map (Option.map StoredRequester.wake))).getD (List.replicate 32 none) =
      k.requesters := by
  unfold Store.requesters; cases k.image <;> rfl

/-- A job is restored where the store latches something (R190). -/
theorem restoredJob_of_store (k : Store) (n : Time) :
    k.record.restoredJob n = if k.restores then some (k.restoredJob n) else none := by
  have : k.record.latchedPositions = Config.positions.filter k.latches := rfl
  unfold HoldRecord.restoredJob Store.restores
  rw [this]
  cases h : k.record.trunk <;> cases h2 : (Config.positions.filter k.latches).isEmpty <;>
    simp [Store.restoredJob, h] <;> exact fun _ _ _ => rfl

/-- The restored job reserves the actuators of what the store latches (R190). -/
theorem wakeActuator_of_store (k : Store) (n : Time) (a : ActuatorNo) (ha : a < 50) :
    wakeActuator (k.record.restoredJob n) a = { Actuator.reset with reservedBy := if k.reserves a then 1 else 0 } := by
  have hm : ∀ p, p < 24 →
      ((Config.positions.filter k.latches).map restoredTarget).any (fun t => t.pos = p) = k.latches p := by
    intro p hp
    rw [Bool.eq_iff_iff]; simp only [restoredTarget, Config.positions, List.any_map, List.any_filter, List.any_eq_true,
      List.mem_range, Function.comp, Bool.and_eq_true]
    exact ⟨fun ⟨_, _, h, e⟩ => of_decide_eq_true e ▸ h, fun h => ⟨p, hp, h, decide_eq_true rfl⟩⟩
  have hb : a < 48 → branchOf a = some (a % 24) := by intro h; revert a; decide
  have hb' : ¬ a < 48 → branchOf a = none ∧ (a = 48 ∨ a = 49) := by intro h; constructor <;> (revert a; decide)
  rw [restoredJob_of_store]
  unfold wakeActuator Store.reserves
  by_cases hr : k.restores
  · simp only [hr, if_true]
    by_cases h48 : a < 48
    · have : (k.restoredJob n).owns a = k.latches (a % 24) := by
        unfold Job.owns; rw [hb h48]; exact hm _ (Nat.mod_lt _ (by decide))
      rw [this, if_pos h48]; cases k.latches (a % 24) <;> rfl
    · have : (k.restoredJob n).owns a = k.record.trunk := by
        unfold Job.owns; rw [(hb' h48).1]
        unfold Store.restoredJob
        cases k.record.trunk <;> simp [(hb' h48).2]
      rw [this, if_neg h48]; cases k.record.trunk <;> rfl
  · have h0 : k.record.trunk = false ∧ ∀ p, p < 24 → k.latches p = false := by
      unfold Store.restores at hr
      simp [Config.positions] at hr
      exact hr
    rw [if_neg hr]
    by_cases h48 : a < 48
    · rw [if_pos h48, h0.2 _ (Nat.mod_lt _ (by decide))]; rfl
    · rw [if_neg h48, h0.1]; rfl

/-! ### Waking (R189) -/

/-- The state that start-up loads, before the guards are derived (R189). -/
def State.loaded (s : State) (c : StartCause) : State :=
  let k := s.store
  { pending := s.pending, now := s.now, powered := true, stationAddr := s.stationAddr
    hall := s.hall.wake, commissioning := s.commissioning.wake
    branches := Config.positions.map (fun p =>
      loadedBranch k.policy k.requesters (k.latches p) (k.record.maint.getD p false) p)
    arb := Arbiter.reset
    pol := { staged := k.policy, active := k.policy, dirty := false, maskSet := k.maskSet, applied := ApplyResult.reset
             derived := k.policy.derive (k.policy.supply.assumed - k.policy.supply.reserve) }
    bus := { Bus.reset with actuators := Config.actuators.map (wakeActuator (k.record.restoredJob s.now)) }
    window := { counter := 0, deadline := s.now + k.policy.timing.measurementWindow
                length := k.policy.timing.measurementWindow }
    sense := { channels := Config.channels.map (wakeChannel k.maskSet), index := 0, inWindow := true
               nextAt := s.now + Config.samplePeriod, lastEnd := s.now }
    cases := List.replicate 9 none
    iso := { Sequencer.reset with
      slots := restoredSlots (k.record.restoredJob s.now)
      lastId := if (k.record.restoredJob s.now).isSome then 1 else 0 }
    link := { Link.reset with up := s.link.up, requesters := k.requesters }
    store := { k with saving := none, holding := none, furtherDue := false, trunkLatch := k.record.trunk }
    boot := { cause := c, stored := k.image.isSome, imageSequence := k.image.map (fun i => i.sequence)
              holdValid := k.hold.isSome, holdSequence := k.hold.map (fun h => h.sequence)
              restored := (k.record.restoredJob s.now).map (fun j => (j.level, j.targets.map (fun t => t.pos)))
              inMaintenance := Config.positions.filter (fun p => !k.latches p && k.record.maint.getD p false)
              survey := some Config.actuators }
    work := Work.idle }

/-- Start-up wakes with what it loads, its guards derived (R189). -/
theorem wake_eq (s : State) (c : StartCause) : s.wake c = (s.loaded c).deriveGuards Config.positions := by
  unfold State.loaded; dsimp only
  rw [← policy_of_store, ← maskSet_of_store, ← requesters_of_store]
  rfl

/-- A block that no branch record belongs to comes up as it is loaded. -/
theorem wake_leaves {α : Type} (f : State → α) (hf : ∀ (s : State) p g, f (s.modBr p g) = f s) (s : State)
    (c : StartCause) : f (s.wake c) = f (s.loaded c) := by
  rw [wake_eq]; exact deriveGuards_leaves f hf _ _

theorem loaded_br (s : State) (c : StartCause) (p : Position) (hp : p < 24) : (s.loaded c).br p =
    loadedBranch s.store.policy s.store.requesters (s.store.latches p) (s.store.record.maint.getD p false) p := by
  unfold State.br State.loaded; simp [Config.positions, hp]

/-- A branch record comes up as it is loaded, with its guard and effective ceiling derived (R8, R9, R20). -/
theorem wake_br (s : State) (c : StartCause) (p : Position) (hp : p < 24) : (s.wake c).br p =
    { (s.loaded c).br p with
      guardLevel := (s.loaded c).guardOf p
      effCeiling := ({ (s.loaded c).br p with guardLevel := (s.loaded c).guardOf p } : Branch).ceilingUnder
        s.store.policy.supply.unguardedCap } := by
  have h := deriveGuards_br Config.positions (s.loaded c) p (by decide)
    (fun q hq => by rw [show (s.loaded c).branches.length = 24 from rfl]; revert q; decide)
  rw [wake_eq, h.1, if_pos (by simp [Config.positions, hp])]
  rfl

end Sys2Proof.Machine
end

