-- ==== Sys2Proof/Laws/Taking.lean ====
section
/-! SUPPORT. What the taking of a command can do: an admitted command does its block's work, a refused one is answered alone, and any other waits or finds the queue full. -/

namespace Sys2Proof.Machine

/-- A command that is urgent and comes to stand at the head of a queue whose head it was not leaves that queue behind it;
so does any command. -/
theorem enqueue_tail {i : Instr} {q : List Instr} (hq : q.head? ≠ some i) (h : (enqueueCommand i q).head? = some i) :
    (enqueueCommand i q).tail = q := by
  cases q with
  | nil => unfold enqueueCommand; split <;> rfl
  | cons a l =>
    have ha : a ≠ i := fun e => hq (by rw [e]; rfl)
    unfold enqueueCommand at h ⊢
    split at h
    · rename_i hu
      rw [if_pos hu]
      by_cases hv : urgentCommand a = true
      · rw [List.takeWhile_cons_of_pos hv] at h
        exact absurd (Option.some.inj h) ha
      · rw [List.takeWhile_cons_of_neg hv, List.dropWhile_cons_of_neg hv]; rfl
    · exact absurd (Option.some.inj h) ha

/-- Whether the link is ready does not depend on time or on what waits in the inbound queue. -/
theorem linkReady_inbound (s : State) (t : Time) (q : List Instr) :
    State.linkReady { s.advance t with link.inbound := q } = s.linkReady := rfl

/-- The checks of the link do not depend on time or on what waits in the inbound queue (R175). -/
theorem linkCheck_taking (s : State) (i : Instr) (c : Cmd) (m : Permitted) (d : Cmd) :
    (s.taking i c).linkCheck m d = s.linkCheck m d := rfl

/-- A command that is taken is carried out in the state `State.taking` gives (R174, R175). -/
theorem command_takes {s : State} {i : Instr} (h : s.takes i) (c : Cmd) (m : Permitted) (w : Answering) (run : Block) :
    s.command i c m w run = (match s.linkCheck m c with
      | some r => ((s.taking i c).reply w c i.code (refuse r .empty)).finish
      | none => ((run (s.taking i c)).1.reply w c i.code (run (s.taking i c)).2).finish) := by
  obtain ⟨hp, hr, hh⟩ := h
  by_cases h0 : s.link.inbound.head? = some i
  · have e1 : ({ s.advance c.time with link.inbound := (s.advance c.time).link.inbound.tail } : State) = s.taking i c := by
      unfold State.taking; rw [if_pos h0]; rfl
    have e2 : s.command i c m w run = (s.advance c.time).carryOut i c m w run := by
      unfold State.command
      have e4 : (s.advance c.time).linkReady = true := hr
      have e5 : (s.advance c.time).link.inbound.head? = some i := h0
      have e6 : s.receives i = true := by simp [State.receives, h0]
      simp only [hp, e6, if_true, e4, e5, decide_true, Bool.and_self]
    rw [e2]; unfold State.carryOut; rw [e1]; rfl
  · have hh' := hh.resolve_left h0
    have hu : s.receives i = true := by simp [State.receives, hh'.1]
    have e1 : State.offer (s.advance c.time) i c =
        { s.advance c.time with link.inbound := enqueueCommand i s.link.inbound } := by
      unfold State.offer; exact if_pos hh'.2.1
    have e2 : s.command i c m w run =
        State.carryOut { s.advance c.time with link.inbound := enqueueCommand i s.link.inbound } i c m w run := by
      unfold State.command
      have e4 : State.linkReady { s.advance c.time with link.inbound := enqueueCommand i s.link.inbound } = true := hr
      have e6 : (s.advance c.time).link.inbound.head? ≠ some i := h0
      simp only [hp, hu, Bool.and_self, if_true, if_neg e6, e1]
      rw [if_pos]
      rw [e4]; simp [hh'.2.2]
    have e3 : ({ s.advance c.time with link.inbound := (enqueueCommand i s.link.inbound).tail } : State) = s.taking i c := by
      unfold State.taking; rw [if_neg h0, enqueue_tail h0 hh'.2.2]
    rw [e2]; unfold State.carryOut; dsimp only; rw [e3]; rfl

/-- An admitted command does its block's work (R174, R175). -/
theorem command_admitted {s : State} {i : Instr} {c : Cmd} {m : Permitted} (h : s.admits i c) (hm : i.permitted = some m)
    (w : Answering) (run : Block) :
    s.command i c m w run = ((run (s.taking i c)).1.reply w c i.code (run (s.taking i c)).2).finish := by
  rw [command_takes h.1]
  have h2 := h.2
  rw [hm] at h2
  rw [show s.linkCheck m c = none from Option.isNone_iff_eq_none.mp h2]

/-- An answer is the transmitter's alone when the part is at rest (R176). -/
theorem reply_finish {t : State} (h : t.AtRest) (w : Answering) (c : Cmd) (n : Nat) (a : Answer) :
    (t.reply w c n a).finish = (t.reply w c n a).transmit := by
  apply finish_atRest
  unfold State.reply; split
  · exact ⟨h.reports, h.granted, h.work⟩
  · exact h

end Sys2Proof.Machine
end

