-- ==== Sys2Proof/Machine/Layout.lean ====
section
/-! DEFINITION. The bytes of the records the part sends: field codes, the layouts of section 9.9, the bodies of replies and notices, and the frame on the wire. Where section 9.9 gives no layout of a body, its general rule is applied to the field list of the body's own rule (log 30). -/

namespace Sys2Proof.Machine

/-! ### Fields (section 9.9) -/

/-- A one-byte field, stopping at its largest value. -/
def u8 (n : Nat) : List Byte := [BitVec.ofNat 8 (min n 255)]

/-- A two-byte field, most significant byte first, stopping at its largest value. -/
def u16 (n : Nat) : List Byte := [BitVec.ofNat 8 (min n 65535 / 256), BitVec.ofNat 8 (min n 65535)]

/-- A four-byte field, most significant byte first, stopping at its largest value. -/
def u32 (n : Nat) : List Byte :=
  let m := min n 4294967295
  [BitVec.ofNat 8 (m / 16777216), BitVec.ofNat 8 (m / 65536), BitVec.ofNat 8 (m / 256), BitVec.ofNat 8 m]

/-- A signed two-byte field, in two's complement. -/
def i16 (x : Int) : List Byte := u16 (BitVec.ofInt 16 x).toNat

/-- A signed four-byte field, in two's complement. -/
def i32 (x : Int) : List Byte := u32 (BitVec.ofInt 32 x).toNat

/-- A station address, 6 bytes. -/
def addrBytes (a : Addr) : List Byte := (List.range 6).map (fun k => BitVec.ofNat 8 (a.toNat / 256 ^ (5 - k)))

/-- A yes or no. -/
def yn (b : Bool) : List Byte := u8 (if b then 1 else 0)

/-- A one-byte optional field, FF for none. -/
def opt8 (o : Option Nat) : List Byte := u8 (o.getD 255)

/-- A two-byte optional field, FFFF for none. -/
def opt16 (o : Option Nat) : List Byte := u16 (o.getD 65535)

/-- A four-byte optional time, all ones for none. -/
def opt32 (o : Option Nat) : List Byte := u32 (o.getD 4294967295)

/-- A number whose bit k is the k-th of a list of bits. -/
def bitsOf : List Bool → Nat
  | [] => 0
  | b :: l => (if b then 1 else 0) + 2 * bitsOf l

/-- A set of at most eight members. -/
def flags8 (l : List Bool) : List Byte := u8 (bitsOf l)

/-- A set of positions, four bytes. -/
def positionSet (ps : List Position) : List Byte := u32 (bitsOf (Config.positions.map ps.contains))

/-- A set of channels, five bytes. -/
def channelSet (cs : List ChannelNo) : List Byte :=
  let n := bitsOf (Config.channels.map cs.contains)
  u8 (n / 4294967296) ++ u32 (n % 4294967296)

/-- A list, preceded by the count of its entries. -/
def listed {α : Type} (f : α → List Byte) (l : List α) : List Byte := u8 l.length ++ l.flatMap f

/-! ### Codes in bodies (section 9.9) -/

/-- Branch state. -/
def BranchState.wire : BranchState → Nat
  | .vacant => 0
  | .held => 1
  | .active => 2
  | .maintenance => 3
  | .isolating => 4
  | .isolated => 5

/-- Guard. -/
def Guard.wire : Guard → Nat
  | .guarded => 0
  | .partialGuard => 1
  | .unguarded => 2

/-- Channel state. -/
def ChannelState.wire : ChannelState → Nat
  | .dry => 0
  | .suspect => 1
  | .wet => 2
  | .fault => 3
  | .masked => 4

/-- Channel class. -/
def ChannelClass.wire : ChannelClass → Nat
  | .rope => 0
  | .tray => 1
  | .base => 2

/-- Job level. -/
def JobLevel.wire : JobLevel → Nat
  | .branch => 0
  | .zone => 1
  | .rack => 2

/-- Job phase. -/
def Phase.wire : Phase → Nat
  | .notify => 0
  | .closeSupply => 1
  | .drain => 2
  | .closeReturn => 3
  | .confirm => 4
  | .hold => 5
  | .uncontained => 6
  | .simulate => 7

/-- Warning. -/
def Warning.wire : Warning → Nat
  | .none => 0
  | .opened => 1
  | .acked => 2
  | .expired => 3

/-- Fault code. -/
def FaultCode.wire : FaultCode → Nat
  | .none => 0
  | .noReply => 1
  | .missedStart => 2
  | .stall => 3
  | .drift => 4

/-- Close result. -/
def Close.wire : Close → Nat
  | .pending => 0
  | .ok => 1
  | .failed f => 16 + f.wire

/-- Close result of the trunk in four bits; F where the trunk is absent. -/
def Close.nibble : Option Close → Nat
  | none => 15
  | some .pending => 0
  | some .ok => 1
  | some (.failed _) => 2

/-- Confirmation. -/
def Confirmation.wire : Confirmation → Nat
  | .none => 0
  | .confirmed => 1
  | .supplyPosition => 2
  | .returnPosition => 3
  | .flow => 4

/-- Status, as the header gives it. -/
def Status.wire : Status → Nat
  | .done => 1
  | .doneWarn => 2
  | .pending => 3
  | .refused => 4
  | .late => 5
  | .failed => 6
  | .aborted => 7

/-- Reason, as the header gives it (R176). -/
def Reason.wire : Reason → Nat
  | .none => 0
  | .notRegistered => 1
  | .role => 2
  | .branchState => 3
  | .range => 4
  | .busy => 5
  | .queueFull => 6
  | .noBudget => 7
  | .isolating => 8
  | .wetStill => 9
  | .notFound => 10
  | .format => 11
  | .refusedReserved => 12

/-- Supply state (R21). -/
def SupplyState.wire : SupplyState → Nat
  | .undeclared => 0
  | .fresh => 1
  | .stale => 2

/-- Control mode (section 3.2). -/
def ControlMode.wire : ControlMode → Nat
  | .track => 0
  | .fixed => 1

/-- Level of the commissioning line (R185); the codes are the model's reading (log 30). -/
def levelWire : Level → Nat
  | .low => 0
  | .high => 1

/-- Polarity of the hall line, in the order of section 3.2. -/
def polarityWire : Level → Nat
  | .high => 0
  | .low => 1

/-- Role (R171). -/
def Role.wire : Role → Nat
  | .supply => 0
  | .rack => 1
  | .server => 2
  | .service => 3

/-- Telemetry mode (R171): its code, then n of COUNTED, or 0 in a mode that has none: the model's choice (log 30). -/
def Telemetry.wire : Telemetry → List Byte
  | .off => [0, 0]
  | .stream => [1, 0]
  | .snapshot => [2, 0]
  | .counted n => 3 :: u8 n

/-- Apply result (R63). -/
def ApplyOutcome.wire : ApplyOutcome → Nat
  | .none => 0
  | .done => 1
  | .doneWarn => 2
  | .refused => 3

/-- Code of an apply result (R63). -/
def ApplyCode.wire : ApplyCode → Nat
  | .floorAboveCeiling => 0
  | .curveOrder => 1
  | .zoneOrder => 2
  | .zoneOverlap => 3
  | .floorSumOverBudget => 4
  | .branchUncovered => 5

/-- Move owner (R67). -/
def Owner.wire : Owner → Nat
  | .flow => 0
  | .iso => 1
  | .svc => 2
  | .verify => 3

/-- Origin: its kind, then the channel or position (job record). -/
def Origin.wire : Origin → List Byte
  | .channel c => 0 :: u8 c
  | .position p => 1 :: u8 p
  | .hallLine => [2, 255]
  | .restored => [3, 255]

/-- Ident of what an evidence entry names (job record). -/
def EvidenceItem.ident : EvidenceItem → Nat
  | .channel c => c
  | .imbalance p => 64 + p

/-- An evidence entry: ident and drill mark. -/
def Evidence.wire (e : Evidence) : List Byte := u8 e.item.ident ++ yn e.drill

/-- Cause of SUPPLY_ALERT (R46). -/
def AlertCause.wire : AlertCause → Nat
  | .staleEntered => 0
  | .staleEnded => 1
  | .shortfallEntered => 2
  | .shortfallLeft => 3

/-- Cause of BRANCH_SETTLED and BRANCH_UNSETTLED (R98). -/
def SettleCause.wire : SettleCause → Nat
  | .window => 0
  | .driveChanged => 1
  | .trim => 2

/-- Cause of a channel's DRIP_STATE (R120). -/
def DripCause.wire : DripCause → Nat
  | .window => 0
  | .fault => 1
  | .faultEnded => 2
  | .masked => 3
  | .unmasked => 4
  | .injectionEnded => 5

/-- Event of a case's DRIP_STATE (R141). -/
def CaseEvent.wire : CaseEvent → Nat
  | .opened => 0
  | .narrowed => 1
  | .expired => 2
  | .absorbed => 3
  | .direct => 4
  | .emptyZone => 5
  | .noTarget => 6
  | .cancelled => 7

/-- Kind of a case (section 7.1). -/
def CaseKind.wire : CaseKind → Nat
  | .zone z => z
  | .base => 8

/-- Member of the faults set (R5). -/
def FaultMember.wire : FaultMember → Nat
  | .valveFault => 0
  | .meterFault => 1
  | .returnOpen => 2

/-- Which meter (R108). -/
def MeterSide.wire : MeterSide → Nat
  | .supply => 0
  | .ret => 1

/-- Cause of an aborted service move, in the order of the ends of R87 (log 62). -/
def ServiceAbort.wire : ServiceAbort → Nat
  | .superseded => 0
  | .aborted => 1
  | .busClear => 2
  | .revoked => 3
  | .joined => 4

/-- Reason of an aborted verify, in the order of R92 (log 62). -/
def VerifyAbort.wire : VerifyAbort → Nat
  | .busClear => 0
  | .isolation => 1
  | .supplyFall => 2

/-- Cause of a cancelled trim, in the order of R107 (log 62). -/
def TrimAbort.wire : TrimAbort → Nat
  | .leftActive => 0
  | .policyChanged => 1

/-- Cause of an abort: the code its own command's rule gives it (section 9.9, R87, R92, R107). -/
def AbortCause.wire : AbortCause → Nat
  | .service c => c.wire
  | .verify c => c.wire
  | .trim c => c.wire

/-- Status of a verify, then its fault code or reason (R93). -/
def VerifyStatus.wire : VerifyStatus → List Byte
  | .none => [0, 255]
  | .running => [1, 255]
  | .passed => [2, 255]
  | .mismatch => [3, 255]
  | .fault f => 4 :: u8 f.wire
  | .aborted c => 5 :: u8 c.wire

/-- Status of the drill report (R167). -/
def DrillStatus.wire : DrillStatus → Nat
  | .none => 0
  | .running => 1
  | .complete => 2
  | .cancelled => 3
  | .preempted => 4

/-- Outcome of a drill target (R167). -/
def DrillOutcome.wire : DrillOutcome → Nat
  | .acked => 0
  | .noServer => 1
  | .missed => 2
  | .preempted => 3

/-- The code of a long command (R170, R178). -/
def LongKind.code : LongKind → Nat
  | .save => 12
  | .trim _ => 15
  | .service => 16
  | .verify => 17

/-! ### Records of the reads -/

/-- Branch record, 58 bytes (section 9.9). That the trim windows elapsed are 0 while no trim runs is the model's choice
(log 30). -/
def BranchView.wire (v : BranchView) : List Byte :=
  let b := v.branch
  let l := b.limits
  u8 v.pos ++ u8 b.state.wire ++ u8 l.cls ++
  flags8 [l.urgentPermitted, b.urgent, b.riseWaiting, b.settled, b.latched, l.mode = .fixed, b.trim.isSome, b.cut.isSome] ++
  u16 l.floor ++ u16 l.ceiling ++ u16 l.entryRequest ++ u16 b.effCeiling ++ u16 b.request ++ u16 v.target ++ u16 b.grant ++
  u16 b.drive ++ opt16 (b.cut.map (fun k => k.newDrive)) ++ opt16 (v.cutLeft.map (min 65534)) ++ u32 (b.stamp.getD 0) ++
  u8 b.overdue ++ u8 b.guardLevel.wire ++ opt8 b.zone ++ flags8 [b.valveFault, b.meterFault, b.returnOpen] ++ u16 b.draw ++
  u16 b.measuredSupply ++ u16 b.measuredReturn ++ u8 b.settleRun ++ opt8 b.boundTo ++ u8 b.job ++
  flags8 [b.imbalance, b.supplyMeter.marked, b.returnMeter.marked] ++ u8 b.imbalanceRun ++ u8 b.clearRun ++ u16 l.p0 ++
  u16 l.pfull ++ i16 b.trimOffset ++ opt16 b.controlTarget ++ u16 l.kSupply ++ u16 l.kReturn ++ u8 v.counter ++
  u8 ((b.trim.map (fun t => t.windows)).getD 0)

/-- The positions a channel watches: first and last, or none (channel record). -/
def watchedWire (ps : List Position) : List Byte := opt8 ps.head? ++ opt8 ps.getLast?

/-- Channel record, 21 bytes (section 9.9). That the bit of a sound last sample is 0 while there is none is the model's choice
(log 30). -/
def ChannelView.wire (v : ChannelView) : List Byte :=
  let c := v.channel
  u8 v.number ++ u8 v.cls.wire ++ u8 c.state.wire ++ u8 c.samples ++ u8 c.above ++ u8 c.realAbove ++ u8 c.dryRun ++
  u8 c.lostRun ++ u16 c.onsets ++ u8 c.injected ++
  flags8 [c.injectPending, c.drill, (c.last.map (fun x => x.sound)).getD false] ++ opt16 (c.last.map (fun x => x.code)) ++
  u16 v.policy.threshold ++ u8 v.policy.confirm ++ u16 v.sinceEnd ++ watchedWire v.watched

/-- A target of a job record. -/
def Target.wire (t : Target) : List Byte :=
  u8 t.pos ++ u8 t.warning.wire ++ u8 t.supply.wire ++ u8 t.ret.wire ++ u8 t.confirm.wire

/-- An evidence entry of a job record, with the present state of what it names (R143). Its one drill mark is the entry's own, and
the present mark of the channel is not in the bytes: the model's reading (log 30). -/
def evidenceNowWire (x : Evidence × EvidenceNow) : List Byte :=
  x.1.wire ++ (match x.2 with
    | .channel st _ => u8 st.wire ++ [0, 0]
    | .imbalance flag run clear => yn flag ++ u8 run ++ u8 clear)

/-- Job record, 15 bytes plus five for each target and each evidence entry (section 9.9). -/
def JobView.wire (v : JobView) : List Byte :=
  let j := v.job
  u8 j.id ++ u8 v.slot ++ u8 j.level.wire ++ j.origin.wire ++ flags8 [j.drill, j.trunk.isSome, v.dry] ++ u8 j.phase.wire ++
  u8 j.targets.length ++ u8 j.evidence.length ++ u16 j.quarantine ++ opt16 (v.timeLeft.map (min 65534)) ++
  u8 (16 * Close.nibble (j.trunk.map (fun k => k.supply)) + Close.nibble (j.trunk.map (fun k => k.ret))) ++
  opt8 j.drainDelay ++ j.targets.flatMap Target.wire ++ v.evidence.flatMap evidenceNowWire

/-- Shadow record (R67, R68). -/
def ActuatorView.wire (v : ActuatorView) : List Byte :=
  let x := v.shadow
  u8 (if v.number < 24 then 0 else if v.number < 48 then 1 else 2) ++ u8 (if x.present then 0 else 1) ++ opt16 x.position ++
  opt16 x.target ++ u8 (if x.moving then 1 else 0) ++
  flags8 [x.flags.moving, x.flags.atClosed, x.flags.atOpen, x.flags.overtorque] ++ u8 x.fault.wire ++ u8 x.reservedBy ++
  opt8 (x.owner.map Owner.wire) ++ opt32 v.sinceTx ++ opt16 v.moveTarget ++ opt32 v.sinceMove

/-- Branch group of the policy (section 3.2). -/
def BranchPolicy.wire (g : BranchPolicy) : List Byte :=
  let l := g.limits
  yn g.occupied ++ u8 l.cls ++ u16 l.floor ++ u16 l.ceiling ++ u16 l.entryRequest ++ yn l.urgentPermitted ++ u8 l.mode.wire ++
  u16 l.p0 ++ u16 l.pfull ++ u16 l.kSupply ++ u16 l.kReturn

/-- Zone extent: first and last, FF FF for empty. -/
def extentWire (e : Option (Nat × Nat)) : List Byte := opt8 (e.map (fun x => x.1)) ++ opt8 (e.map (fun x => x.2))

/-- Wet threshold and confirm count. -/
def ClassPolicy.wire (c : ClassPolicy) : List Byte := u16 c.threshold ++ u8 c.confirm

/-- Timing and detection group, in the order of section 3.2. The three fields in ms take 2 bytes, the smallest size of their
range: the model's reading of section 9.9 (log 30). -/
def timingWire (g : Timing) : List Byte :=
  u16 g.cutDeadline ++ u16 g.warnDeadline ++ u8 g.drainDelay ++ u8 g.localizationWindow ++ u16 g.measurementWindow ++
  u8 g.settleTolerance ++ u8 g.settleCount ++ u8 g.dryWindows ++ u8 g.imbalanceThreshold ++ u8 g.imbalanceWindows

/-- Supply group, in the order of section 3.2. -/
def SupplyPolicy.wire (g : SupplyPolicy) : List Byte :=
  u16 g.reserve ++ u16 g.assumed ++ u16 g.ageing ++ u8 (if g.unguardedCap then 0 else 1) ++ yn g.hallEnable ++
  u8 (polarityWire g.hallPolarity)

/-- The shared groups of READ_POLICY with what follows them (R65). -/
def PolicyView.wire (v : PolicyView) : List Byte :=
  v.zones.flatMap extentWire ++ v.rope.wire ++ v.tray.wire ++ v.base.wire ++ timingWire v.timing ++ v.supply.wire ++
  yn v.dirty ++ channelSet v.maskSet ++ u8 v.applied.result.wire ++ opt8 (v.applied.code.map ApplyCode.wire) ++
  opt8 v.applied.index ++ flags8 [v.applied.warnings.contains .floorSumOverBudget, v.applied.warnings.contains .branchUncovered] ++
  opt32 v.sinceApply ++ u16 v.derived.floorSum ++ i16 v.derived.margin ++ v.derived.zoneMembers.flatMap (listed u8) ++
  listed u8 v.derived.uncovered

/-- What READ_SUPPLY returns (R21). That the room, whose range no rule gives, takes 4 bytes is the model's choice (log 30). -/
def SupplyView.wire (v : SupplyView) : List Byte :=
  u8 v.state.wire ++ u16 v.declared ++ opt32 v.sinceDeclared ++ u32 v.ageingLeft ++ u16 v.supply ++ u16 v.reserve ++
  u16 v.budget ++ u16 v.quarantined ++ u16 v.draws ++ u16 v.available ++ u16 v.floors ++ u16 v.targets ++ u16 v.grants ++
  u16 v.drives ++ i32 v.room ++ yn v.shortfall

/-- An entry of READ_PENDING (R30). -/
def PendingView.wire (v : PendingView) : List Byte :=
  u8 v.pos ++ u8 v.cls ++ yn v.urgent ++ u32 (v.stamp.getD 0) ++ u16 v.target ++ u16 v.grant ++ u16 v.drive ++ yn v.riseWaiting

/-- The stop a running verify stands at (R93); none while the return valve still opens, before stop 0: the model's choice
(log 59). -/
def Verify.stop (v : Verify) : Option Nat := match v.status, v.step with
  | .running, .moving k => some k
  | .running, .skipping k => some k
  | .running, .measuring k => some k
  | _, _ => none

/-- The curve-verify record (R93). -/
def Verify.wire (v : Verify) : List Byte :=
  opt8 v.branch ++ v.status.wire ++ u16 v.ceiling ++ u16 v.p0 ++ u16 v.pfull ++ u8 v.tolerance ++
  listed (fun (e : StopEntry) => u16 e.position ++ u16 e.expected ++ u16 e.measured) v.entries ++ opt8 v.frozen ++ opt8 v.stop

/-- A case (R129). -/
def CaseView.wire (v : CaseView) : List Byte :=
  u8 v.kind.wire ++ positionSet v.case.candidates ++ u32 v.timeLeft ++ u8 v.case.openedBy ++ yn v.case.drill ++
  listed Evidence.wire v.case.evidence

/-- The drill report (R167). -/
def DrillReport.wire (r : DrillReport) : List Byte :=
  u8 r.id ++ u8 r.level.wire ++ r.origin.wire ++ u8 r.status.wire ++
  listed (fun (e : DrillEntry) => u8 e.pos ++ opt8 (e.outcome.map DrillOutcome.wire) ++ opt32 e.latency) r.entries

/-- A requester entry; an empty one is marked empty (R171), by the model's own leading byte (log 30). -/
def requesterWire : Option Requester → List Byte
  | none => [0] ++ List.replicate 14 0
  | some r => [1] ++ addrBytes r.addr ++ u8 r.role.wire ++ opt8 r.branch ++ u16 r.mask.toNat ++ r.telemetry.wire ++ u16 r.number

/-- What IDENTIFY carries (R185). -/
def Identity.wire (i : Identity) : List Byte :=
  u16 i.vendor ++ u16 i.part ++ u16 i.revision ++ addrBytes i.addr ++ u8 i.branches ++ u8 i.actuators ++ u8 i.channels ++
  u8 i.ordinarySlots ++ u8 i.rackSlots ++ u8 i.entries ++ opt8 (i.sender.map (fun x => x.1)) ++
  opt8 (i.sender.map (fun x => x.2.wire)) ++ u8 (levelWire i.commissioning)

/-- The body of a reply record. -/
def ReplyBody.wire : ReplyBody → List Byte
  | .empty => []
  | .flow r t g d => u16 r ++ u16 t ++ u16 g ++ u16 d
  | .supplyAnswer s b a => u16 s ++ u16 b ++ u16 a
  | .ordinal n => u8 n
  | .applyCode code index => opt8 (code.map ApplyCode.wire) ++ opt8 index
  | .clearCount n => u8 n
  | .drillStart ms => u32 ms
  | .wet (.entry e) => u8 e.item.ident
  | .wet .origin => [255]
  | .position p => u8 p
  | .entry i => u8 i
  | .noEntry => [255]
  | .mask m => u16 m.toNat
  | .identity i => i.wire
  | .branches l => l.flatMap BranchView.wire
  | .supply v => v.wire
  | .pending l => listed PendingView.wire l
  | .policyBranches _ l => l.flatMap BranchPolicy.wire
  | .policy v => v.wire
  | .actuators l => l.flatMap ActuatorView.wire
  | .busState l nIso nFlow nSvc nPoll clearing =>
    l.flatMap ActuatorView.wire ++ u8 nIso ++ u8 nFlow ++ u8 nSvc ++ u8 nPoll ++ yn clearing
  | .verify v => v.wire
  | .channels l => l.flatMap ChannelView.wire
  | .cases l => listed CaseView.wire l
  | .job v => v.wire
  | .drillReport r => r.wire
  | .requesters _ l level => l.flatMap requesterWire ++ u8 (levelWire level)

/-! ### Bodies of notices -/

/-- GRANT_CHANGED (R44). -/
def GrantNotice.wire (n : GrantNotice) : List Byte :=
  u8 n.pos ++ u8 n.state.wire ++ u16 n.request ++ u16 n.target ++ u16 n.grant ++ u16 n.drive ++
  opt16 (n.cut.map (fun k => k.1)) ++ opt32 (n.cut.map (fun k => k.2)) ++ yn n.shortfall

/-- BRANCH_SETTLED and BRANCH_UNSETTLED (R98). -/
def SettleNotice.wire (n : SettleNotice) : List Byte :=
  u8 n.pos ++ u8 n.cause.wire ++ u16 n.drive ++ u16 n.supply ++ u16 n.ret ++ u8 n.counter

/-- DRIP_STATE of the drip sense unit (R120). -/
def ChannelNotice.wire (n : ChannelNotice) : List Byte :=
  u8 n.channel ++ u8 n.cls.wire ++ u8 n.before.wire ++ u8 n.after.wire ++ u8 n.cause.wire ++ yn n.drill ++ u16 n.onsets ++
  listed u8 n.watched

/-- DRIP_STATE of localization (R141). -/
def CaseNotice.wire (n : CaseNotice) : List Byte :=
  u8 n.event.wire ++ opt8 (n.kind.map CaseKind.wire) ++ yn n.drill ++ positionSet n.candidates ++
  listed Evidence.wire n.evidence ++ opt32 n.timeLeft ++ (match n.request with
    | none => [255, 255, 255, 0]
    | some (level, origin, ps) => u8 level.wire ++ origin.wire ++ listed u8 ps)

/-- SUPPLY_ALERT (R46). -/
def AlertNotice.wire (n : AlertNotice) : List Byte :=
  u8 n.cause.wire ++ u8 n.state.wire ++ u16 n.supply ++ u16 n.budget ++ u16 n.quarantined ++ u16 n.draws ++ u16 n.available ++
  u16 n.floors

/-- POLICY_APPLIED (R62). Its result has the code that R63 gives the same word, 1 or 2 (log 30). -/
def AppliedNotice.wire (n : AppliedNotice) : List Byte :=
  u8 n.result.wire ++ flags8 [n.warnings.contains .floorSumOverBudget, n.warnings.contains .branchUncovered] ++
  opt8 n.uncovered ++ u16 n.floorSum ++ i16 n.margin ++ listed (fun (x : Position × BranchState) => u8 x.1 ++ u8 x.2.wire) n.changes ++
  opt8 (n.shortfall.map (fun c => if c = .shortfallEntered then 0 else 1))

/-- The result a COMPLETION carries after the command's code. -/
def CompletionBody.wire : CompletionBody → List Byte
  | .saved n => u16 n
  | .saveFailed => []
  | .trimmed offset n => i16 offset ++ u8 n
  | .trimFailed n => u8 n
  | .moved q => opt16 q
  | .moveFailed f => u8 f.wire
  | .verifyPassed => []
  | .verifyMismatch k e m => u8 k ++ u16 e ++ u16 m
  | .verifyFault f => u8 f.wire
  | .aborted c => u8 c.wire

/-- ISOLATION_DONE (R160). -/
def doneWire (j : Job) (clean : Bool) : List Byte :=
  u8 j.id ++ u8 j.level.wire ++ j.origin.wire ++ listed Evidence.wire j.evidence ++
  listed (fun (t : Target) => u8 t.pos ++ u8 t.supply.wire ++ u8 t.ret.wire ++ u8 t.confirm.wire) j.targets ++
  opt8 (j.trunk.map (fun k => k.supply.wire)) ++ opt8 (j.trunk.map (fun k => k.ret.wire)) ++
  u8 (if clean then Status.wire .done else Status.wire .doneWarn)

/-- STARTUP (R192). Where no image or no valid hold record was loaded its sequence number is none, FFFF on the wire: the
model's choice (log 77). -/
def Boot.wire (b : Boot) (absent : Nat) : List Byte :=
  u8 (if b.cause = .powerOn then 0 else 1) ++ u8 (if b.stored then 0 else 1) ++ opt16 b.imageSequence ++
  u8 (if b.holdValid then 0 else 1) ++ opt16 b.holdSequence ++ (match b.restored with
    | none => [255, 255, 0]
    | some (level, ps) => 1 :: u8 level.wire ++ listed u8 ps) ++ listed u8 b.inMaintenance ++ u8 absent

/-- One branch of a telemetry entry, 10 bytes (section 9.9). -/
def TelemetryBranch.wire (b : TelemetryBranch) : List Byte :=
  u8 b.state.wire ++ yn b.settled ++ u16 b.grant ++ u16 b.drive ++ u16 b.supply ++ u16 b.ret

/-- The body of a notice (R179). -/
def Notice.wire : Notice → List Byte
  | .grantChanged n => n.wire
  | .cutWarn p drive new left grant => u8 p ++ u16 drive ++ u16 new ++ u32 left ++ u16 grant
  | .isolateWarn p job level origin drill left => u8 job ++ u8 level.wire ++ origin.wire ++ u8 p ++ yn drill ++ u32 left
  | .isolationDone j clean => doneWire j clean
  | .uncontained job contained failed q _ =>
    u8 job ++ u8 (if contained then 1 else 0) ++
    listed (fun (x : ActuatorNo × FaultCode) => u8 x.1 ++ u8 x.2.wire) failed ++ u16 q
  | .settled n => n.wire
  | .unsettled n => n.wire
  | .dripChannel n => n.wire
  | .dripCase n => n.wire
  | .branchFault p m side => u8 p ++ u8 m.wire ++ opt8 (side.map MeterSide.wire)
  | .supplyAlert n => n.wire
  | .demand t g f short => u16 t ++ u16 g ++ u16 f ++ yn short
  | .policyApplied n => n.wire
  | .completion k _ body => u8 k.code ++ body.wire
  | .startup b absent => b.wire absent
  | .telemetry counter l => u8 counter ++ listed TelemetryBranch.wire l

/-! ### Records and frames (sections 9.1, 9.9) -/

/-- A record header, 12 bytes (section 9.9). -/
def headerBytes (kind code : Nat) (flags : List Bool) (tag : Byte) (status reason : Nat) (length number : Nat) : List Byte :=
  u8 1 ++ u8 kind ++ u16 code ++ flags8 flags ++ [tag] ++ u8 status ++ u8 reason ++ u16 length ++ u16 number

/-- The record of a reply frame: kind REPLY, the command's code and tag (R176). -/
def ReplyFrame.record (f : ReplyFrame) : List Byte :=
  headerBytes 2 f.code [false, false, f.first, f.more] f.tag f.status.wire f.reason.wire f.body.wire.length 0 ++ f.body.wire

/-- The status a notice carries: that of a COMPLETION (R178). -/
def Notice.statusWire : Notice → Nat
  | .completion _ st _ => st.wire
  | _ => 0

/-- The record of a notice for a recipient with a notice number (R170, R181). -/
def OutEntry.record (e : OutEntry) (number : Nat) : List Byte :=
  headerBytes 3 e.notice.kind [] e.tag e.notice.statusWire 0 e.notice.wire.length number ++ e.notice.wire

/-- The frame on the wire while the transmitter sends: own address as source, the protocol type, and the record (R169,
R183). -/
def State.onWire (s : State) : Option RawFrame := match s.link.sending with
  | none => none
  | some (.reply f) => some { dest := f.dest, src := s.stationAddr, etype := Config.protocolType, payload := f.record }
  | some .notice => match s.link.outbound with
    | [] => none
    | e :: _ => (e.recipients[e.served]?).map (fun r =>
        { dest := r.1, src := s.stationAddr, etype := Config.protocolType, payload := e.record r.2 })

end Sys2Proof.Machine
end

