-- ==== Sys2Proof/Tests/Slice0.lean ====
section
/-! SUPPORT. The model's own tests: ill-formed terms that the check refuses, small runs of one step, and for every statement states and operands that meet its hypotheses together, clause by clause and at the ends of their ranges. -/

namespace Sys2Proof.Tests

set_option Elab.async false

open Sys2Proof.Machine

/-! ### Ill-formed terms -/

/-- A command record from station k of the tests. -/
def cmd (k : Nat) : Cmd :=
  { src := BitVec.ofNat 48 (256 + k), time := 0, urgent := false, wantReply := true, tag := 7, lengthOk := true }

/-- A branch group with every field at the low end of its range. -/
def lowGroup : BranchGroup :=
  { occupied := false, cls := 0, floor := 0, ceiling := 0, entryRequest := none, urgentPermitted := false, mode := 0
    p0 := 0, pfull := 100, kSupply := 100, kReturn := 100 }

/-- A branch group with every field at the high end of its range. -/
def highGroup : BranchGroup :=
  { occupied := true, cls := 3, floor := 600, ceiling := 600, entryRequest := some 600, urgentPermitted := true, mode := 1
    p0 := 500, pfull := 1000, kSupply := 10000, kReturn := 10000 }

def lowTiming : Timing :=
  { cutDeadline := 200, warnDeadline := 0, drainDelay := 0, localizationWindow := 0, measurementWindow := 250
    settleTolerance := 1, settleCount := 1, dryWindows := 5, imbalanceThreshold := 5, imbalanceWindows := 2 }

def highTiming : Timing :=
  { cutDeadline := 10000, warnDeadline := 2000, drainDelay := 30, localizationWindow := 10, measurementWindow := 2000
    settleTolerance := 20, settleCount := 8, dryWindows := 120, imbalanceThreshold := 100, imbalanceWindows := 20 }

def lowSupply : SupplyGroup :=
  { reserve := 0, assumed := 0, ageing := 5, unguardedCap := 0, hallEnable := false, hallPolarity := 0 }

def highSupply : SupplyGroup :=
  { reserve := 2000, assumed := 16000, ageing := 300, unguardedCap := 1, hallEnable := true, hallPolarity := 1 }

/-- Terms, each with one operand that does not fit its field, one for each check of a command. -/
def illCommands : List Instr :=
  [.flowRequest (cmd 0) 65536 false, .declareSupply (cmd 0) 65536, .stageBranch (cmd 0) 256 lowGroup,
   .stageBranch (cmd 0) 0 { lowGroup with cls := 256 }, .stageBranch (cmd 0) 0 { lowGroup with floor := 65536 },
   .stageBranch (cmd 0) 0 { lowGroup with ceiling := 65536 },
   .stageBranch (cmd 0) 0 { lowGroup with entryRequest := some 65535 },
   .stageBranch (cmd 0) 0 { lowGroup with mode := 256 }, .stageBranch (cmd 0) 0 { lowGroup with p0 := 65536 },
   .stageBranch (cmd 0) 0 { lowGroup with pfull := 65536 }, .stageBranch (cmd 0) 0 { lowGroup with kSupply := 65536 },
   .stageBranch (cmd 0) 0 { lowGroup with kReturn := 65536 }, .stageZone (cmd 0) 256 none,
   .stageZone (cmd 0) 0 (some (256, 0)), .stageZone (cmd 0) 0 (some (0, 256)), .stageZone (cmd 0) 0 (some (255, 255)),
   .stageChannelClass (cmd 0) 256 1 1, .stageChannelClass (cmd 0) 0 65536 1, .stageChannelClass (cmd 0) 0 1 256] ++
  [.stageTiming (cmd 0) { lowTiming with cutDeadline := 65536 }, .stageTiming (cmd 0) { lowTiming with warnDeadline := 65536 },
   .stageTiming (cmd 0) { lowTiming with drainDelay := 256 }, .stageTiming (cmd 0) { lowTiming with localizationWindow := 256 },
   .stageTiming (cmd 0) { lowTiming with measurementWindow := 65536 },
   .stageTiming (cmd 0) { lowTiming with settleTolerance := 256 }, .stageTiming (cmd 0) { lowTiming with settleCount := 256 },
   .stageTiming (cmd 0) { lowTiming with dryWindows := 256 }, .stageTiming (cmd 0) { lowTiming with imbalanceThreshold := 256 },
   .stageTiming (cmd 0) { lowTiming with imbalanceWindows := 256 },
   .stageSupply (cmd 0) { lowSupply with reserve := 65536 }, .stageSupply (cmd 0) { lowSupply with assumed := 65536 },
   .stageSupply (cmd 0) { lowSupply with ageing := 65536 }, .stageSupply (cmd 0) { lowSupply with unguardedCap := 256 },
   .stageSupply (cmd 0) { lowSupply with hallPolarity := 256 }] ++
  [.enterMaintenance (cmd 0) 256, .leaveMaintenance (cmd 0) 256, .trimOnce (cmd 0) 256, .curveVerify (cmd 0) 256,
   .releaseIsolation (cmd 0) 256, .serviceMove (cmd 0) 256 0, .serviceMove (cmd 0) 0 65536, .maskChannel (cmd 0) 256,
   .unmaskChannel (cmd 0) 256, .startDrill (cmd 0) 256 1, .startDrill (cmd 0) 0 256, .bindRequester (cmd 0) 1#48 256 none none,
   .bindRequester (cmd 0) 1#48 2 (some 255) none, .bindRequester (cmd 0) 1#48 1 none (some 0xFFFF#16),
   .unbindRequester (cmd 0) 256, .setTelemetry (cmd 0) 256 0, .setTelemetry (cmd 0) 3 256, .readPolicy (cmd 0) 256]

theorem test_illformed_commands : illCommands.all (fun i => !i.wellFormed) = true := by decide

/-- A sample list as the sense unit gives it. -/
def samples (code : Nat) (sound : Bool) : List Sample := List.replicate 34 { code := code, sound := sound }

def noFlags : ActuatorFlags := { moving := false, atClosed := false, atOpen := false, overtorque := false }

/-- Events, each with a unit or a value that the part does not have, one for each check of an event. -/
def illEvents : List Instr :=
  [.cutDeadlineExpiry 24, .meterPulse 0 48, .senseSampleEvent [], .senseSampleEvent (samples 1024 true), .senseWindowEnd [],
   .senseWindowEnd (samples 1024 true), .caseDeadlineExpiry 9, .jobPhaseDeadlineExpiry 0, .jobPhaseDeadlineExpiry 256,
   .uncontainedRetryExpiry 0, .uncontainedRetryExpiry 256, .drainDeadlineExpiry 0, .drainDeadlineExpiry 256,
   .simulateDeadlineExpiry 0, .simulateDeadlineExpiry 256,
   .valveReply 0 { actuator := 256, checkOk := true, position := 0, flags := noFlags },
   .valveReply 0 { actuator := 0, checkOk := true, position := 1001, flags := noFlags }, .startTimerExpiry 50,
   .moveTimerExpiry 50, .trackingPollDue 50, .idlePollDue 50]

theorem test_illformed_events : illEvents.all (fun i => !i.wellFormed) = true := by decide

theorem test_wellformed_at_the_ends :
    [Instr.flowRequest (cmd 0) 65535 true, .declareSupply (cmd 0) 65535, .stageBranch (cmd 0) 255 highGroup,
      .stageZone (cmd 0) 255 (some (255, 254)), .stageChannelClass (cmd 0) 255 65535 255, .stageTiming
      (cmd 0) highTiming,
      .stageSupply (cmd 0) highSupply, .serviceMove (cmd 0) 255 65535, .cutDeadlineExpiry 23, .meterPulse 0 47,
      .senseSampleEvent (samples 1023 false), .caseDeadlineExpiry 8, .jobPhaseDeadlineExpiry 255, .idlePollDue 49].all
      Instr.wellFormed = true := by decide

/-! ### States for the tests -/

def station (k : Nat) (r : Role) (b : Option Position) (m : Telemetry) : Option Requester :=
  some { addr := BitVec.ofNat 48 (256 + k), role := r, branch := b, mask := 0#16, telemetry := m, number := 0 }

/-- A part some time after its survey: branch 0 ACTIVE under TRACK, 23 ACTIVE under FIXED, 22 in MAINTENANCE, the others
VACANT; station 0 is the rack controller, 1 the supply, 2 the server of branch 23, 3 the service tool, 4 the server of
branch 0. Its bus is at rest. -/
def idle : State :=
  { State.reset with
    branches := ((State.reset.branches.set 0 { Branch.reset with state := .active, boundTo := some 4 }).set 22
      { Branch.reset with state := .maintenance, maint := true }).set 23
      { Branch.reset with
        state := .active, request := 100, stamp := some 1, boundTo := some 2
        limits := { BranchPolicy.factory.limits with mode := .fixed, urgentPermitted := true } }
    bus := Bus.reset
    arb := { Arbiter.reset with nextStamp := 2 }
    link := { Link.reset with
      requesters := [station 0 .rack none .off, station 1 .supply none .stream, station 2 .server (some 23) .snapshot,
        station 3 .service none (.counted 3), station 4 .server (some 0) .off] ++ List.replicate 27 none }
    boot := { State.reset.boot with survey := none } }

def rack : Cmd := cmd 0
def supplier : Cmd := cmd 1
def server : Cmd := cmd 2
def tool : Cmd := cmd 3
def stranger : Cmd := cmd 9

/-- A job on branch 23 with one warning open. -/
def job : Job :=
  { id := 1, level := .branch, origin := .channel 31, drill := false
    targets := [{ pos := 23, warning := .opened, supply := .pending, ret := .pending, confirm := .none }], trunk := none
    phase := .notify, deadline := some 500, drainDelay := some 5, quarantine := 0
    evidence := [{ item := .channel 31, drill := false }], createdAt := 0, armed := false }

/-- The idle part with a job in a slot. -/
def withJob (k : Nat) (j : Job) : State := State.setSlot { idle with iso.lastId := 1 } k (some j)

/-- The idle part with branch 23 ISOLATED by a job in HOLD. -/
def held (f : Job → Job) : State :=
  (withJob 0 (f { job with phase := .hold, deadline := none
                           targets := [{ pos := 23, warning := .acked, supply := .ok, ret := .ok, confirm := .confirmed }] })).modBr 23
    (fun b => { b with state := .isolated, job := 1, latched := true })

/-- The rack job in HOLD. -/
def rackJob : Job :=
  { job with level := .rack, phase := .hold, deadline := none, trunk := some { supply := .ok, ret := .ok }
             targets := [{ pos := 23, warning := .acked, supply := .ok, ret := .ok, confirm := .confirmed }] }

/-- A move to 500 in progress on an actuator. -/
def moved (a : ActuatorNo) (m : Move) : State :=
  idle.modAct a (fun x => { x with
    target := some 500, startRef := some 0, moving := true, owner := some .flow, lastTx := some 0, move := some m })

def move : Move :=
  { target := 500, client := .flow, started := false, startTimer := some 500, moveTimer := 15000, sentAt := 0 }

/-- The idle part with a transaction on the line. -/
def online (a attempt : Nat) : State :=
  { idle with bus.line := .busy { actuator := a, request := .idle, attempt := attempt, sentAt := 0 } }

def caseOf (base : Bool) : Case :=
  { candidates := if base then [] else [0, 23], deadline := 3000, openedBy := if base then 33 else 7, drill := false
    evidence := [{ item := .channel (if base then 33 else 7), drill := false }] }

/-! ### The checks behind the witnesses -/

def fitsCheck (l : Limits) : Bool := l.floor ≤ l.ceiling

def policyCheck (p : Policy) : Bool :=
  (List.range 24).all (fun n => fitsCheck (p.branches.getD n BranchPolicy.factory).limits)

def imageCheck (i : Image) : Bool := i.requesters.length = 32 && policyCheck i.policy

def branchCheck (b : Branch) : Bool :=
  fitsCheck b.limits && (b.effCeiling = b.limits.ceiling || b.effCeiling = b.limits.floor) &&
  b.meterFault = b.meterMarked && (!b.meterFault || (!b.imbalance && b.imbalanceRun = 0 && b.clearRun = 0))

def grantedCheck (b : Bus) : Bool :=
  b.line ≠ .free || (b.clearing = none && b.trackDue = [] && b.isoQ = [] && b.flowQ = [] && b.svcQ = [] && b.pollQ = [])

def sizedCheck (s : State) : Bool :=
  s.branches.length = 24 && s.bus.actuators.length = 50 && s.sense.channels.length = 34 && s.cases.length = 9 &&
  s.iso.slots.length = 9 && s.link.requesters.length = 32

def boundedCheck (s : State) : Bool :=
  s.link.inbound.length ≤ Config.inboundSize && s.link.inbound.all (fun i => i.cmd?.isSome) &&
  s.link.outbound.length ≤ Config.outboundSize && s.window.counter ≤ 255

def storeCheck (k : Store) : Bool :=
  k.imageA.all imageCheck && k.imageB.all imageCheck && k.saving.all (fun x => imageCheck x.2)

def jobsCheck (s : State) : Bool :=
  (s.jobs.map (fun j => j.id)).Nodup && s.jobs.all (fun j => j.drill || j.beforeHold || j.quarantine = 0)

/-- The invariant of the statements as a check that runs. -/
def orderlyCheck (s : State) : Bool :=
  sizedCheck s && boundedCheck s && storeCheck s.store && s.branches.all branchCheck && policyCheck s.pol.active &&
  jobsCheck s && s.bus.reports = [] && grantedCheck s.bus && s.work = Work.idle

/-- The taking of a command as a check that runs. -/
def takesCheck (s : State) (i : Instr) : Bool :=
  s.powered && s.linkReady && (s.link.inbound.head? = some i ||
    (s.link.up && s.link.inbound.length < Config.inboundSize && (enqueueCommand i s.link.inbound).head? = some i))

theorem policyCheck_fit {p : Policy} (h : policyCheck p = true) : p.Fit := by
  intro n hn
  simpa [fitsCheck, Limits.Fit] using List.all_eq_true.1 h n (List.mem_range.2 hn)

theorem imageCheck_policy {i : Image} (h : imageCheck i = true) : i.requesters.length = 32 ∧ i.policy.Fit := by
  simp only [imageCheck, Bool.and_eq_true, decide_eq_true_eq] at h
  exact ⟨h.1, policyCheck_fit h.2⟩

theorem branchCheck_fit {b : Branch} (h : branchCheck b = true) : b.Fit := by
  simp only [branchCheck, fitsCheck, Bool.and_eq_true, Bool.or_eq_true, Bool.not_eq_true', decide_eq_true_eq] at h
  obtain ⟨⟨⟨h1, h2⟩, h3⟩, h4⟩ := h
  refine ⟨h1, h2, h3, fun e => ?_⟩
  rcases h4 with h4 | ⟨⟨h5, h6⟩, h7⟩
  · rw [h4] at e; cases e
  · exact ⟨h5, h6, h7⟩

theorem jobsCheck_order {s : State} (h : jobsCheck s = true) : s.JobsInOrder := by
  simp only [jobsCheck, Bool.and_eq_true, decide_eq_true_eq, List.all_eq_true, Bool.or_eq_true] at h
  refine ⟨h.1, fun j m hd hb => ?_⟩
  rcases h.2 j m with (e | e) | e
  · rw [hd] at e; cases e
  · rw [hb] at e; cases e
  · exact e

theorem orderlyCheck_orderly {s : State} (h : orderlyCheck s = true) : s.Orderly := by
  simp only [orderlyCheck, sizedCheck, boundedCheck, storeCheck, grantedCheck, Bool.and_eq_true, Bool.or_eq_true,
    decide_eq_true_eq, Option.all_eq_true, List.all_eq_true, ne_eq] at h
  obtain ⟨⟨⟨⟨⟨⟨⟨⟨hs, hb⟩, hk⟩, hbr⟩, hp⟩, hj⟩, hr⟩, hg⟩, hw⟩ := h
  obtain ⟨⟨⟨⟨⟨h1, h2⟩, h3⟩, h4⟩, h5⟩, h6⟩ := hs
  refine ⟨⟨h1, h2, h3, h4, h5, h6, fun i e => (imageCheck_policy (hk.1.1 i e)).1,
      fun i e => (imageCheck_policy (hk.1.2 i e)).1, fun x e => (imageCheck_policy (hk.2 x e)).1⟩,
    ⟨hb.1.1.1, hb.1.1.2, hb.1.2, hb.2⟩,
    ⟨fun b m => branchCheck_fit (hbr b m), policyCheck_fit hp, fun i e => (imageCheck_policy (hk.1.1 i e)).2,
      fun i e => (imageCheck_policy (hk.1.2 i e)).2, fun x e => (imageCheck_policy (hk.2 x e)).2⟩,
    jobsCheck_order hj, ⟨hr, ?_, hw⟩⟩
  rcases hg with hg | ⟨⟨⟨⟨⟨a, b⟩, c⟩, d⟩, e⟩, f⟩
  · exact Or.inl hg
  · exact Or.inr ⟨a, b, c, d, e, f⟩

theorem takesCheck_takes {s : State} {i : Instr} (h : takesCheck s i = true) : s.takes i := by
  simp only [takesCheck, Bool.and_eq_true, Bool.or_eq_true, decide_eq_true_eq, and_assoc] at h
  exact h

/-- An orderly state with what a clause asks. -/
structure Stands (s : State) (more : Prop) : Prop where
  orderly : s.Orderly
  powered : s.powered = true
  more : more

/-- An orderly state in which a command is taken, with what a clause asks. -/
structure Taken (s : State) (i : Instr) (more : Prop) : Prop where
  orderly : s.Orderly
  takes : s.takes i
  more : more

/-- An orderly state in which a command passes the checks of the link, with what a clause asks. -/
structure Met (s : State) (i : Instr) (c : Cmd) (more : Prop) : Prop where
  orderly : s.Orderly
  admitted : s.admits i c
  more : more

theorem stands {s : State} {more : Prop} [Decidable more] (h : (orderlyCheck s && s.powered && decide more) = true) :
    Stands s more := by
  simp only [Bool.and_eq_true, decide_eq_true_eq] at h
  exact ⟨orderlyCheck_orderly h.1.1, h.1.2, h.2⟩

theorem taken {s : State} {i : Instr} {more : Prop} [Decidable more]
    (h : (orderlyCheck s && takesCheck s i && decide more) = true) : Taken s i more := by
  simp only [Bool.and_eq_true, decide_eq_true_eq] at h
  exact ⟨orderlyCheck_orderly h.1.1, takesCheck_takes h.1.2, h.2⟩

theorem met {s : State} {i : Instr} {c : Cmd} {more : Prop} [Decidable more]
    (h : (orderlyCheck s && takesCheck s i && i.permitted.all (fun p =>
      (s.linkCheck p c).isNone) && decide more) = true) :
    Met s i c more := by
  simp only [Bool.and_eq_true, decide_eq_true_eq] at h
  exact ⟨orderlyCheck_orderly h.1.1.1, ⟨takesCheck_takes h.1.1.2, h.1.2⟩, h.2⟩

/-! ### What the witnesses are made of -/

def openReply : ReplyFrame :=
  { dest := 0#48, code := 1, tag := 0, status := .done, reason := .none, first := true, more := false, body := .empty
    ofTaken := true }

/-- A frame of station 2 for the part that carries FLOW_REQUEST 300, not urgent, under a format number. -/
def flowFrame (format : Byte) : RawFrame :=
  { dest := State.reset.stationAddr, src := server.src, etype := 0x9A34#16
    payload := [format, 1, 0, 1, 2, 7, 0, 0, 0, 3, 0, 0] ++ [1, 44, 0] }

/-- An outbound entry with two recipients, of whom none or the first has been served. -/
def outEntry (left : Nat) : OutEntry :=
  { notice := .demand 0 0 0 false, tag := 0, recipients := [(1#48, 1), (2#48, 1)], served := 2 - left }

/-- An outbound entry of an ISOLATE_WARN for a branch, not yet served. -/
def warnEntry (p : Position) : OutEntry :=
  { notice := .isolateWarn p 1 .branch (.channel 31) false 500, tag := 0, recipients := [(1#48, 1)], served := 0 }

/-- The idle part with an outbound queue, sending a frame of its first entry or not. -/
def queued (q : List OutEntry) (sending : Bool) : State :=
  { idle with link.outbound := q, link.sending := if sending then some .notice else none }

/-- The idle part with a full outbound queue: one entry that is not assured, ahead of 95 that are. -/
def stuffed : State := queued (outEntry 2 :: List.replicate 95 (warnEntry 0)) false

/-- The idle part with a FRESH supply record of 9000. -/
def freshSupply : State :=
  { idle with arb.supply := { state := .fresh, declared := 9000, lastAt := some 0, deadline := some 30000 } }

/-- The idle part with a full inbound queue. -/
def full : State := { idle with link.inbound := List.replicate 16 (.flowRelease server) }

/-! ### Witnesses -/

theorem witness_StepTakesFront :
    (State.pending { idle with pending := [.supplyAgeingExpiry] }) = [.supplyAgeingExpiry] :=
  rfl

theorem witness_StepOnEmptyQueue :
    (∃ s i c, s = { idle with link.inbound := [i] } ∧ i = .flowRelease c ∧ c = server ∧ s.pending = [] ∧
      s.powered = true ∧ s.linkReady = true ∧ i.cmd? = some c) ∧
    (∃ s, s = { idle with powered := false } ∧ s.pending = [] ∧ s.powered = false) ∧
    (State.reset.pending = [] ∧ State.reset.linkReady = false) ∧
    (idle.pending = [] ∧ idle.link.inbound = []) :=
  ⟨⟨_, _, _, rfl, rfl, rfl, by decide +kernel⟩, ⟨_, rfl, by decide +kernel⟩, by decide +kernel, by decide +kernel⟩

theorem witness_StopsOnlyOnUnknownUnits :
    ((Instr.supplyAgeingExpiry).wellFormed = true) ∧
    ((23 < 24 ∧ 47 < 48 ∧ 8 < 9 ∧ 49 < 50)) ∧
    ((samples 0 true).tail.length ≠ 34 ∧ ([] : List Sample).length ≠ 34) :=
  ⟨by decide +kernel, by decide +kernel, by decide +kernel⟩

theorem witness_PowerOnFromEmptyStore :
    State.reset.pending = [] ∧ State.reset.now = 0 ∧ State.reset.hall.level = .high ∧
      State.reset.commissioning.level = .high ∧
      State.reset.link.up = true ∧ State.reset.store = Store.blank :=
  by decide +kernel

theorem witness_StartUpResets :
    (∃ s : State, s = { idle with link.restarting := true } ∧ s.powered = true ∧ s.link.restarting = true ∧
      s.link.replyOpen = false ∧ s.store.holding = none ∧
      s.store.furtherDue = false) ∧
    (idle.powered = true ∧ idle.link.restarting = false) ∧
    (∃ s : State, s = { idle with link.replies := [openReply] } ∧ s.powered = true ∧ s.link.replyOpen = true) ∧
    (∃ s : State, s = { idle with store.holding := some (.a, HoldRecord.empty) } ∧ s.powered = true ∧
      s.store.holding ≠ none) ∧
    (∃ s : State, s = { idle with store.furtherDue := true } ∧ s.powered = true ∧ s.store.furtherDue = true) :=
  ⟨⟨_, rfl, by decide +kernel⟩, by decide +kernel, ⟨_, rfl, by decide +kernel⟩, ⟨_, rfl, by decide +kernel⟩, ⟨_,
    rfl, by decide +kernel⟩⟩

theorem witness_PowerLossStopsThePart :
    (idle.powered = true) ∧
    (∃ s : State, s = { idle with store.saving := some (.a, idle.snapshot) } ∧
      s.store.saving = some (.a, idle.snapshot)) ∧
    (∃ s : State, s = { idle with store.saving := some (.b, idle.snapshot) } ∧
      s.store.saving = some (.b, idle.snapshot)) ∧
    (∃ s : State, s = { idle with store.holding := some (.a, HoldRecord.empty) } ∧
      s.store.holding = some (.a, HoldRecord.empty)) ∧
    (∃ s : State, s = { idle with store.holding := some (.b, HoldRecord.empty) } ∧
      s.store.holding = some (.b, HoldRecord.empty)) ∧
    (∃ s : State, s = { idle with powered := false } ∧ s.powered = false ∧
      (Instr.supplyAgeingExpiry).wellFormed = true) :=
  ⟨by decide +kernel, ⟨_, rfl, by decide +kernel⟩, ⟨_, rfl, by decide +kernel⟩, ⟨_, rfl, by decide +kernel⟩, ⟨_,
    rfl, by decide +kernel⟩, ⟨_, rfl, by decide +kernel⟩⟩

theorem witness_FrameArrivalQueuesCommand :
    (idle.powered = true ∧ idle.link.up = true ∧ recordWhole (flowFrame 1).payload = true ∧
      idle.addressed (flowFrame 1) = true ∧
      fromPart (headerOf (flowFrame 1).payload) = false ∧ badFormat (headerOf (flowFrame 1).payload) = false ∧
      idle.link.inbound.length < 16) ∧
    (recordWhole (flowFrame 0).payload = true ∧ idle.addressed (flowFrame 0) = true ∧
      fromPart (headerOf (flowFrame 0).payload) = false ∧
      badFormat (headerOf (flowFrame 0).payload) = true) ∧
    (∃ s : State, s = full ∧ s.powered = true ∧ s.link.up = true ∧ recordWhole (flowFrame 1).payload = true ∧
      s.addressed (flowFrame 1) = true ∧
      fromPart (headerOf (flowFrame 1).payload) = false ∧ badFormat (headerOf (flowFrame 1).payload) = false ∧
      16 ≤ s.link.inbound.length) ∧
    (recordWhole [] = false) ∧
    (idle.addressed { flowFrame 1 with dest := 0#48 } = false) ∧
    (fromPart (headerOf [1, 2]) = true ∧ fromPart (headerOf [1, 3]) = true) :=
  ⟨by decide +kernel, by decide +kernel, ⟨_, rfl, by decide +kernel⟩, by decide +kernel, by decide +kernel,
    by decide +kernel⟩

theorem witness_TransmitterServesQueue :
    (idle.powered = true ∧ idle.link.sending = none) ∧
    (∃ s : State, s = { idle with link.sending := some (.reply openReply) } ∧ s.powered = true ∧
      s.link.sending = some (.reply openReply)) ∧
    (∃ e, e = outEntry 2 ∧ e.served + 1 < e.recipients.length) ∧
    (∃ e, e = outEntry 1 ∧ e.recipients.length ≤ e.served + 1) ∧
    (∃ e, e = { outEntry 1 with notice := .completion .save .failed .saveFailed } ∧
      e.recipients.length ≤ e.served + 1) ∧
    (∃ s : State, s = { idle with link.sending := some .notice, link.outbound := [outEntry 2] } ∧ s.powered = true ∧
      s.link.sending = some .notice ∧ s.link.outbound = [outEntry 2]) ∧
    (∃ s : State, s = { idle with powered := false } ∧ s.powered = false) ∧
    Stands (queued [warnEntry 22, warnEntry 23, warnEntry 23] true) ((warnEntry 23).served = 0 ∧ 0 < 1 ∧
      (warnEntry 23).notice.warned = some 23 ∧ (warnEntry 22).notice.warned ≠ some 23 ∧
      ((queued [warnEntry 22, warnEntry 23, warnEntry 23] true).enqueue (warnEntry 23) [2]).link.outbound.length = 3) ∧
    Stands (queued [warnEntry 23] true)
      (((queued [warnEntry 23] true).enqueue (warnEntry 23) [2]).link.outbound = [warnEntry 23, warnEntry 23]) ∧
    Stands stuffed (stuffed.link.outbound.length = 96 ∧ (warnEntry 23).notice.assured = true ∧
      stuffed.link.outbound[0]? = some (outEntry 2) ∧ (outEntry 2).notice.assured = false ∧ stuffed.link.sending = none ∧
      ((stuffed.link.outbound.drop 1).all (fun e => e.notice.assured && e.notice.warned ≠ some 23)) = true) ∧
    Stands idle (idle.overtaken (.demand 0 0 0 false) = false ∧ idle.requester 2 ≠ none ∧ idle.requester 31 = none) :=
  ⟨by decide +kernel, ⟨_, rfl, by decide +kernel⟩, ⟨_, rfl, by decide +kernel⟩, ⟨_, rfl, by decide +kernel⟩, ⟨_,
    rfl, by decide +kernel⟩, ⟨_, rfl, by decide +kernel⟩, ⟨_, rfl, by decide +kernel⟩, stands (by decide +kernel),
    stands (by decide +kernel), stands (by decide +kernel), stands (by decide +kernel)⟩

theorem witness_CommandWaitsOrOverflows :
    (∃ s : State, s = full ∧ (Instr.cutAck server).cmd? = some server ∧ s.powered = true ∧ s.link.up = true ∧
      s.link.inbound.head? ≠ some (.cutAck server) ∧
      16 ≤ s.link.inbound.length) ∧
    (∃ s : State, s = State.reset ∧ s.link.up = true ∧ s.link.inbound.head? ≠ some (.cutAck server) ∧ s.powered = true ∧
      s.link.inbound.length < 16 ∧ s.linkReady = false) ∧
    (∃ s : State, s = { idle with link.inbound := [.cutAck server] } ∧ s.powered = true ∧ s.link.up = true ∧
      s.linkReady = true ∧ s.link.inbound.head? ≠ some (.flowRelease server) ∧
      s.link.inbound.length < 16 ∧
      (enqueueCommand (.flowRelease server) s.link.inbound).head? ≠ some (.flowRelease server)) ∧
    (∃ s : State, s = { State.reset with link.inbound := [.cutAck server] } ∧ s.powered = true ∧
      s.link.inbound.head? = some (.cutAck server) ∧ s.linkReady = false) ∧
    (∃ s : State, s = { idle with link.up := false } ∧ s.powered = true ∧ s.link.up = false ∧
      s.link.inbound.head? ≠ some (.cutAck server)) :=
  ⟨⟨_, rfl, by decide +kernel⟩, ⟨_, rfl, by decide +kernel⟩, ⟨_, rfl, by decide +kernel⟩, ⟨_, rfl, by decide +kernel⟩,
    ⟨_, rfl, by decide +kernel⟩⟩

theorem witness_LinkChecksRefuse :
    Taken idle (.flowRelease stranger) ((Instr.flowRelease stranger).cmd? = some stranger ∧
      (Instr.flowRelease stranger).permitted = some .boundServer ∧
      idle.exempt .boundServer = false ∧ idle.sender stranger = none) ∧
    Taken idle (.flowRelease rack) (idle.exempt .boundServer = false ∧ idle.sender rack = station 0 .rack none .off ∧
      (idle.sender rack).any (fun r => !roleFits .boundServer r) = true) ∧
    Taken idle (.identify { stranger with lengthOk := false })
      ((Instr.identify { stranger with lengthOk := false }).permitted = some .anyStation ∧
      idle.exempt .anyStation = true) ∧
    Taken idle (.flowRelease { server with lengthOk := false }) (idle.exempt .boundServer = false ∧
      (idle.sender { server with lengthOk := false }).any (fun r => roleFits .boundServer r) = true) :=
  ⟨taken (by decide +kernel), taken (by decide +kernel), taken (by decide +kernel), taken (by decide +kernel)⟩

theorem witness_FlowRequestWritesRequest :
    Met idle (.flowRequest server 601 false) server (idle.boundBranch server = some 23 ∧ 600 < 601) ∧
    Met (State.modBr idle 23 (fun b => { b with state := .held })) (.flowRequest server 600 false) server
      ((State.br (State.modBr idle 23 (fun b => { b with state := .held })) 23).state ≠ .active) ∧
    Met idle (.flowRequest server 600 true) server (idle.boundBranch server = some 23 ∧
      (idle.br 23).state = .active ∧ (idle.br 23).request < 600 ∧ idle.arb.nextStamp < 4294967295) ∧
    Met idle (.flowRequest server 100 true) server ((idle.br 23).state = .active ∧ 100 ≤ (idle.br 23).request) ∧
    Met { idle with arb.nextStamp := 4294967294 } (.flowRequest server 101 true) server ((idle.br 23).request < 101 ∧
      4294967294 < 4294967295) :=
  ⟨met (by decide +kernel), met (by decide +kernel), met (by decide +kernel), met (by decide +kernel),
    met (by decide +kernel)⟩

theorem witness_StampsKeepTheirOrder :
    Stands idle (idle.arb.nextStamp < 4294967295) ∧
    Stands { idle with arb.nextStamp := 4294967295 } (idle.byStamp = [23]) :=
  ⟨stands (by decide +kernel), stands (by decide +kernel)⟩

/-- The idle part with branch 23 driven above what it will be granted, with no cut and with one pending. -/
def driven : State := idle.modBr 23 (fun b => { b with drive := 300, grant := 300 })
def cutting : State := idle.modBr 23 (fun b => { b with drive := 300, grant := 200, cut := some ⟨200, 50⟩ })

/-- What a FLOW_RELEASE of branch 23 leaves after its pass. -/
def released (s : State) : State :=
  State.pass (State.modBr (s.taking (.flowRelease server) server) 23
    (fun b => { b with request := 0, urgent := false })) [] []

theorem witness_FlowReleaseZeroesRequest :
    Taken idle (.flowRelease stranger) (idle.sender stranger = none) ∧
    Taken idle (.flowRelease rack) ((idle.sender rack).any (fun r => r.role ≠ .server) = true) ∧
    Taken { idle with link.requesters := idle.link.requesters.set 2 (station 2 .server none .off) } (.flowRelease server)
      ((State.sender { idle with link.requesters := idle.link.requesters.set 2 (station 2 .server none .off) } server).any
        (fun r => r.branch.isNone) = true) ∧
    Met driven (.flowRelease server) server (driven.boundBranch server = some 23 ∧
      (released driven).arb.shortfall = false ∧ ((released driven).br 23).grant < ((released driven).br 23).drive) ∧
    Met idle (.flowRelease server) server (idle.boundBranch server = some 23 ∧ (idle.br 23).state = .active) ∧
    Met (State.modBr idle 23 (fun b => { b with state := .held })) (.flowRelease server) server
      ((State.br (State.modBr idle 23 (fun b => { b with state := .held })) 23).state ≠ .active) :=
  ⟨taken (by decide +kernel), taken (by decide +kernel), taken (by decide +kernel), met (by decide +kernel),
    met (by decide +kernel), met (by decide +kernel)⟩

theorem witness_PendingCutsAreCarriedOut :
    Met idle (.cutAck server) server (idle.boundBranch server = some 23 ∧ (idle.br 23).cut = none) ∧
    Met (State.modBr idle 23 (fun b => { b with drive := 300, grant := 100, cut := some ⟨100, 50⟩ })) (.cutAck server) server
      ((State.br (State.modBr idle 23
      (fun b => { b with drive := 300, grant := 100, cut := some ⟨100, 50⟩ })) 23).cut = some ⟨100, 50⟩ ∧
      (State.br (State.modBr idle 23
      (fun b => { b with drive := 300, grant := 100, cut := some ⟨100, 50⟩ })) 23).grant ≤ 100) ∧
    Stands idle ((idle.br 0).cut = none ∧ (idle.br 23).cut = none) ∧
    Stands (State.modBr idle 23 (fun b => { b with drive := 300, grant := 100, cut := some ⟨100, 50⟩ })) ((State.br
      (State.modBr idle 23
      (fun b => { b with drive := 300, grant := 100, cut := some ⟨100, 50⟩ })) 23).cut = some ⟨100, 50⟩ ∧
      (State.br (State.modBr idle 23
      (fun b => { b with drive := 300, grant := 100, cut := some ⟨100, 50⟩ })) 23).grant ≤ 100) :=
  ⟨met (by decide +kernel), met (by decide +kernel), stands (by decide +kernel), stands (by decide +kernel)⟩

theorem witness_SupplyRecordAges :
    Met idle (.declareSupply supplier 16001) supplier (16000 < 16001) ∧
    Met idle (.declareSupply supplier 16000) supplier (16000 ≤ 16000) ∧
    Met { idle with arb.supply.state := .stale } (.declareSupply supplier 0) supplier (0 ≤ 16000) ∧
    Stands idle (idle.arb.supply.state ≠ .fresh) ∧
    Stands freshSupply (freshSupply.arb.supply.state = .fresh ∧ freshSupply.arb.supply.deadline = some 30000) :=
  ⟨met (by decide +kernel), met (by decide +kernel), met (by decide +kernel), stands (by decide +kernel),
    stands (by decide +kernel)⟩

/-- The idle part with nothing to give. -/
def starved : State := { idle with arb.supply := { state := .stale, declared := 0, lastAt := some 0, deadline := none } }

theorem witness_StepKeepsGrantsInBudget :
    (Stands { idle with pending := [.supplyAgeingExpiry] } True ∧
      State.GrantsFit { idle with pending := [.supplyAgeingExpiry] }) ∧
    (Stands { starved with pending := [.measurementWindowExpiry] } True ∧
      State.GrantsFit { starved with pending := [.measurementWindowExpiry] }) :=
  ⟨⟨stands (by decide +kernel), by unfold State.GrantsFit; decide +kernel⟩, stands (by decide +kernel),
    by unfold State.GrantsFit; decide +kernel⟩

theorem witness_PassOrdersStandings :
    Stands idle (idle.branches.length = 24) ∧
    Stands starved (starved.branches.length = 24) :=
  ⟨stands (by decide +kernel), stands (by decide +kernel)⟩

theorem witness_PassGrantsInFull :
    Stands idle ((idle.pass [] []).floorSum ≤ (idle.pass [] []).available ∧ ((idle.pass [] []).br 22).state ≠ .active ∧
      ((idle.pass [] []).br 0).state = .active ∧ 0 ∉ (idle.pass [] []).arb.standing ∧
      (idle.pass [] []).arb.standing = [23]) :=
  stands (by decide +kernel)

theorem witness_PassGrantsInShortfall :
    Stands starved ((starved.pass [] []).available < (starved.pass [] []).floorSum ∧
      ((starved.pass [] []).br 22).state ≠ .active ∧
      ((starved.pass [] []).br 23).state = .active) :=
  stands (by decide +kernel)

theorem witness_PassKeepsBudgetAndCeilings :
    Stands idle (((idle.pass [] []).br 23).state = .active ∧ (idle.pass [] []).arb.shortfall = false) ∧
    Stands starved (starved.branches.length = 24) :=
  ⟨stands (by decide +kernel), stands (by decide +kernel)⟩

theorem witness_RisesFitTheRoom :
    Stands idle (((riseStep (fun b => b.limits.floor) (idle, idle.room) 23).1.br 23).drive ≠ (idle.br 23).drive ∧
      0 ≠ 23) ∧
    Stands starved (starved.arb.supply.state = .stale) :=
  ⟨stands (by decide +kernel), stands (by decide +kernel)⟩

theorem witness_PassComparesDrives :
    Stands idle (((idle.pass [] []).br 22).state ≠ .active ∧ ((idle.pass [] []).br 23).cut = none) ∧
    Stands driven (((driven.pass [] []).br 23).state = .active ∧ ((driven.pass [] []).br 23).cut = some ⟨100, 2000⟩ ∧
      (driven.br 23).cut = none) ∧
    Stands cutting (((cutting.pass [] []).br 23).cut = some ⟨100, 50⟩ ∧ (cutting.br 23).cut = some ⟨200, 50⟩) :=
  ⟨stands (by decide +kernel), stands (by decide +kernel), stands (by decide +kernel)⟩

theorem witness_StageBranchStages :
    Met idle (.stageBranch rack 23 highGroup) rack ((BranchGroup.checks highGroup).all id = true ∧
      highGroup.entryRequest = some 600) ∧
    Met idle (.stageBranch rack 0 lowGroup) rack ((BranchGroup.checks lowGroup).all id = true ∧
      lowGroup.entryRequest = none) :=
  ⟨met (by decide +kernel), met (by decide +kernel)⟩

theorem witness_SharedGroupsStage :
    Met idle (.stageZone rack 7 (some (0, 23))) rack (7 ≤ 7 ∧ 0 ≤ 23 ∧ 23 ≤ 23) ∧
    Met idle (.stageZone rack 0 none) rack True ∧
    Met idle (.stageChannelClass rack 2 1023 10) rack (2 ≤ 2 ∧ 1023 ≤ 1023 ∧ 10 ≤ 10) ∧
    Met idle (.stageChannelClass rack 0 1 1) rack (1 ≤ 1) ∧
    Met idle (.stageTiming rack lowTiming) rack (lowTiming.measurementWindow ∈ [250, 500, 1000, 2000] ∧
      (timingChecks lowTiming).all id = true) ∧
    Met idle (.stageTiming rack highTiming) rack (highTiming.measurementWindow ∈ [250, 500, 1000, 2000] ∧
      (timingChecks highTiming).all id = true) ∧
    Met idle (.stageSupply rack lowSupply) rack ((SupplyGroup.checks lowSupply).all id = true) ∧
    Met idle (.stageSupply rack highSupply) rack ((SupplyGroup.checks highSupply).all id = true) :=
  ⟨met (by decide +kernel), met (by decide +kernel), met (by decide +kernel), met (by decide +kernel),
    met (by decide +kernel), met (by decide +kernel), met (by decide +kernel), met (by decide +kernel)⟩

/-- The checks are the ranges that the statement spells out (`BranchGroup.checks_ranges`, `timingChecks_ranges`,
`SupplyGroup.checks_ranges`). -/
theorem witness_StageRangesRefuse :
    Met idle (.stageBranch rack 24 highGroup) rack (23 < 24) ∧
    Met idle (.stageBranch rack 23 { highGroup with floor := 601 }) rack
      (FirstOutOfRange (BranchGroup.checks { highGroup with floor := 601 }) 3) ∧
    Met idle (.stageBranch rack 0 { highGroup with entryRequest := some 601 }) rack
      (FirstOutOfRange (BranchGroup.checks { highGroup with entryRequest := some 601 }) 5) ∧
    Met idle (.stageBranch rack 23 { lowGroup with kReturn := 99 }) rack
      (FirstOutOfRange (BranchGroup.checks { lowGroup with kReturn := 99 }) 11) ∧
    Met idle (.stageZone rack 8 none) rack (7 < 8) ∧
    Met idle (.stageZone rack 7 (some (24, 24))) rack (7 ≤ 7 ∧ 23 < 24) ∧
    Met idle (.stageZone rack 7 (some (23, 24))) rack (23 ≤ 23 ∧ 23 < 24) ∧
    Met idle (.stageChannelClass rack 3 1 1) rack (2 < 3) ∧
    Met idle (.stageChannelClass rack 2 0 1) rack (2 ≤ 2) ∧
    Met idle (.stageChannelClass rack 2 1024 1) rack (1023 < 1024) ∧
    Met idle (.stageChannelClass rack 0 1 0) rack (1 ≤ 1) ∧
    Met idle (.stageChannelClass rack 0 1023 11) rack (10 < 11) ∧
    Met idle (.stageTiming rack { lowTiming with measurementWindow := 251 }) rack
      (FirstOutOfRange (timingChecks { lowTiming with measurementWindow := 251 }) 5) ∧
    Met idle (.stageSupply rack { highSupply with hallPolarity := 2 }) rack
      (FirstOutOfRange (SupplyGroup.checks { highSupply with hallPolarity := 2 }) 6) :=
  ⟨met (by decide +kernel), met (by decide +kernel), met (by decide +kernel), met (by decide +kernel),
    met (by decide +kernel), met (by decide +kernel), met (by decide +kernel), met (by decide +kernel),
    met (by decide +kernel), met (by decide +kernel), met (by decide +kernel), met (by decide +kernel),
    met (by decide +kernel), met (by decide +kernel)⟩

/-- The idle part with a staged policy. -/
def staging (p : Policy) : State := { idle with pol.staged := p, pol.dirty := true }

/-- A policy whose branch 22 has its floor above its ceiling. -/
def badPolicy : Policy :=
  { Policy.factory with
    branches := Policy.factory.branches.set 22
      { BranchPolicy.factory with limits := { BranchPolicy.factory.limits with floor := 301 } } }

/-- A policy that leaves branch 0 occupied, gives up branch 23 and brings up branch 1. -/
def newPolicy : Policy :=
  { Policy.factory with
    branches := (Policy.factory.branches.set 0 { BranchPolicy.factory with occupied := true }).set 1
      { BranchPolicy.factory with occupied := true }
    zones := Policy.factory.zones.set 7 (some (0, 23)) }

def hot : Job := { job with phase := .closeSupply, deadline := none }

theorem witness_ApplyRefusesErrors :
    Met (withJob 0 hot) (.applyPolicy rack) rack ((withJob 0 hot).jobs.any Job.beforeHold = true) ∧
    Met (staging badPolicy) (.applyPolicy rack) rack ((staging badPolicy).jobs.any Job.beforeHold = false ∧
      (staging badPolicy).pol.staged.error = some (.floorAboveCeiling, 22)) :=
  ⟨met (by decide +kernel), met (by decide +kernel)⟩

theorem witness_ApplyCopiesStaged :
    Met (staging newPolicy) (.applyPolicy rack) rack ((staging newPolicy).jobs.any Job.beforeHold = false ∧
      newPolicy.error = none ∧
      (idle.br 0).state = .active ∧ (newPolicy.branches.getD 0 BranchPolicy.factory).occupied = true ∧
      (idle.br 23).state = .active ∧ (newPolicy.branches.getD 23 BranchPolicy.factory).occupied = false ∧
      (idle.br 1).state = .vacant ∧ (newPolicy.branches.getD 1 BranchPolicy.factory).occupied = true ∧
      (idle.br 2).state = .vacant ∧ (newPolicy.branches.getD 2 BranchPolicy.factory).occupied = false ∧
      (idle.br 22).state = .maintenance ∧ idle.arb.nextStamp + 24 ≤ 4294967295) :=
  met (by decide +kernel)

theorem witness_DiscardCopiesActive :
    Taken idle (.discardStaged stranger) (idle.sender stranger = none) ∧
    Taken idle (.discardStaged server) ((idle.sender server).any (fun r => r.role ≠ .rack) = true) ∧
    Taken (staging newPolicy) (.discardStaged rack) (((staging newPolicy).sender rack).any
      (fun r => r.role = .rack) = true ∧ rack.lengthOk = true) :=
  ⟨taken (by decide +kernel), taken (by decide +kernel), taken (by decide +kernel)⟩

/-- The idle part with a long command in flight. -/
def withLong (k : LongKind) : State :=
  { idle with link.longs := [{ kind := k, issuer := tool.src, tag := 1, completed := false }] }

/-- The idle part with an image write in progress. -/
def saving (n : SlotName) : State := { withLong .save with store.saving := some (n, idle.snapshot) }

/-- The idle part with a hold write in progress. -/
def writing (n : SlotName) (due : Bool) : State :=
  { idle with store.holding := some (n, HoldRecord.empty), store.furtherDue := due }

theorem witness_SaveWritesImage :
    Met (withLong .save) (.savePolicy rack) rack ((withLong .save).longInFlight .save = true) ∧
    Met idle (.savePolicy rack) rack (idle.longInFlight .save = false ∧ idle.store.image = none) ∧
    Met { idle with store.imageA := some { idle.snapshot with sequence := 65535 } } (.savePolicy rack) rack
      ((Store.image { idle.store with imageA := some { idle.snapshot with sequence := 65535 } }).map (fun k => k.sequence) =
        some 65535) ∧
    Stands idle (idle.store.saving = none) ∧
    Stands (saving .a) ((saving .a).store.saving = some (.a, idle.snapshot)) ∧
    Stands (saving .b) ((saving .b).store.saving = some (.b, idle.snapshot)) ∧
    Stands { saving .a with link.restarting := true } ((saving .a).store.saving = some (.a, idle.snapshot)) ∧
    Stands { saving .b with link.restarting := true } ((saving .b).store.saving = some (.b, idle.snapshot)) :=
  ⟨met (by decide +kernel), met (by decide +kernel), met (by decide +kernel), stands (by decide +kernel),
    stands (by decide +kernel), stands (by decide +kernel), stands (by decide +kernel), stands (by decide +kernel)⟩

/-- The part writing its second slot, with a further write due and a record of a given number in the first. -/
def recorded (n : Nat) : State := { writing .b true with store.holdA := some { HoldRecord.empty with sequence := n } }

theorem witness_HoldWriteEnds :
    Stands idle (idle.store.holding = none) ∧
    Stands (writing .a true) ((writing .a true).store.holding = some (.a, HoldRecord.empty) ∧
      (writing .a true).store.furtherDue = true) ∧
    Stands (writing .b false) ((writing .b false).store.holding = some (.b, HoldRecord.empty) ∧
      (writing .b false).store.furtherDue = false) ∧
    Stands (writing .a true) ((State.holdFailed (writing .a true) .a).store.hold = none) ∧
    Stands (recorded 65534) (((recorded 65534).holdWritten .b { HoldRecord.empty with sequence := 65535 }).store.hold =
      some { HoldRecord.empty with sequence := 65535 }) ∧
    Stands (recorded 65535) (((recorded 65535).holdFailed .b).store.hold = some { HoldRecord.empty with sequence := 65535 }) :=
  ⟨stands (by decide +kernel), stands (by decide +kernel), stands (by decide +kernel), stands (by decide +kernel),
    stands (by decide +kernel), stands (by decide +kernel)⟩

theorem witness_EnterMaintenanceClosesBranch :
    Met idle (.enterMaintenance rack 24) rack (23 < 24) ∧
    Met idle (.enterMaintenance rack 22) rack ((idle.br 22).state ≠ .active) ∧
    Met idle (.enterMaintenance rack 23) rack (23 ≤ 23 ∧ (idle.br 23).state = .active) :=
  ⟨met (by decide +kernel), met (by decide +kernel), met (by decide +kernel)⟩

/-- The idle part with branch 22 occupied under its policy. -/
def occupied22 : State :=
  { idle with pol.active := { Policy.factory with
      branches := Policy.factory.branches.set 22 { BranchPolicy.factory with occupied := true } } }

/-- The idle part with a service move in flight on branch 22. -/
def servicing : State := { idle with bus.service := some ⟨22, 500⟩ }

/-- The idle part with a verify running on branch 22. -/
def verifying : State := { idle with bus.verify := { Verify.reset with branch := some 22, status := .running } }

theorem witness_LeaveMaintenanceByOccupancy :
    Met idle (.leaveMaintenance rack 24) rack (23 < 24) ∧
    Met idle (.leaveMaintenance rack 23) rack ((idle.br 23).state ≠ .maintenance) ∧
    Met servicing (.leaveMaintenance rack 22) rack ((servicing.br 22).state = .maintenance ∧
      servicing.inService 22 = true) ∧
    Met idle (.leaveMaintenance rack 22) rack ((idle.br 22).state = .maintenance ∧ idle.inService 22 = false ∧
      (idle.policyOf 22).occupied = false) ∧
    Met occupied22 (.leaveMaintenance rack 22) rack (occupied22.inService 22 = false ∧
      (occupied22.policyOf 22).occupied = true ∧ occupied22.arb.nextStamp < 4294967295) :=
  ⟨met (by decide +kernel), met (by decide +kernel), met (by decide +kernel), met (by decide +kernel),
    met (by decide +kernel)⟩

/-- The idle part with branch 23 in a trim, with its COMPLETION waiting, and settled. -/
def trimming : State := idle.modBr 23 (fun b => { b with trim := some ⟨tool.src, 1, 0⟩ })
def settled23 : State := idle.modBr 23 (fun b => { b with settled := true, settleRun := 3 })

theorem witness_TrimOnceStartsTrim :
    Met idle (.trimOnce rack 24) rack (23 < 24) ∧
    Met idle (.trimOnce rack 22) rack ((idle.br 22).state ≠ .active) ∧
    Met idle (.trimOnce rack 0) rack ((idle.br 0).state = .active ∧ (idle.br 0).limits.mode ≠ .fixed) ∧
    Met trimming (.trimOnce rack 23) rack ((trimming.br 23).state = .active ∧ (trimming.br 23).limits.mode = .fixed ∧
      (trimming.br 23).trim ≠ none) ∧
    Met (withLong (.trim 23)) (.trimOnce rack 23) rack (((withLong (.trim 23)).br 23).trim = none ∧
      (withLong (.trim 23)).longInFlight (.trim 23) = true) ∧
    Met settled23 (.trimOnce rack 23) rack ((settled23.br 23).state = .active ∧
      (settled23.br 23).limits.mode = .fixed ∧ (settled23.br 23).trim = none ∧
      settled23.longInFlight (.trim 23) = false) ∧
    Met idle (.trimOnce rack 23) rack ((idle.br 23).trim = none ∧ (idle.br 23).settled = false) :=
  ⟨met (by decide +kernel), met (by decide +kernel), met (by decide +kernel), met (by decide +kernel),
    met (by decide +kernel), met (by decide +kernel), met (by decide +kernel)⟩

/-- The idle part with actuator 22 reserved by a job. -/
def reserved22 : State := idle.modAct 22 (fun x => { x with reservedBy := 1 })

/-- The starved part, and one in which branch 22 has its draw already. -/
def drawing : State := starved.modBr 22 (fun b => { b with draw := 300 })

theorem witness_ServiceMoveStarts :
    Met idle (.serviceMove tool 50 0) tool (49 < 50) ∧
    Met idle (.serviceMove tool 49 1001) tool (1000 < 1001) ∧
    Met reserved22 (.serviceMove tool 22 1000) tool ((reserved22.act 22).reservedBy ≠ 0) ∧
    Met idle (.serviceMove tool 48 1000) tool ((idle.act 48).reservedBy = 0 ∧ 48 ≤ 48) ∧
    Met idle (.serviceMove tool 23 1000) tool (23 = supplyOf 23 ∧ (idle.br 23).state ≠ .maintenance) ∧
    Met servicing (.serviceMove tool 46 1000) tool (46 = returnOf 22 ∧ servicing.bus.service ≠ none) ∧
    Met (withLong .service) (.serviceMove tool 22 0) tool (22 = supplyOf 22 ∧
      (withLong .service).longInFlight .service = true) ∧
    Met verifying (.serviceMove tool 22 0) tool (verifying.verifyOn 22 = true) ∧
    Met starved (.serviceMove tool 22 21) tool (starved.bus.service = none ∧ starved.longInFlight .service = false ∧
      starved.verifyOn 22 = false ∧
      (starved.br 22).draw = 0 ∧ starved.available < (starved.br 22).limits.ceiling) ∧
    Met idle (.serviceMove tool 22 21) tool ((idle.br 22).state = .maintenance ∧ idle.bus.service = none ∧
      idle.longInFlight .service = false ∧
      idle.verifyOn 22 = false ∧ (idle.br 22).draw = 0 ∧ (idle.br 22).limits.ceiling ≤ idle.available) ∧
    Met drawing (.serviceMove tool 22 1000) tool (¬ (22 < 24 ∧ 20 < 1000 ∧ (drawing.br 22).draw = 0)) ∧
    Met idle (.serviceMove tool 22 20) tool (¬ (22 < 24 ∧ 20 < 20 ∧ (idle.br 22).draw = 0)) ∧
    Met idle (.serviceMove tool 46 1000) tool (¬ (46 < 24 ∧ 20 < 1000 ∧ (idle.br 22).draw = 0)) :=
  ⟨met (by decide +kernel), met (by decide +kernel), met (by decide +kernel), met (by decide +kernel),
    met (by decide +kernel), met (by decide +kernel), met (by decide +kernel), met (by decide +kernel),
    met (by decide +kernel), met (by decide +kernel), met (by decide +kernel), met (by decide +kernel),
    met (by decide +kernel)⟩

theorem witness_CurveVerifyStarts :
    Met idle (.curveVerify tool 24) tool (23 < 24) ∧
    Met reserved22 (.curveVerify tool 22) tool ((reserved22.act (supplyOf 22)).reservedBy ≠ 0) ∧
    Met idle (.curveVerify tool 23) tool ((idle.act (supplyOf 23)).reservedBy = 0 ∧
      (idle.act (returnOf 23)).reservedBy = 0 ∧ (idle.br 23).state ≠ .maintenance) ∧
    Met verifying (.curveVerify tool 22) tool ((verifying.br 22).state = .maintenance ∧
      verifying.bus.verify.status = .running) ∧
    Met (withLong .verify) (.curveVerify tool 22) tool ((withLong .verify).longInFlight .verify = true) ∧
    Met servicing (.curveVerify tool 22) tool (servicing.serviceBranch = some 22) ∧
    Met { idle with bus.closing := some ⟨3, true⟩ } (.curveVerify tool 22) tool True ∧
    Met starved (.curveVerify tool 22) tool (starved.bus.verify.status ≠ .running ∧
      starved.longInFlight .verify = false ∧ starved.closingOpen = false ∧
      starved.serviceBranch ≠ some 22 ∧ (starved.br 22).draw = 0 ∧ starved.available < (starved.br 22).limits.ceiling) ∧
    Met idle (.curveVerify tool 22) tool (idle.bus.verify.status ≠ .running ∧ idle.longInFlight .verify = false ∧
      idle.closingOpen = false ∧
      idle.serviceBranch ≠ some 22 ∧ (idle.br 22).draw = 0 ∧ (idle.br 22).limits.ceiling ≤ idle.available) ∧
    Met drawing (.curveVerify tool 22) tool ((drawing.br 22).draw ≠ 0) :=
  ⟨met (by decide +kernel), met (by decide +kernel), met (by decide +kernel), met (by decide +kernel),
    met (by decide +kernel), met (by decide +kernel), met (by decide +kernel), met (by decide +kernel),
    met (by decide +kernel), met (by decide +kernel)⟩

/-- The idle part in a bus clear. -/
def clearing (polls : List ActuatorNo) : State :=
  { idle with bus.clearing := some { stopSent := true, polls := polls }, bus.line := .stopping }

theorem witness_BusClearDropsMoves :
    Met (clearing [49]) (.busClear tool) tool ((clearing [49]).bus.clearing ≠ none) ∧
    Met (moved 49 move) (.busClear tool) tool ((moved 49 move).bus.clearing = none ∧
      (moved 49 move).clearList = [49]) :=
  ⟨met (by decide +kernel), met (by decide +kernel)⟩

/-- The idle part with channel 33 in a state, and with an injection on channel 0. -/
def sensing (x : ChannelState) : State := idle.modChan 33 (fun c => { c with state := x })
def injecting : State := idle.modChan 0 (fun c => { c with injected := 60, injectPending := true })

/-- A drill job on branch 23 in SIMULATE, and the part with it. -/
def drillJob : Job := { job with drill := true, phase := .simulate, deadline := some 5000 }
def drilling : State := { withJob 1 drillJob with iso.report := { Sequencer.reset.report with id := 1, status := .running } }

/-- The part with the drill job, one entry of its report open, an injected window in progress, and a real job on branch 0. -/
def drillingBeside (w : Warning) : State :=
  (State.setSlot { drilling with iso.report.entries := [{ pos := 23, outcome := none, latency := none }] } 0 (some { job with
    id := 2, targets := [{ pos := 0, warning := w, supply := .pending, ret := .pending, confirm := .none }] })).modChan 33
    (fun c => { c with state := .wet, injected := 2, drill := true, realAbove := 1, above := 10 })

theorem witness_MaskAndUnmaskChannel :
    Met idle (.maskChannel rack 34) rack (33 < 34) ∧
    Met (withJob 0 hot) (.maskChannel rack 31) rack ((withJob 0 hot).inOpenEvidence 31 = true) ∧
    Met (sensing .masked) (.maskChannel rack 33) rack ((sensing .masked).inOpenEvidence 33 = false ∧
      ((sensing .masked).chan 33).state = .masked) ∧
    Met idle (.maskChannel rack 33) rack (idle.inOpenEvidence 33 = false ∧ (idle.chan 33).state ≠ .masked) ∧
    Met idle (.unmaskChannel rack 34) rack (33 < 34) ∧
    Met idle (.unmaskChannel rack 33) rack ((idle.chan 33).state ≠ .masked) ∧
    Met (sensing .masked) (.unmaskChannel rack 33) rack (((sensing .masked).chan 33).state = .masked) :=
  ⟨met (by decide +kernel), met (by decide +kernel), met (by decide +kernel), met (by decide +kernel),
    met (by decide +kernel), met (by decide +kernel), met (by decide +kernel)⟩

theorem witness_StartDrillInjects :
    Met idle (.startDrill rack 34 1) rack (33 < 34) ∧
    Met idle (.startDrill rack 33 0) rack True ∧
    Met idle (.startDrill rack 33 61) rack (60 < 61) ∧
    Met (sensing .suspect) (.startDrill rack 33 60) rack (((sensing .suspect).chan 33).state = .suspect) ∧
    Met (sensing .wet) (.startDrill rack 33 60) rack (((sensing .wet).chan 33).state = .wet) ∧
    Met (sensing .fault) (.startDrill rack 33 1) rack (((sensing .fault).chan 33).state = .fault) ∧
    Met (sensing .masked) (.startDrill rack 33 1) rack (((sensing .masked).chan 33).state = .masked) ∧
    Met drilling (.startDrill rack 33 1) rack ((drilling.chan 33).state = .dry ∧ drilling.drillJob ≠ none) ∧
    Met injecting (.startDrill rack 33 60) rack ((injecting.chan 33).state = .dry ∧ injecting.injectionOpen = true) ∧
    Met idle (.startDrill rack 33 60) rack ((idle.chan 33).state = .dry ∧ idle.drillJob = none ∧
      idle.injectionOpen = false) :=
  ⟨met (by decide +kernel), met (by decide +kernel), met (by decide +kernel), met (by decide +kernel),
    met (by decide +kernel), met (by decide +kernel), met (by decide +kernel), met (by decide +kernel),
    met (by decide +kernel), met (by decide +kernel)⟩

theorem witness_CancelDrillEndsDrill :
    Met idle (.cancelDrill rack) rack (idle.drillJob = none ∧ idle.injectionOpen = false ∧ idle.drillCaseOpen = false) ∧
    Met drilling (.cancelDrill rack) rack (drilling.drillJob = some drillJob) ∧
    Met injecting (.cancelDrill rack) rack (injecting.injectionOpen = true ∧ injecting.drillJob = none) ∧
    Met { idle with cases := (idle.cases.set 8 (some { caseOf true with drill := true })).set 7 (some
      (caseOf false)) } (.cancelDrill rack) rack True ∧
    Met (drillingBeside .opened) (.cancelDrill rack) rack ((drillingBeside .opened).drillJob = some drillJob ∧
      drillJob.id ≠ 2 ∧ (drillingBeside .opened).job? 2 ≠ none ∧
      (drillingBeside .opened).iso.report.entries.any (fun x => x.outcome = none) = true ∧
      0 < ((drillingBeside .opened).chan 33).injected ∧ ((drillingBeside .opened).chan 33).injectPending = false) :=
  ⟨met (by decide +kernel), met (by decide +kernel), met (by decide +kernel), met (by decide +kernel), met (by decide +kernel)⟩

/-- The idle part with a job on branch 23 in a phase, its warning in a state. -/
def warned (w : Warning) (x : Phase) : State := withJob 0 { job with
  phase := x, targets := [{ pos := 23, warning := w, supply := .pending, ret := .pending, confirm := .none }] }

/-- The idle part with a job that warns branches 0 and 23. -/
def warnedTwice : State := withJob 0 { job with
  targets := [{ pos := 0, warning := .opened, supply := .pending, ret := .pending, confirm := .none },
    { pos := 23, warning := .opened, supply := .pending, ret := .pending, confirm := .none }] }

/-- The warning of branch 23 in the state after its acknowledgement. -/
def acked (s : State) : State :=
  ((s.taking (.warnAck server) server).modJob 1 (fun j => j.modTarget 23 (fun t => { t with warning := .acked }))).recordAck job 23

theorem witness_WarnAckAnswersByWarning :
    Met idle (.warnAck server) server (idle.boundBranch server = some 23 ∧
      idle.jobs.all (fun j => !j.hasTarget 23) = true) ∧
    Met (warned .acked .closeSupply) (.warnAck server) server
      ((warned .acked .closeSupply).jobs.any (fun j => j.hasTarget 23 && j.phase = .closeSupply && j.targets.any
      (fun t => t.warning = .acked)) = true) ∧
    Met (warned .acked .simulate) (.warnAck server) server
      ((warned .acked .simulate).jobs.any (fun j => j.hasTarget 23 && j.phase = .simulate && j.targets.any
      (fun t => t.warning = .acked)) = true) ∧
    Met (warned .expired .drain) (.warnAck server) server
      ((warned .expired .drain).jobs.any (fun j => j.hasTarget 23 && j.phase = .drain && j.targets.any
      (fun t => t.warning = .expired)) = true) ∧
    Met (warned .none .hold) (.warnAck server) server
      ((warned .none .hold).jobs.any (fun j => j.hasTarget 23 && j.phase = .hold && j.targets.any
      (fun t => t.warning = .none)) = true) ∧
    Met (warned .none .notify) (.warnAck server) server
      ((warned .none .notify).jobs.any (fun j => j.hasTarget 23 && j.phase = .notify && j.targets.any
      (fun t => t.warning = .none)) = true) ∧
    Met warnedTwice (.warnAck server) server
      ((acked warnedTwice).jobs.any (fun j => j.phase = .notify && j.warningOpen) = true) ∧
    Met (warned .opened .notify) (.warnAck server) server
      ((acked (warned .opened .notify)).jobs.any (fun j => j.phase = .notify && !j.warningOpen) = true) :=
  ⟨met (by decide +kernel), met (by decide +kernel), met (by decide +kernel), met (by decide +kernel),
    met (by decide +kernel), met (by decide +kernel), met (by decide +kernel), met (by decide +kernel)⟩

theorem witness_ReleaseIsolationFreesBranch :
    Met idle (.releaseIsolation rack 24) rack (23 < 24) ∧
    Met idle (.releaseIsolation rack 23) rack ((idle.br 23).state ≠ .isolated ∧ (idle.br 23).state ≠ .isolating) ∧
    Met (idle.modBr 23 (fun b => { b with state := .isolated })) (.releaseIsolation rack 23) rack
      ((idle.job? 0) = none) ∧
    Met (held (fun j => { j with phase := .confirm })) (.releaseIsolation rack 23) rack
      (((held (fun j => { j with phase := .confirm })).job? 1).any (fun j => j.phase ≠ .hold) = true) ∧
    Met ((held id).modChan 31 (fun c => { c with state := .wet })) (.releaseIsolation rack 23) rack
      (((held id).modChan 31 (fun c => { c with state := .wet })).jobs.map (fun j => ((held id).modChan 31
      (fun c => { c with state := .wet })).wetCause j [23]) =
      [some (.entry { item := .channel 31, drill := false })]) ∧
    Met (held id) (.releaseIsolation rack 23) rack
      ((held id).jobs.map (fun j => (held id).wetCause j [23]) = [none] ∧ ((held id).br 23).state = .isolated ∧
      ((held id).br 23).job = 1) :=
  ⟨met (by decide +kernel), met (by decide +kernel), met (by decide +kernel), met (by decide +kernel),
    met (by decide +kernel), met (by decide +kernel)⟩

/-- The idle part with the rack job. -/
def racked (f : Job → Job) : State := withJob 8 (f rackJob)

theorem witness_ReleaseTrunkOpensTrunk :
    Met idle (.releaseTrunk rack) rack (idle.rackJob = none) ∧
    Met (racked (fun j => { j with trunk := none })) (.releaseTrunk rack) rack
      ((racked (fun j => { j with trunk := none })).rackJob.any (fun j => j.trunk = none) = true) ∧
    Met (racked (fun j => { j with phase := .confirm })) (.releaseTrunk rack) rack
      ((racked (fun j => { j with phase := .confirm })).rackJob.any
      (fun j => j.trunk ≠ none && j.phase ≠ .hold) = true) ∧
    Met ((racked id).modChan 31 (fun c => { c with state := .wet })) (.releaseTrunk rack) rack
      (((racked id).modChan 31 (fun c => { c with state := .wet })).wetCause rackJob [23] ≠ none) ∧
    Met (racked (fun j => { j with targets := job.targets })) (.releaseTrunk rack) rack
      ((racked (fun j => { j with targets := job.targets })).wetCause rackJob [23] = none ∧
      job.targets.any (fun t => t.supply ≠ .ok) = true) ∧
    Met (racked id) (.releaseTrunk rack) rack ((racked id).rackJob = some rackJob ∧ rackJob.trunk ≠ none ∧
      rackJob.phase = .hold ∧ (racked id).wetCause rackJob [23] = none ∧
      rackJob.targets.all (fun t => t.supply = .ok) = true) ∧
    Met { racked id with bus.line := .stopping } (.releaseTrunk rack) rack
      ((State.rackJob { racked id with bus.line := .stopping }) = some rackJob ∧
      (State.wetCause { racked id with bus.line := .stopping } rackJob [23]) = none ∧ (racked id).bus.isoQ = []) :=
  ⟨met (by decide +kernel), met (by decide +kernel), met (by decide +kernel), met (by decide +kernel),
    met (by decide +kernel), met (by decide +kernel), met (by decide +kernel)⟩

theorem witness_IdentifyAnswersAnyStation :
    Taken idle (.identify stranger) (stranger.lengthOk = true) ∧
    ((flowFrame 1).etype = 0x9A34#16 ∧ carriesIdentify (headerOf [1, 1, 0, 26, 0, 0, 0, 0, 0, 0, 0, 0]) = true) :=
  ⟨taken (by decide +kernel), by decide +kernel⟩

/-- The idle part with every requester entry in use. -/
def crowded : State := { idle with
  link.requesters := idle.link.requesters.take 5 ++ (List.range 27).map (fun n => station (n + 5) .server none .off) }

theorem witness_BindAndUnbindRequester :
    Met idle (.bindRequester rack 0x500#48 4 none none) rack (idle.bindRole 0x500#48 4 none none = none) ∧
    Met idle (.bindRequester rack 0x500#48 2 (some 24) none) rack (idle.bindRole 0x500#48 2 (some 24) none = none) ∧
    Met idle (.bindRequester rack 0x500#48 2 (some 23) none) rack
      (idle.bindRole 0x500#48 2 (some 23) none = some .server ∧ idle.clash 0x500#48 .server (some 23) = some 2) ∧
    Met crowded (.bindRequester rack 0x500#48 3 none none) rack
      (crowded.bindRole 0x500#48 3 none none = some .service ∧ crowded.clash 0x500#48 .service none = none ∧
      crowded.entryOf 0x500#48 = none ∧ crowded.emptyEntry = none) ∧
    Met idle (.bindRequester rack 0x102#48 2 (some 22) (some 0x7FFF#16)) rack
      (idle.bindRole 0x102#48 2 (some 22) (some 0x7FFF#16) = some .server ∧
      idle.clash 0x102#48 .server (some 22) = none ∧
      (idle.entryOf 0x102#48).or idle.emptyEntry = some 2 ∧
      (idle.requester 2).any (fun q => q.branch = some 23) = true) ∧
    Met idle (.unbindRequester rack 32) rack (31 < 32) ∧
    Met idle (.unbindRequester rack 31) rack (idle.requester 31 = none) ∧
    Met idle (.unbindRequester rack 2) rack (idle.requester 2 ≠ none) :=
  ⟨met (by decide +kernel), met (by decide +kernel), met (by decide +kernel), met (by decide +kernel),
    met (by decide +kernel), met (by decide +kernel), met (by decide +kernel), met (by decide +kernel)⟩

theorem witness_SetNoticesAndTelemetry :
    Met idle (.setNotices rack 0x8000#16) rack (idle.entryOf rack.src = some 0 ∧ idle.requester 0 ≠ none ∧
      (0x8000#16).getLsbD 15 = true) ∧
    Met idle (.setNotices rack 0x7FFF#16) rack ((0x7FFF#16).getLsbD 15 = false) ∧
    Met idle (.setTelemetry rack 4 0) rack (3 < 4) ∧
    Met idle (.setTelemetry rack 3 0) rack True ∧
    Met idle (.setTelemetry rack 3 256) rack (255 < 256) ∧
    Met idle (.setTelemetry rack 0 0) rack True ∧
    Met idle (.setTelemetry rack 1 0) rack True ∧
    Met idle (.setTelemetry rack 2 0) rack ((idle.requester 0).any (fun r => r.telemetry = .off) = true) ∧
    Met idle (.setTelemetry supplier 2 0) supplier ((idle.requester 1).any (fun r => r.telemetry = .stream) = true) ∧
    Met idle (.setTelemetry tool 2 0) tool ((idle.requester 3).any (fun r => r.telemetry = .counted 3) = true) ∧
    Met idle (.setTelemetry tool 3 255) tool ((idle.requester 3).any (fun r => r.telemetry = .counted 3) = true) ∧
    Met idle (.setTelemetry server 3 1) server ((idle.requester 2).any (fun r => r.telemetry = .snapshot) = true) :=
  ⟨met (by decide +kernel), met (by decide +kernel), met (by decide +kernel), met (by decide +kernel),
    met (by decide +kernel), met (by decide +kernel), met (by decide +kernel), met (by decide +kernel),
    met (by decide +kernel), met (by decide +kernel), met (by decide +kernel), met (by decide +kernel)⟩

theorem witness_RestartShutsTheLink :
    Met idle (.restart rack) rack True :=
  met (by decide +kernel)

theorem witness_ReadsChangeNothing :
    Met idle (.readBranches rack) rack True ∧
    Met idle (.readSupply rack) rack True ∧
    Met idle (.readPending rack) rack True ∧
    Met idle (.readActuators rack) rack True ∧
    Met idle (.readVerify rack) rack True ∧
    Met idle (.readChannels rack) rack True ∧
    Met idle (.readCases rack) rack True ∧
    Met idle (.readJobs rack) rack True ∧
    Met idle (.readDrillReport rack) rack True ∧
    Met idle (.readRequesters rack) rack True ∧
    Met idle (.readPolicy rack 0) rack True ∧
    Met idle (.readPolicy rack 1) rack True ∧
    Met idle (.readPolicy rack 2) rack True :=
  ⟨met (by decide +kernel), met (by decide +kernel), met (by decide +kernel), met (by decide +kernel),
    met (by decide +kernel), met (by decide +kernel), met (by decide +kernel), met (by decide +kernel),
    met (by decide +kernel), met (by decide +kernel), met (by decide +kernel), met (by decide +kernel),
    met (by decide +kernel)⟩

/-- The idle part with both valves of branch 23 at a position and its record changed. -/
def metered (q : Nat) (f : Branch → Branch) : State :=
  ((idle.modBr 23 f).modAct 23 (fun x => { x with position := some q })).modAct 47 (fun x => { x with position := some q })

/-- A meter with a mark, its runs and its count. -/
def gauge (marked : Bool) (silent live pulses : Nat) : Meter :=
  { marked := marked, silentRun := silent, liveRun := live, pulses := pulses }

/-- Branch 23 with a drive and its two meters, METER_FAULT following their marks. -/
def run23 (drive : Nat) (a b : Meter) : Branch → Branch := fun x =>
  { x with drive := drive, supplyMeter := a, returnMeter := b, meterFault := a.marked || b.marked }

/-- What a window expiry leaves. -/
def expired (s : State) : State := (s.advance s.window.deadline).windowExpiry.finish

/-- The flows of branch 23 after a window expiry, and whether its drive has changed by then. -/
def expiredFlows (s : State) : Nat × Nat × Bool :=
  (((expired s).br 23).measuredSupply, ((expired s).br 23).measuredReturn, ((expired s).br 23).driveChanged)

/-- Branch 23 at drive 120 with its return short by more than the threshold, an imbalance flag and its runs. -/
def leaking (flag : Bool) (run clear back : Nat) : State :=
  metered 100 (fun x => { run23 120 (gauge false 0 0 200) (gauge false 0 0 back) x with
    imbalance := flag, imbalanceRun := run, clearRun := clear })

theorem witness_WindowExpiryMeasures :
    Stands idle (0 < (idle.br 23).limits.kSupply * idle.window.length ∧
      0 < (idle.br 23).limits.kReturn * idle.window.length) ∧
    Stands { idle with window.counter := 255 } (255 = 255) ∧
    Stands (metered 100 (run23 1 (gauge false 3 0 0) (gauge false 4 0 0))) (0 < 1 ∧ 100 ≤ 100 ∧ 3 < 4 ∧ 4 ≤ 4) ∧
    Stands (metered 99 (run23 1 (gauge false 4 0 0) (gauge false 4 0 1))) (¬ 100 ≤ 99 ∧ 0 < 1) ∧
    Stands (metered 100 (run23 1 (gauge true 0 1 0) (gauge true 0 0 1))) (0 < 1) ∧
    Stands (metered 100 (run23 1 (gauge true 0 1 1) (gauge false 0 0 1))) (1 ≤ 1) ∧
    Stands (metered 100 (run23 120 (gauge false 0 0 200) (gauge false 0 0 200)))
      (expiredFlows (metered 100 (run23 120 (gauge false 0 0 200) (gauge false 0 0 200))) = (120, 120, false)) ∧
    Stands settled23 (expiredFlows settled23 = (0, 0, false) ∧ (settled23.br 23).drive = 0) ∧
    Stands (settled23.modBr 23 (fun b => { b with driveChanged := true })) True ∧
    Stands (leaking false 3 0 0) (expiredFlows (leaking false 3 0 0) = (120, 0, false) ∧ 3 + 1 < 5) ∧
    Stands (leaking false 4 0 0) (5 ≤ 4 + 1 ∧ (leaking false 4 0 0).pol.active.timing.imbalanceWindows = 5) ∧
    Stands (leaking false 4 0 200) (expiredFlows (leaking false 4 0 200) = (120, 120, false)) ∧
    Stands (leaking true 0 3 200) (3 + 1 < 5) ∧
    Stands (leaking true 0 4 200) (5 ≤ 4 + 1) ∧
    Stands (leaking true 0 4 0) (0 < 5) ∧
    Stands (State.modAct (leaking true 0 4 0) 47 (fun x => { x with moving := true })) True ∧
    Stands (metered 100 (fun x => { x with drive := 49, imbalance := true })) (49 < 50) ∧
    Stands idle (idle.requester 1 = station 1 .supply none .stream ∧ idle.requester 2 = station 2 .server (some 23) .snapshot ∧
      idle.requester 3 = station 3 .service none (.counted 3) ∧ idle.requester 4 = station 4 .server (some 0) .off) :=
  ⟨stands (by decide +kernel), stands (by decide +kernel), stands (by decide +kernel), stands (by decide +kernel),
    stands (by decide +kernel), stands (by decide +kernel), stands (by decide +kernel), stands (by decide +kernel),
    stands (by decide +kernel), stands (by decide +kernel), stands (by decide +kernel), stands (by decide +kernel),
    stands (by decide +kernel), stands (by decide +kernel), stands (by decide +kernel), stands (by decide +kernel),
    stands (by decide +kernel), stands (by decide +kernel)⟩

theorem witness_MeterPulseCounts :
    Stands idle (23 < 24) :=
  stands (by decide +kernel)

/-- The idle part at the last sample of a window, with channel 33 in a state. -/
def sampling (index : Nat) (x : Channel → Channel) : State := { idle.modChan 33 x with sense.index := index }

/-- The window of the next sample is injected on channel 33: an injection runs, or begins with that sample (R124). -/
def Injecting (s : State) : Prop :=
  0 < (s.chan 33).injected ∧ ((s.chan 33).injectPending = false ∨ s.sense.inWindow = false)

/-- A channel with an injection still pending, in a state with a count. -/
def waiting (st : ChannelState) (above : Nat) (c : Channel) : Channel :=
  { c with state := st, above := above, injected := 60, injectPending := true }

theorem witness_SamplesClassifyChannels :
    Stands (sampling 9 (fun c => { c with lostRun := 2 })) ((samples 0 false).length = 34 ∧
      ((sampling 9 (fun c => { c with lostRun := 2 })).chan 33).lostRun = 2) ∧
    Stands (sampling 0 id) ((samples 1023 true).length = 34 ∧ ((sampling 0 id).chan 33).state = .dry ∧
      (sampling 0 id).sense.index < 9 ∧
      ((sampling 0 id).chan 33).sitOut = false ∧ ((sampling 0 id).chan 33).drill = false ∧
      ((sampling 0 id).chan 33).injected = 0) ∧
    Stands (sampling 9 (fun c => { c with state := .suspect, above := 5 })) (((sampling 9
      (fun c => { c with state := .suspect, above := 5 })).chan 33).state = .suspect) ∧
    Stands (sampling 9 (fun c => { c with state := .wet, dryRun := 29 })) (((sampling 9
      (fun c => { c with state := .wet, dryRun := 29 })).chan 33).state = .wet) ∧
    Stands (sampling 8 (fun c => { c with state := .suspect, sitOut := true, lostRun := 1 })) (((sampling 8
      (fun c => { c with state := .suspect, sitOut := true, lostRun := 1 })).chan 33).sitOut = true) ∧
    Stands (sampling 9 (fun c => { c with state := .fault, samples := 9 })) (((sampling 9
      (fun c => { c with state := .fault, samples := 9 })).chan 33).state = .fault) ∧
    Stands (sampling 9 (fun c => { c with injected := 60, realAbove := 5 })) (((sampling 9
      (fun c => { c with injected := 60, realAbove := 5 })).chan 33).injected = 60) ∧
    Stands (sampling 9 (fun c => { c with state := .wet, drill := true, realAbove := 0 })) (((sampling 9
      (fun c => { c with state := .wet, drill := true, realAbove := 0 })).chan 33).drill = true) ∧
    Stands (sensing .masked) (((sensing .masked).chan 33).state = .masked) :=
  ⟨stands (by decide +kernel), stands (by decide +kernel), stands (by decide +kernel), stands (by decide +kernel),
    stands (by decide +kernel), stands (by decide +kernel), stands (by decide +kernel), stands (by decide +kernel),
    stands (by decide +kernel)⟩

/-- A pending injection in the window in progress, on a channel DRY, SUSPECT, WET or sitting out; and the first sample of the
window after it. -/
theorem witness_PendingInjection :
    Stands (sampling 9 (waiting .dry 0)) (((sampling 9 (waiting .dry 0)).chan 33).state = .dry ∧
      (sampling 9 (waiting .dry 0)).sense.inWindow = true) ∧
    Stands (sampling 8 (waiting .suspect 5)) (((sampling 8 (waiting .suspect 5)).chan 33).state = .suspect ∧
      ((sampling 8 (waiting .suspect 5)).chan 33).injectPending = true) ∧
    Stands (sampling 9 (waiting .wet 0)) (((sampling 9 (waiting .wet 0)).chan 33).drill = false) ∧
    Stands (sampling 9 (fun c => { waiting .dry 0 c with sitOut := true }))
      (((sampling 9 (fun c => { waiting .dry 0 c with sitOut := true })).chan 33).sitOut = true) ∧
    Stands { sampling 0 (waiting .suspect 0) with sense.inWindow := false }
      ((State.chan { sampling 0 (waiting .suspect 0) with sense.inWindow := false } 33).injected = 60) ∧
    ¬ Injecting (sampling 9 (waiting .dry 0)) ∧ Injecting { sampling 0 (waiting .suspect 0) with sense.inWindow := false } :=
  ⟨stands (by decide +kernel), stands (by decide +kernel), stands (by decide +kernel), stands (by decide +kernel),
    stands (by decide +kernel), by unfold Injecting; decide +kernel, by unfold Injecting; decide +kernel⟩

/-- The idle part with the case of zone 7 and the base case open. -/
def opened : State := { idle with cases := (idle.cases.set 7 (some (caseOf false))).set 8 (some (caseOf true)) }

/-- The idle part with branches 0 and 23 in zone 7, with a case of zone 7, a base case and a wet tray of branch 23 or none. -/
def zoned (c b : Option Case) (tray : Bool) : State :=
  let s := { idle with pol.derived.zoneMembers := List.replicate 7 [] ++ [[0, 23]], cases := (idle.cases.set 7 c).set 8 b }
  if tray then s.modChan 31 (fun x => { x with state := .wet }) else s

/-- A part whose localization window is 0. -/
def instant (s : State) : State :=
  { s with pol.active := { Policy.factory with timing := { Policy.factory.timing with localizationWindow := 0 } } }

/-- A case with a drill mark. -/
def drillCase (base : Bool) : Case := { caseOf base with drill := true }

/-- The idle part with every branch VACANT. -/
def vacated : State := { idle with branches := List.replicate 24 Branch.reset }

/-- A real and a drill-marked tray entry of branch 23. -/
def trayEvidence (drill : Bool) : Evidence := { item := .channel 31, drill := drill }

theorem witness_CaseDeadlineMakesRequest :
    Stands idle (idle.caseAt 8 = none) ∧
    Stands opened (opened.caseAt 7 = some (caseOf false) ∧ opened.caseAt 8 = some (caseOf true)) :=
  ⟨stands (by decide +kernel), stands (by decide +kernel)⟩

theorem witness_RopeOnset :
    Stands (zoned (some (caseOf false)) none false)
      ((zoned (some (caseOf false)) none false).caseAt 7 = some (caseOf false) ∧ 7 < 8) ∧
    Stands idle (idle.caseAt 8 = none ∧ idle.caseAt 0 = none ∧ idle.zoneMembers 0 = []) ∧
    Stands (zoned none none false) ((zoned none none false).zoneMembers 7 = [0, 23] ∧
      (zoned none none false).caseAt 7 = none ∧ (zoned none none false).caseAt 8 = none) ∧
    Stands opened ((caseOf true).drill = false ∧ (caseOf false).drill = false) ∧
    Stands (zoned (some (drillCase false)) (some (drillCase true)) false) ((drillCase true).drill = true) ∧
    Stands (zoned (some (caseOf false)) (some (drillCase true)) false) ((caseOf false).drill = false) ∧
    Stands (zoned none (some (caseOf true)) false) ((zoned none (some (caseOf true)) false).zoneMembers 0 = [] ∧
      [0, 23].filter ((zoned none (some (caseOf true)) false).activeAt false) = []) ∧
    Stands (zoned none (some (drillCase true)) true)
      ([0, 23].filter ((zoned none (some (drillCase true)) true).activeAt true) = [23]) ∧
    Stands (zoned (some (caseOf false)) (some (caseOf true)) false)
      ((zoned (some (caseOf false)) (some (caseOf true)) false).caseAt 8 = some (caseOf true)) :=
  ⟨stands (by decide +kernel), stands (by decide +kernel), stands (by decide +kernel), stands (by decide +kernel),
    stands (by decide +kernel), stands (by decide +kernel), stands (by decide +kernel), stands (by decide +kernel),
    stands (by decide +kernel)⟩

theorem witness_BaseOnset :
    Stands opened (opened.caseAt 8 ≠ none) ∧
    Stands vacated (vacated.caseAt 8 = none ∧ vacated.positionsWhere (fun b => b.state ≠ .vacant) = []) ∧
    Stands (zoned none none true) ([0, 22, 23].filter ((zoned none none true).activeAt false) = [23]) ∧
    Stands idle (idle.positionsWhere (fun b => b.state ≠ .vacant) = [0, 22, 23] ∧
      [0, 22, 23].filter (idle.activeAt true) = [] ∧ idle.pol.active.timing.localizationWindow ≠ 0) ∧
    Stands (instant idle) ([0, 22, 23].filter ((instant idle).activeAt false) = [] ∧
      (instant idle).pol.active.timing.localizationWindow = 0) :=
  ⟨stands (by decide +kernel), stands (by decide +kernel), stands (by decide +kernel), stands (by decide +kernel),
    stands (by decide +kernel)⟩

theorem witness_FineOnset :
    Stands idle (idle.casesWith 23 (fun _ => true) = [] ∧ idle.link.outbound.length ≤ 96) ∧
    Stands opened (opened.casesWith 23 (fun _ => true) = [(7, caseOf false)] ∧
      opened.casesWith 23 (fun c => !(trayEvidence true).drill || c.drill) = []) ∧
    Stands opened (opened.casesWith 23 (fun c => !(trayEvidence false).drill || c.drill) = [(7, caseOf false)]) ∧
    Stands vacated ((vacated.requestOf .branch true (.channel 31) [23] []).targets = [] ∧ JobLevel.branch ≠ .rack) :=
  ⟨stands (by decide +kernel), stands (by decide +kernel), stands (by decide +kernel), stands (by decide +kernel)⟩

/-- The idle part with a job in UNCONTAINED, one close failed. -/
def uncontained : State := withJob 0 { job with
  phase := .uncontained, deadline := some 5000
  targets := [{ pos := 23, warning := .expired, supply := .failed .stall, ret := .pending, confirm := .none }] }

theorem witness_JobDeadlinesAdvanceJobs :
    Stands idle (idle.job? 255 = none) ∧
    Stands (withJob 0 hot) ((withJob 0 hot).job? 1 = some hot ∧ hot.deadline = none) ∧
    Stands (withJob 0 job) ((withJob 0 job).job? 1 = some job ∧ job.deadline = some 500 ∧ job.phase = .notify ∧
      job.phase ≠ .drain) ∧
    Stands (withJob 0 { job with drill := true })
      ((withJob 0 { job with drill := true }).job? 1 = some { job with drill := true }) ∧
    Stands (warned .expired .drain) (((warned .expired .drain).job? 1).any
      (fun j => j.phase = .drain && j.deadline = some 500) = true) ∧
    Stands uncontained ((uncontained.job? 1).any
      (fun j => j.phase = .uncontained && j.deadline = some 5000 && j.targets.all (fun x => x.pos < 24)) = true) ∧
    Stands drilling (drilling.job? 1 = some drillJob ∧ drillJob.phase = .simulate ∧ drillJob.deadline = some 5000) :=
  ⟨stands (by decide +kernel), stands (by decide +kernel), stands (by decide +kernel), stands (by decide +kernel),
    stands (by decide +kernel), stands (by decide +kernel), stands (by decide +kernel)⟩

/-- The idle part with a job that has no target yet. -/
def joining : State := withJob 0 { job with targets := [] }

/-- The idle part with branch 23 ISOLATING as the target of a job. -/
def closing : State := (warned .expired .closeSupply).modBr 23 (fun b => { b with state := .isolating, job := 1, drive := 100 })

theorem witness_JoiningIsolatesBranch :
    Stands joining (joining.job? 1 ≠ none ∧ ((joining.join 1 23).job? 1) ≠ none ∧ (joining.br 23).state = .active ∧
      22 ≠ 23) :=
  stands (by decide +kernel)

/-- The part with branch 23 ISOLATING in a job and the rack job on branch 0. -/
def besideRack : State := closing.setSlot 8 (some { rackJob with
  id := 2, targets := [{ pos := 0, warning := .acked, supply := .ok, ret := .ok, confirm := .confirmed }] })

/-- The rack job with branch 23 ISOLATING, its closes placed, its trunk there or released. -/
def rackClosing (x : Phase) (trunk : Option Trunk) : State :=
  (racked (fun j => { j with phase := x, trunk := trunk })).modBr 23 (fun b => { b with state := .isolating, job := 1 })

theorem witness_ClosesAreRecorded :
    Stands closing ((closing.job? 1).any (fun j => j.hasTarget 23) = true ∧ (closing.br 23).state = .isolating) ∧
    Stands idle (idle.job? 9 = none) ∧
    Stands closing ((closing.job? 1).any (fun j => !j.hasTarget 22) = true) ∧
    Stands (rackClosing .closeSupply (some { supply := .pending, ret := .pending }))
      ((rackClosing .closeSupply (some { supply := .pending, ret := .pending })).job? 1 ≠ none ∧
      ((rackClosing .closeSupply (some { supply := .pending, ret := .pending })).br 23).state = .isolating) ∧
    Stands closing ((closing.job? 1).any (fun j => !j.drill && j.level ≠ .rack) = true ∧ closing.rackJob = none) ∧
    Stands besideRack (besideRack.rackJob.any (fun r => r.id ≠ 1 && !r.drill && !r.hasTarget 23) = true ∧
      (besideRack.job? 1).any (fun j => j.hasTarget 23 && j.level ≠ .rack) = true) ∧
    Stands (racked id) (((racked id).isoReport 1 23 (.failed .stall)).jobs.all (fun k => k.contained) = true) ∧
    Stands (rackClosing .drain none) (((rackClosing .drain none).isoReport 1 23 (.failed .stall)).jobs.all
      (fun k => !k.contained) = true) :=
  ⟨stands (by decide +kernel), stands (by decide +kernel), stands (by decide +kernel), stands (by decide +kernel),
    stands (by decide +kernel), stands (by decide +kernel), stands (by decide +kernel), stands (by decide +kernel)⟩

/-- The idle part with branch 23 in a state and its supply valve commanded. -/
def flowing (x : BranchState) (job : JobId) : State :=
  (idle.modBr 23 (fun b => { b with state := x, controlTarget := some 700 })).modAct 23 (fun y => { y with
    target := some 700, reservedBy := job })

theorem witness_FlowControlActsOnReports :
    Stands (flowing .active 0) (23 = supplyOf 23 ∧ 47 = returnOf 23 ∧
      ((flowing .active 0).act 23).target = some 700 ∧ ((flowing .active 0).act 23).reservedBy = 0 ∧
      ((flowing .active 0).act 47).reservedBy = 0 ∧ ((flowing .active 0).br 23).state = .active ∧
      ((flowing .active 0).br 23).controlTarget = some 700) ∧
    Stands (flowing .active 1) (((flowing .active 1).act 23).reservedBy ≠ 0) ∧
    Stands (flowing .vacant 0) (((flowing .vacant 0).br 23).state = .vacant) ∧
    Stands (flowing .maintenance 0) (((flowing .maintenance 0).br 23).state = .maintenance) ∧
    Stands (flowing .held 0) (((flowing .held 0).br 23).state = .held) ∧
    Stands (flowing .isolating 0) (((flowing .isolating 0).br 23).state = .isolating) ∧
    Stands (flowing .isolated 0) (((flowing .isolated 0).br 23).state = .isolated) :=
  ⟨stands (by decide +kernel), stands (by decide +kernel), stands (by decide +kernel), stands (by decide +kernel),
    stands (by decide +kernel), stands (by decide +kernel), stands (by decide +kernel)⟩

/-- The idle part with the hall line enabled, its level changed and not yet taken. -/
def edge (enable : Bool) (before after : Level) : State :=
  { idle with pol.active := { Policy.factory with supply := { SupplyPolicy.factory with hallEnable := enable } }
              hall := { level := after, debounced := before, deadline := some 50 } }

theorem witness_LinesDebounce :
    Stands { idle with commissioning := { level := .low, debounced := .high, deadline := some 50 } } True ∧
    Stands idle (idle.commissioning.deadline = none ∧ idle.hall.deadline = none) ∧
    Stands (edge true .high .low) ((edge true .high .low).pol.active.supply.hallEnable = true ∧
      (edge true .high .low).hall.debounced ≠ (edge true .high .low).pol.active.supply.hallPolarity ∧
      (edge true .high .low).hall.level = (edge true .high .low).pol.active.supply.hallPolarity) ∧
    Stands (edge false .high .low) ((edge false .high .low).pol.active.supply.hallEnable = false) ∧
    Stands (edge true .low .high) ((edge true .low .high).hall.debounced =
      (edge true .low .high).pol.active.supply.hallPolarity) ∧
    Stands (edge true .high .high) ((edge true .high .high).hall.level ≠
      (edge true .high .high).pol.active.supply.hallPolarity) :=
  ⟨stands (by decide +kernel), stands (by decide +kernel), stands (by decide +kernel), stands (by decide +kernel),
    stands (by decide +kernel), stands (by decide +kernel)⟩

theorem witness_RepliesUpdateShadows :
    Stands idle (idle.bus.line = .free) ∧
    Stands (online 49 1)
      ((online 49 1).bus.line = .busy { actuator := 49, request := .idle, attempt := 1, sentAt := 0 } ∧ 49 < 50) ∧
    Stands (online 49 2)
      ((online 49 2).bus.line = .busy { actuator := 49, request := .idle, attempt := 2, sentAt := 0 } ∧ 2 ≠ 1) :=
  ⟨stands (by decide +kernel), stands (by decide +kernel), stands (by decide +kernel)⟩

/-- The idle part with actuator 49 polled before. -/
def polled : State := idle.modAct 49 (fun x => { x with lastTx := some 0 })

theorem witness_ValveTimersEndMoves :
    Stands idle ((idle.act 49).move = none) ∧
    Stands (moved 49 { move with started := true })
      (((moved 49 { move with started := true }).act 49).move = some { move with started := true }) ∧
    Stands (moved 49 move) (((moved 49 move).act 49).move = some move ∧ move.startTimer = some 500 ∧
      move.started = false ∧ ((moved 49 move).act 49).lastTx = some 0 ∧
      ((moved 49 move).act 49).moving = true ∧ (moved 49 move).bus.trackDue.contains 49 = false ∧
      (moved 49 move).lineOn 49 = false) ∧
    Stands polled ((polled.act 49).lastTx = some 0 ∧ (polled.act 49).moving = false ∧ (polled.act 49).move = none ∧
      polled.bus.clearing = none ∧ polled.lineOn 49 = false) ∧
    Stands (clearing [49]) ((clearing [49]).bus.line = .stopping ∧
      (clearing [49]).bus.clearing = some { stopSent := true, polls := [49] }) ∧
    Stands (clearing []) ((clearing []).bus.line = .stopping ∧
      (clearing []).bus.clearing = some { stopSent := true, polls := [] }) :=
  ⟨stands (by decide +kernel), stands (by decide +kernel), stands (by decide +kernel), stands (by decide +kernel),
    stands (by decide +kernel), stands (by decide +kernel)⟩

theorem witness_StepKeepsOrder :
    Stands { idle with pending := [.supplyAgeingExpiry] } True :=
  stands (by decide +kernel)

/-! ### Small runs of one step -/

/-- A step answers a next state that passes a check. -/
def after (s : State) (i : Instr) (p : State → Bool) : Bool := match exec i s with
  | .next t => p t
  | .fault _ => false
  | .refused _ => false

theorem test_flow_request_within_ceiling :
    after idle (.flowRequest server 250 true) (fun t => (t.br 23).request = 250 && (t.br 23).urgent &&
      (t.br 23).stamp = some 2 &&
      (t.br 23).grant = 250 && (t.br 23).drive = 250) = true := by decide +kernel

theorem test_flow_request_above_ceiling :
    after idle (.flowRequest server 600 false) (fun t => (t.br 23).request = 600 && (t.br 23).grant = 300) = true := by
  decide +kernel

theorem test_declare_supply_shortfall :
    after idle (.declareSupply supplier 560) (fun t => t.arb.shortfall && (t.br 0).grant = 30 && (t.br 23).grant = 30 &&
      t.arb.supply.deadline = some 30000) = true := by decide +kernel

theorem test_cut_ack_lowers_drive :
    after cutting (.cutAck server) (fun t => (t.br 23).cut = none && (t.br 23).drive = 200 &&
      (t.br 23).overdue = 0) = true := by
  decide +kernel

theorem test_cut_deadline_counts :
    after cutting (.cutDeadlineExpiry 23) (fun t => (t.br 23).drive = 200 &&
      (t.br 23).overdue = 1 && t.now = 50) = true := by
  decide +kernel

theorem test_stage_zone_then_dirty :
    after idle (.stageZone rack 7 (some (0, 23))) (fun t => t.pol.dirty && t.pol.staged.zones[7]? = some (some
      (0, 23)) &&
      t.pol.active = idle.pol.active) = true := by decide +kernel

theorem test_apply_policy_changes_states :
    after (staging newPolicy) (.applyPolicy rack) (fun t => (t.br 1).state = .active && (t.br 23).state = .vacant &&
      (t.br 1).zone = some 7 && t.pol.applied.result = .done) = true := by decide +kernel

theorem test_enter_maintenance_starts_hold_write :
    after idle (.enterMaintenance rack 23) (fun t => (t.br 23).state = .maintenance && (match t.store.holding with
      | some (_, r) => r.maint.getD 23 false
      | none => false)) = true := by decide +kernel

theorem test_service_move_takes_draw :
    after idle (.serviceMove tool 22 500) (fun t => (t.br 22).draw = 300 && t.bus.service = some ⟨22, 500⟩ &&
      t.bus.svcQ.map (fun x => x.actuator) = [22] && t.lineOn 0) = true := by
  decide +kernel

theorem test_bus_clear_stops_the_line :
    after (moved 49 move) (.busClear tool) (fun t => t.bus.line = .stopping && (t.act 49).move = none) = true := by
  decide +kernel

theorem test_base_channel_wet_opens_the_base_case :
    after (sampling 9 (fun c => { c with above := 5 })) (.senseSampleEvent (samples 1023 true)) (fun t =>
      (t.chan 33).state = .wet && (t.chan 32).state = .suspect && (t.caseAt 8).isSome && t.sense.index = 0) = true := by
  decide +kernel

theorem test_base_case_expiry_makes_the_rack_job :
    after opened (.caseDeadlineExpiry 8) (fun t => t.caseAt 8 = none && (t.rackJob.any
      (fun j => j.level = .rack)) && t.now = 3000 &&
      (t.br 23).state = .isolating && (t.br 22).state = .isolating) = true := by decide +kernel

/-- The last sample of a window at which rope 0 leaves FAULT, so that branch 0 may rise, and a base onset makes the rack
job at once. -/
def regained : State :=
  { ((((sampling 9 (fun c => { c with above := 5 })).modChan 0 (fun c => { c with state := .fault, samples := 9 })).modChan 8
      (fun c => { c with state := .masked })).modBr 0 (fun b => { b with
        zone := some 0, guardLevel := .unguarded, effCeiling := b.limits.floor, request := 100, stamp := some 2
        boundTo := none, controlTarget := some 7 })) with
    pol.active := { Policy.factory with
      timing := { Policy.factory.timing with localizationWindow := 0 }
      supply := { Policy.factory.supply with unguardedCap := true } }
    pol.derived.zoneMembers := [[0]] ++ List.replicate 7 [] }

theorem test_joined_branch_gets_no_claim_of_the_guard_pass :
    after regained (.senseSampleEvent (samples 1023 true)) (fun t =>
      (t.br 0).state = .isolating && (t.br 0).drive = 100 && (t.br 0).controlTarget = some 0 && t.bus.line = .free &&
      t.link.outbound.map (fun e => e.notice.kind) = [3, 1, 1, 11, 11]) = true := by decide +kernel

theorem test_trim_cancelled_by_a_job_leaves_control_target_0 :
    after (opened.modBr 23 (fun b => { b with trim := some { issuer := rack.src, tag := 7, windows := 3 }
                                              controlTarget := some 700 }))
      (.caseDeadlineExpiry 8) (fun t =>
      (t.br 23).state = .isolating && (t.br 23).trim = none && (t.br 23).controlTarget = some 0) = true := by decide +kernel

theorem test_warn_ack_in_simulate_is_late :
    after (warned .acked .simulate) (.warnAck server) (fun t => match t.link.sending with
      | some (.reply f) => f.status = .late
      | _ => false) = true := by decide +kernel

/-- The part in NOTIFY with the supply close of branch 23 ended, as after a drift. -/
def closedEarly : State :=
  (withJob 0 { job with targets := [{ pos := 23, warning := .opened, supply := .ok, ret := .pending, confirm := .none }] }).modBr
    23 (fun b => { b with state := .isolating, job := 1, maint := true })

theorem test_close_ended_in_notify_is_latched_at_close_supply :
    after closedEarly (.warnAck server) (fun t =>
      (t.br 23).latched && !(t.br 23).maint && t.store.holding.isSome && (t.job? 1).any (fun j => j.phase = .drain)) = true := by
  decide +kernel

theorem test_first_window_is_in_progress_from_start_up :
    (after (sensing .masked) (.unmaskChannel rack 33) (fun t => (t.chan 33).sitOut) &&
     after { sensing .masked with sense.inWindow := false } (.unmaskChannel rack 33) (fun t => !(t.chan 33).sitOut) &&
     after injecting (.senseSampleEvent (samples 0 true)) (fun t => (t.chan 0).injectPending && (t.chan 0).above = 0) &&
     after { injecting with sense.inWindow := false } (.senseSampleEvent (samples 0 true)) (fun t =>
       !(t.chan 0).injectPending && (t.chan 0).above = 1) &&
     idle.toInjection = 1100) = true := by decide +kernel

theorem test_save_ended_after_restart_tells_nobody :
    after { saving .a with link.restarting := true } (.saveWriteEnd 5 true) (fun t =>
      t.store.imageA = some idle.snapshot && t.link.outbound = []) = true := by decide +kernel

theorem test_return_close_of_a_released_branch_marks_return_open :
    ((idle.isoReport 9 (returnOf 22) (.failed .stall)).br 22).returnOpen = true ∧
    ((idle.isoReport 9 (returnOf 22) .aborted).br 22).returnOpen = false := by decide +kernel

theorem test_trunk_taken_back_in_uncontained_is_latched :
    ((State.setSlot closing 8 (some { rackJob with
      id := 2, phase := .uncontained, trunk := none, deadline := some 5000
      targets := [{ pos := 0, warning := .expired, supply := .failed .stall, ret := .pending, confirm := .none }] })).isoReport
      1 23 (.failed .stall)).store.trunkLatch = true := by decide +kernel

theorem test_hall_edge_makes_the_rack_job :
    after (edge true .high .low) (.lineDebounceExpiry .hall) (fun t =>
      t.rackJob.any (fun j => j.origin = .hallLine && !j.drill)) = true := by decide +kernel

theorem test_warn_ack_closes_supply :
    after ((warned .opened .notify).modBr 23 (fun b => { b with state := .isolating, job := 1 })) (.warnAck server)
      (fun t =>
      (t.job? 1).any (fun j => j.phase = .closeSupply) && t.lineOn 23) = true := by decide +kernel

theorem test_release_isolation_empties_the_job :
    after (held id) (.releaseIsolation rack 23) (fun t =>
      (t.br 23).state = .maintenance && t.job? 1 = none) = true := by
  decide +kernel

theorem test_window_measures_flow :
    after (idle.modBr 23
      (fun b => { b with supplyMeter := { b.supplyMeter with pulses := 500 } })) .measurementWindowExpiry
      (fun t => (t.br 23).measuredSupply = 300 && t.window.counter = 1 && t.window.deadline = 2000) = true := by decide +kernel

theorem test_valve_reply_updates_the_shadow :
    after (online 49 1) (.valveReply 5 { actuator := 49, checkOk := true, position := 1000, flags := noFlags })
      (fun t =>
      (t.act 49).present && (t.act 49).position = some 1000 && t.bus.line = .free) = true := by decide +kernel

theorem test_frame_waits_in_the_queue :
    after idle (.frameArrival 5 (flowFrame 1)) (fun t => t.link.inbound =
      [.flowRequest { server with time := 5 } 300 false]) = true := by decide +kernel

theorem test_power_on_from_a_hold_record :
    after { idle with store.holdA := some { HoldRecord.empty with latched := List.replicate 23 false ++ [true] } }
      (.powerOn 7)
      (fun t => (t.br 23).state = .isolated &&
      (t.br 23).job = 1 && t.now = 7 && t.boot.holdValid) = true := by decide +kernel


end Sys2Proof.Tests
end

/-! ## FLOW_RELEASE (R28): what a pass leaves of one branch, and how a taken command ends -/

namespace Sys2Proof.Machine

/-! ### Branch records -/

/-- A position beyond the table reads as a record after reset. -/
theorem br_eq_reset {s : State} {p : Position} (h : s.branches.length ≤ p) : s.br p = Branch.reset := by
  unfold State.br
  rw [List.getD_eq_getElem?_getD, List.getElem?_eq_none h, Option.getD_none]

/-- An ACTIVE branch stands in the table. -/
theorem lt_of_br_active {s : State} {p : Position} (h : (s.br p).state = .active) : p < s.branches.length := by
  refine Nat.lt_of_not_le (fun hp => ?_)
  rw [br_eq_reset hp] at h
  exact absurd h (by decide)

/-- A position of the table reads as a record of the table. -/
theorem br_mem {s : State} {p : Position} (h : p < s.branches.length) : s.br p ∈ s.branches := by
  unfold State.br
  rw [List.getD_eq_getElem?_getD, List.getElem?_eq_getElem h, Option.getD_some]
  exact List.getElem_mem h

/-- A property of a branch record that a change of one record keeps where it is made. -/
theorem modBr_keeps (P : Branch → Prop) {s : State} {p q : Position} {f : Branch → Branch} (h : P (s.br q))
    (hf : p = q → P (f (s.br q))) : P ((s.modBr p f).br q) := by
  by_cases e : p = q
  · subst e
    by_cases hp : p < s.branches.length
    · rw [modBr_br_self s p f hp]; exact hf rfl
    · have hl := Nat.not_lt.1 hp
      rw [br_eq_reset (by simpa using hl)]
      exact br_eq_reset hl ▸ h
  · rw [modBr_br_ne s f e]; exact h

/-- A field of a branch record that a change of one record does not write. -/
theorem modBr_br_field {β : Type} (g : Branch → β) (s : State) (p q : Position) {f : Branch → Branch}
    (h : ∀ b, g (f b) = g b) : g ((s.modBr p f).br q) = g (s.br q) :=
  modBr_keeps (fun b => g b = g (s.br q)) rfl (fun _ => h _)

/-- States whose branch tables agree under a view agree under it branch by branch. -/
theorem br_view {β : Type} (g : Branch → β) {s t : State} (h : t.branches.map g = s.branches.map g) (p : Position) :
    g (t.br p) = g (s.br p) := by
  have read (u : State) : g (u.br p) = (u.branches.map g).getD p (g Branch.reset) := by
    unfold State.br
    rw [List.getD_eq_getElem?_getD, List.getD_eq_getElem?_getD, List.getElem?_map, Option.getD_map]
  rw [read, read, h]

/-- Two states that agree in `State.still` agree in it branch by branch. -/
theorem br_still {s t : State} (h : t.still = s.still) (p : Position) : (t.br p).still = (s.br p).still :=
  br_view Branch.still (congrArg State.branches h) p

/-- `State.still` keeps the state of a branch. -/
theorem br_state_of_still {s t : State} (h : t.still = s.still) (p : Position) : (t.br p).state = (s.br p).state :=
  show (t.br p).still.state = (s.br p).still.state from congrArg Branch.state (br_still h p)

/-- `State.still` keeps the limits of a branch. -/
theorem br_limits_of_still {s t : State} (h : t.still = s.still) (p : Position) : (t.br p).limits = (s.br p).limits :=
  show (t.br p).still.limits = (s.br p).still.limits from congrArg Branch.limits (br_still h p)

/-! ### The standing order (R29) -/

theorem mem_insertBy {α : Type} (le : α → α → Bool) (a x : α) : ∀ l : List α, x ∈ insertBy le a l ↔ x = a ∨ x ∈ l
  | [] => by simp [insertBy]
  | b :: l => by
    unfold insertBy; split
    · rw [List.mem_cons, List.mem_cons, mem_insertBy le a x l, or_left_comm]
    · exact List.mem_cons

/-- Ordering a list keeps its elements. -/
theorem mem_sortBy {α : Type} (le : α → α → Bool) (x : α) (l : List α) : x ∈ sortBy le l ↔ x ∈ l := by
  have h : ∀ (l acc : List α), x ∈ l.foldl (fun acc a => insertBy le a acc) acc ↔ x ∈ acc ∨ x ∈ l := by
    intro l
    induction l with
    | nil => simp
    | cons a l ih =>
      intro acc
      rw [List.foldl_cons, ih, mem_insertBy, List.mem_cons, or_assoc, or_left_comm]
  exact (h l []).trans (by simp)

/-- The standing order holds the ACTIVE branches whose target is above their floor. -/
theorem mem_standingOrder {s : State} {p : Position} :
    p ∈ s.standingOrder ↔ p < 24 ∧ (s.br p).state = .active ∧ (s.br p).limits.floor < (s.br p).target := by
  simp [State.standingOrder, State.inKeyOrder, mem_sortBy, State.activePositions, State.positionsWhere,
    Config.positions, and_comm]

/-- The standing order is read from the branch records. -/
theorem standingOrder_congr {s t : State} (h : t.branches = s.branches) : t.standingOrder = s.standingOrder := by
  have e : t.br = s.br := by funext p; unfold State.br; rw [h]
  simp only [State.standingOrder, State.inKeyOrder, State.activePositions, State.positionsWhere, e]

/-- The target of an ACTIVE branch that asks for nothing is its floor (R28, R29). -/
theorem target_of_no_request {b : Branch} (hf : b.Fit) (ha : b.state = .active) (hr : b.request = 0) :
    b.target = b.limits.floor := by
  obtain ⟨hfit, hceil, -⟩ := hf
  have hle : b.limits.floor ≤ b.effCeiling := by
    rcases hceil with e | e
    · exact e ▸ hfit
    · exact Nat.le_of_eq e.symm
  unfold Branch.target
  rw [if_pos ha, hr, Nat.zero_max, Nat.min_eq_left hle]

/-! ### Work of the valve bus alone (R69–R71) -/

/-- From `s` to `t` the valve bus alone has changed. -/
def State.BusOnly (s t : State) : Prop := ∃ b : Bus, t = { s with bus := b }

namespace State.BusOnly

variable {s t : State}

theorem refl (s : State) : BusOnly s s := ⟨s.bus, rfl⟩

theorem trans {u : State} (h : BusOnly s t) (k : BusOnly t u) : BusOnly s u := by
  obtain ⟨_, rfl⟩ := h
  obtain ⟨b, rfl⟩ := k
  exact ⟨b, rfl⟩

theorem branches (h : BusOnly s t) : t.branches = s.branches := by obtain ⟨_, rfl⟩ := h; rfl
theorem arb (h : BusOnly s t) : t.arb = s.arb := by obtain ⟨_, rfl⟩ := h; rfl

end State.BusOnly

theorem report_busOnly (s : State) (c : Client) (a : ActuatorNo) (k : ReportKind) : s.BusOnly (s.report c a k) := by
  unfold State.report; split
  · exact .refl s
  · exact ⟨_, rfl⟩

theorem supersede_busOnly (s : State) (a : ActuatorNo) : s.BusOnly (s.supersede a) := by
  unfold State.supersede; split
  · exact .refl s
  · exact report_busOnly s _ _ _

theorem sendMove_busOnly (s : State) (c : Claim) : s.BusOnly (s.sendMove c) :=
  (supersede_busOnly s c.actuator).trans ⟨_, rfl⟩

theorem grantClaim_busOnly (s : State) : s.BusOnly s.grantClaim := by
  have sent (b : Bus) (c : Claim) : s.BusOnly (State.sendMove { s with bus := b } c) :=
    State.BusOnly.trans ⟨b, rfl⟩ (sendMove_busOnly _ c)
  unfold State.grantClaim; split
  · exact ⟨_, rfl⟩
  · exact sent _ _
  · exact sent _ _
  · exact sent _ _
  · exact ⟨_, rfl⟩
  · exact .refl s

theorem grantLine_busOnly (s : State) : s.BusOnly s.grantLine := by
  unfold State.grantLine; split
  · split
    · unfold State.grantClear; split
      · split
        · exact ⟨_, rfl⟩
        · exact State.BusOnly.trans ⟨_, rfl⟩ (grantClaim_busOnly _)
      · exact ⟨_, rfl⟩
    · exact grantClaim_busOnly s
  · exact .refl s

theorem placeFlow_busOnly (s : State) (a : ActuatorNo) (n : Nat) : s.BusOnly (s.placeFlow a n) := by
  unfold State.placeFlow; split
  · exact report_busOnly s _ _ _
  · exact State.BusOnly.trans ⟨_, rfl⟩ (grantLine_busOnly _)

/-! ### A change of drive (R97, R100) -/

/-- From `s` to `t` flow control has acted on branch `p`: the arbiter and the other branches are as they were, and so are
grant, drive and pending cut of `p`. -/
structure State.Steers (p : Position) (s t : State) : Prop where
  arb : t.arb = s.arb
  others : ∀ q, q ≠ p → t.br q = s.br q
  grant : (t.br p).grant = (s.br p).grant
  drive : (t.br p).drive = (s.br p).drive
  cut : (t.br p).cut = (s.br p).cut

namespace State.Steers

variable {p : Position} {b s : State}

theorem refl (p : Position) (s : State) : Steers p s s := ⟨rfl, fun _ _ => rfl, rfl, rfl, rfl⟩

/-- What touches neither the arbiter nor the branch records. -/
theorem same {t : State} (h : Steers p b s) (ha : t.arb = s.arb) (hb : t.branches = s.branches) : Steers p b t := by
  have e : ∀ q, t.br q = s.br q := fun q => by unfold State.br; rw [hb]
  exact ⟨ha.trans h.arb, fun q hq => (e q).trans (h.others q hq), (e p).symm ▸ h.grant, (e p).symm ▸ h.drive,
    (e p).symm ▸ h.cut⟩

theorem modBr (f : Branch → Branch) (h : Steers p b s)
    (hf : ∀ x, (f x).grant = x.grant ∧ (f x).drive = x.drive ∧ (f x).cut = x.cut := by exact fun _ => ⟨rfl, rfl, rfl⟩) :
    Steers p b (s.modBr p f) :=
  ⟨h.arb, fun q hq => (modBr_br_ne s f hq.symm).trans (h.others q hq),
    (modBr_br_field Branch.grant s p p (fun x => (hf x).1)).trans h.grant,
    (modBr_br_field Branch.drive s p p (fun x => (hf x).2.1)).trans h.drive,
    (modBr_br_field Branch.cut s p p (fun x => (hf x).2.2)).trans h.cut⟩

theorem notify (n : Notice) (h : Steers p b s) : Steers p b (s.notify n) := h.same rfl rfl

theorem placeFlow (a : ActuatorNo) (n : Nat) (h : Steers p b s) : Steers p b (s.placeFlow a n) :=
  have k := placeFlow_busOnly s a n
  h.same k.arb k.branches

theorem unsettle (c : SettleCause) (h : Steers p b s) : Steers p b (s.unsettle p c) := by
  have h1 := h.modBr (fun x => { x with settleRun := 0, settled := false })
  unfold State.unsettle; dsimp only; split
  · exact h1.notify _
  · exact h1

theorem returnRule (h : Steers p b s) : Steers p b (s.returnRule p) := by
  unfold State.returnRule; split
  · exact h
  · exact h.placeFlow _ _

theorem followCurve (h : Steers p b s) : Steers p b (s.followCurve p) :=
  (h.modBr (fun x => { x with controlTarget := some ((s.br p).curveTarget (s.br p).drive) })).placeFlow _ _

theorem actOnDrive (h : Steers p b s) : Steers p b (s.actOnDrive p) := by
  have rest := h.modBr (fun x => { x with controlTarget := some 0 })
  unfold State.actOnDrive; split
  · exact h.followCurve.returnRule
  · exact rest
  · exact rest
  · exact rest
  · exact rest
  · exact h

theorem handOver (h : Steers p b s) : Steers p b (s.handOver p) :=
  ((h.modBr (fun x => { x with driveChanged := true })).unsettle .driveChanged).actOnDrive

end State.Steers

theorem handOver_steers (s : State) (p : Position) : State.Steers p s (s.handOver p) := (State.Steers.refl p s).handOver

theorem setDrive_arb (s : State) (p : Position) (d : Nat) : (s.setDrive p d).arb = s.arb := by
  unfold State.setDrive; split
  · rfl
  · exact (handOver_steers _ p).arb

theorem setDrive_br_ne (s : State) {p q : Position} (d : Nat) (h : q ≠ p) : (s.setDrive p d).br q = s.br q := by
  unfold State.setDrive; split
  · rfl
  · exact ((handOver_steers _ p).others q h).trans (modBr_br_ne s _ h.symm)

theorem setDrive_grant (s : State) (p : Position) (d : Nat) : ((s.setDrive p d).br p).grant = (s.br p).grant := by
  unfold State.setDrive; split
  · rfl
  · exact (handOver_steers _ p).grant.trans (modBr_br_field Branch.grant s p p (fun _ => rfl))

/-- The drive that is set is the drive held. -/
theorem setDrive_drive {s : State} {p : Position} (d : Nat) (h : p < s.branches.length) :
    ((s.setDrive p d).br p).drive = d := by
  unfold State.setDrive; split
  · assumption
  · exact (handOver_steers _ p).drive.trans (congrArg Branch.drive (modBr_br_self s p _ h))

/-! ### Stage 3: an ACTIVE branch has its floor when the floors fit (R33) -/

/-- An ACTIVE branch is granted its floor at least. -/
def Branch.FloorGranted (b : Branch) : Prop := b.state = .active → b.limits.floor ≤ b.grant

theorem Branch.FloorGranted.congr {b x : Branch} (h : b.FloorGranted) (hs : x.state = b.state)
    (hl : x.limits = b.limits) (hg : x.grant = b.grant) : x.FloorGranted := by
  intro ha
  rw [hl, hg]
  exact h (hs.symm.trans ha)

/-- A written grant at or above the floor. -/
theorem setGrant_floorGranted {s : State} {p : Position} {g : Nat}
    (h : (s.br p).state = .active → (s.br p).limits.floor ≤ g) : ((s.setGrant p g).br p).FloorGranted := by
  intro ha
  have hp : p < s.branches.length := by simpa [State.setGrant] using lt_of_br_active ha
  unfold State.setGrant at ha ⊢
  rw [modBr_br_self s p _ hp] at ha ⊢
  exact h ha

/-- A written grant leaves the other branches. -/
theorem setGrant_keeps {s : State} {p q : Position} {g : Nat} (hg : (s.br p).state = .active → (s.br p).limits.floor ≤ g)
    (h : (s.br q).FloorGranted) : ((s.setGrant p g).br q).FloorGranted := by
  by_cases e : p = q
  · subst e; exact setGrant_floorGranted hg
  · unfold State.setGrant; rw [modBr_br_ne s _ e]; exact h

theorem grantFloors_floorGranted (s : State) {p : Position} (hp : p < 24) : (s.grantFloors.br p).FloorGranted := by
  have hg (t : State) (q : Position) (h : (t.br q).state = .active) :
      (t.br q).limits.floor ≤ if (t.br q).state = .active then (t.br q).limits.floor else 0 := Nat.le_of_eq (if_pos h).symm
  exact forEach_each (fun _ => True) (fun q t => (t.br q).FloorGranted) _ (fun _ _ _ => trivial)
    (fun t q _ => setGrant_floorGranted (hg t q)) (fun t q _ _ h => setGrant_keeps (hg t q) h) Config.positions s trivial p
    (by simpa [Config.positions] using hp)

/-- The hand-down gives nobody less than its floor (R33). -/
theorem handDown_floorGranted {p : Position} (l : List Position) :
    ∀ x : State × Nat, (x.1.br p).FloorGranted → ((l.foldl handDownStep x).1.br p).FloorGranted := by
  induction l with
  | nil => intro x h; exact h
  | cons q l ih => intro x h; exact ih _ (setGrant_keeps (fun _ => Nat.le_add_right _ _) h)

theorem grantAll_floorGranted {s : State} {p : Position} (hp : p < 24) (h : s.short = false) :
    (s.grantAll.br p).FloorGranted := by
  unfold State.grantAll; rw [h]
  exact handDown_floorGranted _ _ (grantFloors_floorGranted s hp)

/-! ### Stages 4 and 5: a drive above its grant has its pending cut (R35–R37, R41) -/

/-- An ACTIVE branch driven above its grant has a pending cut to that grant. -/
def Branch.CutFollows (b : Branch) : Prop :=
  b.state = .active → b.grant < b.drive → ∃ k, b.cut = some k ∧ k.newDrive = b.grant

/-- A drive set at or below the grant needs no cut. -/
theorem setDrive_cutFollows {s : State} {p : Position} {d : Nat} (h : d ≤ (s.br p).grant) :
    ((s.setDrive p d).br p).CutFollows := by
  intro ha hlt
  rw [br_state_of_still (setDrive_still s p d) p] at ha
  rw [setDrive_grant, setDrive_drive d (lt_of_br_active ha)] at hlt
  exact absurd h (Nat.not_le.2 hlt)

theorem compareDrive_br_ne (s : State) {p q : Position} (h : q ≠ p) : (s.compareDrive p).br q = s.br q := by
  unfold State.compareDrive; dsimp only; repeat' split
  all_goals first
    | rfl
    | exact setDrive_br_ne s _ h
    | exact modBr_br_ne s _ h.symm

theorem compareDrive_arb (s : State) (p : Position) : (s.compareDrive p).arb = s.arb := by
  unfold State.compareDrive; dsimp only; repeat' split
  all_goals first
    | rfl
    | exact setDrive_arb s _ _

/-- Stage 4 writes no grant (R35). -/
theorem State.Keeps.compareDrive {m : Bool} {b s : State} (p : Position) (h : State.Keeps m b s) :
    State.Keeps m b (s.compareDrive p) := by
  unfold State.compareDrive; dsimp only; repeat' split
  all_goals first
    | exact h
    | exact h.setDrive _ _
    | exact h.modBr _ _

/-- Stage 4 for a branch leaves it a cut to its grant, or no drive above its grant (R35–R37). -/
theorem compareDrive_cutFollows (s : State) (p : Position) : ((s.compareDrive p).br p).CutFollows := by
  by_cases ha : (s.br p).state = .active
  · have hp := lt_of_br_active ha
    unfold State.compareDrive; dsimp only
    rw [if_neg (not_not_intro ha)]
    split
    · split
      · split
        · rw [modBr_br_self s p _ hp]; exact fun _ _ => ⟨_, rfl, rfl⟩
        · exact setDrive_cutFollows (Nat.le_refl _)
      · rename_i hle; exact fun _ hlt => absurd hlt hle
    · rename_i k hk
      split
      · split
        · rename_i hd; exact fun _ _ => ⟨k, hk, hd.symm⟩
        · rw [modBr_br_self s p _ hp]; exact fun _ _ => ⟨_, rfl, rfl⟩
      · rename_i hle
        rw [modBr_br_self s p _ hp]; exact fun _ hlt => absurd hlt hle
  · exact fun h => absurd ((br_state_of_still (compareDrive_still s p) p).symm.trans h) ha

/-- Stage 4 over all branches (R35–R37). -/
theorem compareDrives_cutFollows (s : State) {p : Position} (hp : p < 24) :
    ((s.forEach Config.positions State.compareDrive).br p).CutFollows :=
  forEach_each (fun _ => True) (fun q t => (t.br q).CutFollows) State.compareDrive (fun _ _ _ => trivial)
    (fun t q _ => compareDrive_cutFollows t q)
    (fun t q r _ h => by
      by_cases e : r = q
      · subst e; exact compareDrive_cutFollows t r
      · rw [compareDrive_br_ne t e]; exact h)
    Config.positions s trivial p (by simpa [Config.positions] using hp)

/-- A rise toward a level at or below the grant takes no drive above the grant (R41). -/
theorem riseStep_cutFollows {level : Branch → Nat} (hl : ∀ b, level b ≤ b.grant) (x : State × Int) (p q : Position)
    (h : (x.1.br q).CutFollows) : ((riseStep level x p).1.br q).CutFollows := by
  unfold riseStep; dsimp only; split
  · rename_i hm
    by_cases e : q = p
    · subst e
      have := hl (x.1.br q)
      exact setDrive_cutFollows (by omega)
    · rw [setDrive_br_ne x.1 _ e]; exact h
  · exact h

theorem riseRound_cutFollows {level : Branch → Nat} (hl : ∀ b, level b ≤ b.grant) (q : Position) (l : List Position) :
    ∀ x : State × Int, (x.1.br q).CutFollows → ((l.foldl (riseStep level) x).1.br q).CutFollows := by
  induction l with
  | nil => intro x h; exact h
  | cons p l ih => intro x h; exact ih _ (riseStep_cutFollows hl x p q h)

theorem rises_cutFollows {s : State} (ps : List Position) {q : Position} (h : (s.br q).CutFollows) :
    ((s.rises ps).br q).CutFollows := by
  unfold State.rises; split
  · exact h
  · exact riseRound_cutFollows (fun _ => Nat.le_refl _) q _ _
      (riseRound_cutFollows (fun _ => Nat.min_le_left _ _) q _ _ h)

theorem riseRound_arb (level : Branch → Nat) (l : List Position) :
    ∀ x : State × Int, (l.foldl (riseStep level) x).1.arb = x.1.arb := by
  induction l with
  | nil => intro x; rfl
  | cons p l ih =>
    intro x
    rw [List.foldl_cons, ih]
    unfold riseStep; dsimp only; split
    · exact setDrive_arb _ _ _
    · rfl

theorem rises_arb (s : State) (ps : List Position) : (s.rises ps).arb = s.arb := by
  unfold State.rises; split
  · rfl
  · exact (riseRound_arb _ _ _).trans (riseRound_arb _ _ _)

theorem setRiseWaiting_cutFollows {s : State} {q : Position} (h : (s.br q).CutFollows) :
    (s.setRiseWaiting.br q).CutFollows :=
  forEach_keeps (fun t => (t.br q).CutFollows) _ (fun _ _ ht => modBr_keeps Branch.CutFollows ht (fun _ => ht)) _ s h

theorem setRiseWaiting_arb (s : State) : s.setRiseWaiting.arb = s.arb :=
  forEach_leaves State.arb _ (fun s p => modBr_arb s p _) _ s

/-! ### Stage 7: notices change no branch record (R43) -/

theorem warnCut_branches (s : State) (p : Position) : (s.warnCut p).branches = s.branches := by
  unfold State.warnCut; split <;> rfl

theorem warnCut_arb (s : State) (p : Position) : (s.warnCut p).arb = s.arb := by
  unfold State.warnCut; split <;> rfl

theorem demand_branches (s : State) : s.demand.branches = s.branches := by
  unfold State.demand; dsimp only; split <;> rfl

theorem demand_arb (s : State) : s.demand.arb = { s.arb with lastTargets := s.targetSum } := by
  unfold State.demand; dsimp only; split <;> rfl

theorem passNotices_branches (s b : State) (l : List Position) (as : List AlertCause) :
    (s.passNotices b l as).branches = s.branches := by
  unfold State.passNotices; dsimp only
  rw [forEach_leaves State.branches State.alert (fun _ _ => rfl), demand_branches,
    forEach_leaves State.branches _ (fun s p => notify_branches s (s.grantNotice p)),
    forEach_leaves State.branches State.warnCut warnCut_branches]

/-- The notices of a pass change nothing of the arbiter but the sum of targets it compares with next (R45). -/
theorem passNotices_arb (s b : State) (l : List Position) (as : List AlertCause) :
    ∃ n, (s.passNotices b l as).arb = { s.arb with lastTargets := n } := by
  unfold State.passNotices; dsimp only
  rw [forEach_leaves State.arb State.alert (fun _ _ => rfl), demand_arb,
    forEach_leaves State.arb _ (fun s p => notify_arb s (s.grantNotice p)),
    forEach_leaves State.arb State.warnCut warnCut_arb]
  exact ⟨_, rfl⟩

/-! ### The pass, stage by stage (R31) -/

/-- A pass after its grants, stage 3 (R33, R34). -/
def State.granted (s : State) : State := { s.fitDraws.grantAll with arb.shortfall := s.fitDraws.short }

theorem granted_br (s : State) (p : Position) : s.granted.br p = s.fitDraws.grantAll.br p := by
  unfold State.granted State.br; dsimp only

theorem granted_shortfall (s : State) : s.granted.arb.shortfall = s.fitDraws.short := by
  unfold State.granted; dsimp only

/-- A pass after its rises, stage 5 (R41, R42). -/
def State.risen (s : State) : State :=
  ((s.granted.forEach Config.positions State.compareDrive).rises Config.positions).setRiseWaiting

/-- Stages 6 and 7 of a pass that began in `before`: the queues are set and the notices made (R30, R43). -/
def State.announced (s before : State) (l : List Position) (as : List AlertCause) : State :=
  State.passNotices { s.setQueues with work.ran := true } before l as

theorem announced_branches (s before : State) (l : List Position) (as : List AlertCause) :
    (s.announced before l as).branches = s.branches := passNotices_branches _ before l as

theorem announced_standing (s before : State) (l : List Position) (as : List AlertCause) :
    (s.announced before l as).arb.standing = s.standingOrder := by
  obtain ⟨n, e⟩ := passNotices_arb { s.setQueues with work.ran := true } before l as
  exact congrArg Arbiter.standing e

theorem announced_shortfall (s before : State) (l : List Position) (as : List AlertCause) :
    (s.announced before l as).arb.shortfall = s.arb.shortfall := by
  obtain ⟨n, e⟩ := passNotices_arb { s.setQueues with work.ran := true } before l as
  exact (congrArg Arbiter.shortfall e).trans rfl

/-- A pass is its first five stages, then the queues and the notices. -/
theorem pass_eq (s : State) (l : List Position) (as : List AlertCause) : s.pass l as = s.risen.announced s l as := by
  simp only [State.pass, State.risen, State.granted, State.announced]

theorem pass_br (s : State) (l : List Position) (as : List AlertCause) (p : Position) : (s.pass l as).br p = s.risen.br p := by
  rw [pass_eq]; unfold State.br; rw [announced_branches]

theorem risen_arb (s : State) : s.risen.arb = s.granted.arb := by
  unfold State.risen
  rw [setRiseWaiting_arb, rises_arb, forEach_leaves State.arb State.compareDrive compareDrive_arb]

/-- Stages 4 and 5 write no grant. -/
theorem risen_grants (s : State) : s.risen.branches.map Branch.grant = s.granted.branches.map Branch.grant :=
  (((State.Keeps.refl false s.granted).each Config.positions (fun _ p h => h.compareDrive p)).rises
    Config.positions).setRiseWaiting.grants

theorem risen_still (s : State) : s.risen.still = s.granted.still := by
  unfold State.risen
  rw [setRiseWaiting_still, rises_still, forEach_still State.compareDrive compareDrive_still]

/-- A pass leaves the standing order of the branches as they then stand (R29). -/
theorem pass_standing (s : State) (l : List Position) (as : List AlertCause) :
    (s.pass l as).arb.standing = (s.pass l as).standingOrder := by
  rw [pass_eq, announced_standing, standingOrder_congr (announced_branches _ _ _ _)]

/-- SHORTFALL stands after a pass when the floors did not fit after stage 1 (R34). -/
theorem pass_shortfall (s : State) (l : List Position) (as : List AlertCause) :
    (s.pass l as).arb.shortfall = s.fitDraws.short := by
  rw [pass_eq, announced_shortfall, risen_arb, granted_shortfall]

/-- A pass that ends without SHORTFALL grants every ACTIVE branch its floor (R33). -/
theorem pass_floorGranted {s : State} {l : List Position} {as : List AlertCause} {p : Position} (hp : p < 24)
    (h : (s.pass l as).arb.shortfall = false) : ((s.pass l as).br p).FloorGranted := by
  rw [pass_shortfall] at h
  have h1 : (s.granted.br p).FloorGranted := by
    rw [granted_br]; exact grantAll_floorGranted hp h
  rw [pass_br]
  exact h1.congr (br_state_of_still (risen_still s) p) (br_limits_of_still (risen_still s) p)
    (br_view Branch.grant (risen_grants s) p)

/-- A pass that leaves an ACTIVE branch driven above its grant leaves it a pending cut to that grant (R35–R37). -/
theorem pass_cutFollows (s : State) (l : List Position) (as : List AlertCause) {p : Position} (hp : p < 24) :
    ((s.pass l as).br p).CutFollows := by
  rw [pass_br]
  exact setRiseWaiting_cutFollows (rises_cutFollows _ (compareDrives_cutFollows _ hp))

/-! ### How a taken command ends (R175, R176) -/

/-- A command is taken in a part at rest, and the taking leaves it at rest. -/
theorem taking_atRest {s : State} (h : s.AtRest) (i : Instr) (c : Cmd) : (s.taking i c).AtRest :=
  ⟨h.reports, h.granted, h.work⟩

/-- A command that the link refuses changes nothing but its answer (R175). -/
theorem command_refused_by_link {s : State} {i : Instr} {c : Cmd} {m : Permitted} {r : Reason} (hr : s.AtRest)
    (ht : s.takes i) (hc : s.linkCheck m c = some r) (run : Block) :
    s.command i c m i.answering run = s.refused i c r .empty := by
  rw [command_takes ht, hc]
  exact reply_finish (taking_atRest hr i c) _ _ _ _

/-- A command that its block refuses changes nothing but its answer. -/
theorem command_refused_by_block {s : State} {i : Instr} {c : Cmd} {m : Permitted} {r : Reason} {b : ReplyBody}
    {run : Block} (hr : s.AtRest) (ha : s.admits i c) (hm : i.permitted = some m)
    (hb : run (s.taking i c) = (s.taking i c).refuses r b) :
    s.command i c m i.answering run = s.refused i c r b := by
  rw [command_admitted ha hm, hb]
  exact reply_finish (taking_atRest hr i c) _ _ _ _

/-- A command that its block carries out is concluded from the state the block leaves (R176). -/
theorem command_concluded {s t : State} {i : Instr} {c : Cmd} {m : Permitted} {a : Answer} {run : Block}
    (ha : s.admits i c) (hm : i.permitted = some m) (hb : run (s.taking i c) = (t, a)) :
    s.command i c m i.answering run = t.concluded i c a := by
  rw [command_admitted ha hm, hb]; rfl

theorem reply_still (s : State) (w : Answering) (c : Cmd) (n : Nat) (a : Answer) : (s.reply w c n a).still = s.still := by
  unfold State.reply; split <;> rfl

theorem reply_sound {g m : Bool} {s : State} (w : Answering) (c : Cmd) (n : Nat) (a : Answer) (h : s.Sound g m) :
    (s.reply w c n a).Sound g m := by
  unfold State.reply; split
  · exact h.of_same rfl rfl
  · exact h

/-- Between events an orderly part is sound, with no report waiting at all. -/
theorem State.Orderly.sound {s : State} (h : s.Orderly) : s.Sound true true :=
  ⟨h.bounded.outbound, fun _ => h.atRest.granted, fun _ r hr => by rw [h.atRest.reports] at hr; cases hr⟩

/-- The end of an event in which a pass has run at most leaves alone all that `State.still` keeps (R31, R176). -/
theorem State.Calm.concluded {v u : State} (h : State.Calm v u) (hv : v.work = Work.idle) (i : Instr) (c : Cmd) (a : Answer) :
    (u.concluded i c a).still = v.still :=
  ((h.quiet (reply_still _ _ _ _ _) (reply_sound _ _ _ _)).finish (congrArg Work.after hv)).kept

/-! ### FLOW_RELEASE (R28) -/

/-- The request of a branch is withdrawn: request 0 and urgent no (R28). -/
def Branch.withdrawn (b : Branch) : Branch := { b with request := 0, urgent := false }

/-- The state after the release of a branch and before its pass. -/
def State.released (s : State) (p : Position) : State := s.modBr p Branch.withdrawn

/-- FLOW_RELEASE is refused for a branch that is not ACTIVE. -/
theorem flowReleaseOn_refuses {s : State} {p : Position} (h : (s.br p).state ≠ .active) :
    flowReleaseOn p s = s.refuses .branchState .empty := if_pos h

/-- FLOW_RELEASE for an ACTIVE branch: the request is withdrawn, and one pass runs. -/
theorem flowReleaseOn_active {s : State} {p : Position} (h : (s.br p).state = .active) :
    flowReleaseOn p s = ((s.released p).pass [] [], answer .done (((s.released p).pass [] []).flowBody p)) :=
  if_neg (not_not_intro h)

/-- On the sender's bound branch a command works as its block (R19). -/
theorem onBound_of_boundBranch {s : State} {i : Instr} {c : Cmd} {p : Position} (h : s.boundBranch c = some p)
    (run : Position → Block) : onBound c run (s.taking i c) = run p (s.taking i c) := by
  unfold onBound
  rw [show (s.taking i c).boundBranch c = some p from h]

/-- A command of bound servers is refused to a station with no entry, and to one that is not a server bound to a branch
(R175, R19). -/
theorem boundServer_linkCheck {s : State} {c : Cmd} :
    (s.sender c = none → s.linkCheck .boundServer c = some .notRegistered) ∧
    (∀ r, s.sender c = some r → r.role ≠ .server ∨ r.branch = none → s.linkCheck .boundServer c = some .role) := by
  refine ⟨fun h => ?_, fun r h hr => ?_⟩
  · unfold State.linkCheck; rw [h]; rfl
  · have hf : roleFits .boundServer r = false := by
      rcases hr with e | e <;> simp [roleFits, e]
    unfold State.linkCheck; rw [h]
    simp [State.exempt, hf]

/-- What a branch that agrees with a withdrawn one in `Branch.still` has of it (R28). -/
theorem withdrawn_fields {b x : Branch} (h : b.still = x.withdrawn.still) :
    b.request = 0 ∧ b.urgent = false ∧ b.stamp = x.stamp ∧ b.state = x.state ∧ (x.Fit → b.Fit) := by
  refine ⟨?_, ?_, ?_, ?_, ?_⟩
  · exact congrArg Branch.request h
  · exact congrArg Branch.urgent h
  · exact show b.still.stamp = x.withdrawn.still.stamp from h ▸ rfl
  · exact show b.still.state = x.withdrawn.still.state from h ▸ rfl
  · exact show x.withdrawn.still.Fit → b.still.Fit from h ▸ id

/-- A released branch stays withdrawn along its pass and up to any state that agrees in `State.still` with the release. -/
theorem released_br_still {s t : State} {p : Position} (hp : p < s.branches.length) (h : t.still = (s.released p).still) :
    (t.br p).still = (s.br p).withdrawn.still :=
  (br_still h p).trans (congrArg Branch.still (modBr_br_self s p _ hp))

/-- After the pass of its release a branch has its floor as target and no place in the standing order (R28, R29). -/
theorem released_target {s : State} {p : Position} (hf : (s.br p).Fit) (ha : (s.br p).state = .active) :
    (((s.released p).pass [] []).br p).target = (((s.released p).pass [] []).br p).limits.floor ∧
    p ∉ ((s.released p).pass [] []).arb.standing := by
  have hp := lt_of_br_active ha
  obtain ⟨hreq, -, -, hstate, hfit⟩ := withdrawn_fields (released_br_still hp (pass_still (s.released p) [] []))
  have htarget := target_of_no_request (hfit hf) (hstate.trans ha) hreq
  refine ⟨htarget, fun hm => ?_⟩
  rw [pass_standing, mem_standingOrder] at hm
  exact absurd htarget (Nat.ne_of_gt hm.2.2)

/-- The end of a FLOW_RELEASE leaves alone all that `State.still` keeps of the release (R28). -/
theorem released_concluded_still {s : State} (h : s.Orderly) (i : Instr) (c : Cmd) (p : Position) (a : Answer) :
    ((((s.taking i c).released p).pass [] []).concluded i c a).still = ((s.taking i c).released p).still := by
  have hsound : ((s.taking i c).released p).Sound true true := modBr_sound _ _ (h.sound.of_same rfl rfl)
  exact ((State.Calm.refl hsound).pass [] []).concluded h.atRest.work i c a

/-- FLOW_RELEASE runs on the sender's bound branch (R19, R28). -/
theorem exec_flowRelease (c : Cmd) (s : State) : exec (.flowRelease c) s =
    .next (s.command (.flowRelease c) c .boundServer (Instr.flowRelease c).answering (onBound c flowReleaseOn)) := by
  rfl

/-- Settles O13: the checks of the link come first; then the block withdraws the request, and the laws of the pass say what
the branch is left with. -/
theorem flowReleaseZeroesRequest : Obligations.FlowReleaseZeroesRequest := by
  refine ⟨?_, ?_⟩
  · rintro s c i rfl hr ht
    rw [exec_flowRelease]
    exact ⟨fun h => congrArg _ (command_refused_by_link hr ht (boundServer_linkCheck.1 h) _),
      fun r h e => congrArg _ (command_refused_by_link hr ht (boundServer_linkCheck.2 r h e) _)⟩
  · rintro s c p i rfl ho hadm hbound hp
    have hrun := onBound_of_boundBranch (i := .flowRelease c) hbound flowReleaseOn
    rw [exec_flowRelease]
    refine ⟨fun hs => ?_, ?_⟩
    · exact congrArg _ (command_refused_by_block ho.atRest hadm rfl (hrun.trans (flowReleaseOn_refuses hs)))
    · rintro v u hs rfl rfl
      have hlen : p < (s.taking (.flowRelease c) c).branches.length := lt_of_br_active hs
      have hpass := released_br_still hlen (pass_still _ [] [])
      have hstill := released_concluded_still ho (.flowRelease c) c p
      obtain ⟨hreq, -, -, hstate, -⟩ := withdrawn_fields hpass
      have hactive := hstate.trans hs
      obtain ⟨htarget, hstanding⟩ :=
        released_target (s := s.taking (.flowRelease c) c) (ho.fit.branches _ (br_mem hlen)) hs
      obtain ⟨treq, turgent, tstamp, -, -⟩ := withdrawn_fields (released_br_still hlen (hstill _))
      refine ⟨_, congrArg _ (command_concluded hadm rfl (hrun.trans (flowReleaseOn_active hs))), ?_⟩
      refine ⟨?_, treq, turgent, tstamp, htarget, hstanding, hstill _, hactive, ?_, ?_⟩
      · unfold State.flowBody; rw [hreq]; rfl
      · exact fun h => pass_floorGranted hp h hactive
      · exact pass_cutFollows _ [] [] hp hactive

end Sys2Proof.Machine

/-! ## DISCARD_STAGED (R64): a command of given roles, answered by one record -/

namespace Sys2Proof.Machine

/-! ### The checks of the link for a command of given roles (R175) -/

/-- A command of given roles is refused to a station with no entry. -/
theorem linkCheck_roles_of_no_sender {s : State} {c : Cmd} (l : List Role) (h : s.sender c = none) :
    s.linkCheck (.roles l) c = some .notRegistered := by
  unfold State.linkCheck; rw [h]; rfl

/-- A command of given roles is refused to a requester of another role, whatever its length. -/
theorem linkCheck_roles_of_not_mem {s : State} {c : Cmd} {r : Requester} {l : List Role} (h : s.sender c = some r)
    (hr : r.role ∉ l) : s.linkCheck (.roles l) c = some .role := by
  have hf : roleFits (.roles l) r = false := by simpa [roleFits] using hr
  unfold State.linkCheck; rw [h]
  simp [State.exempt, hf]

/-- A command of given roles and of the right length passes the checks for a requester of such a role. -/
theorem linkCheck_roles_of_mem {s : State} {c : Cmd} {r : Requester} {l : List Role} (h : s.sender c = some r)
    (hr : r.role ∈ l) (hl : c.lengthOk = true) : s.linkCheck (.roles l) c = none := by
  have hf : roleFits (.roles l) r = true := by simpa [roleFits] using hr
  unfold State.linkCheck; rw [h]
  simp [State.exempt, hf, hl]

/-- A taken command that passes the checks of the link is admitted. -/
theorem admits_of_linkCheck {s : State} {i : Instr} {c : Cmd} {m : Permitted} (ht : s.takes i)
    (hm : i.permitted = some m) (hc : s.linkCheck m c = none) : s.admits i c :=
  ⟨ht, by rw [hm, Option.all_some, hc]; rfl⟩

/-! ### A command whose block leaves the part at rest (R176) -/

/-- A command whose block leaves the part at rest is answered from the state the block leaves, and the transmitter alone
acts at the end of its event. -/
theorem command_replied {s t : State} {i : Instr} {c : Cmd} {m : Permitted} {a : Answer} {run : Block}
    (ha : s.admits i c) (hm : i.permitted = some m) (hb : run (s.taking i c) = (t, a)) (ht : t.AtRest) :
    s.command i c m i.answering run = t.replied i c a :=
  (command_concluded ha hm hb).trans (reply_finish ht _ _ _ _)

/-- An answer of one record, to a command answered when it asks for it: the record joins the replies that wait, marked
FIRST and without MORE, or nothing changes (R176, R177). -/
theorem reply_wanted_answer (s : State) (c : Cmd) (n : Nat) (st : Status) (b : ReplyBody) :
    s.reply .wanted c n (answer st b) = { s with
      link.replies := s.link.replies ++ (if c.wantReply = true
        then [{ dest := c.src, code := n, tag := c.tag, status := st, reason := .none, first := true, more := false
                body := b, ofTaken := true }] else []) } := by
  by_cases h : c.wantReply = true
  · simp [State.reply, replyFrames, answer, h]
  · simp [State.reply, h]

/-! ### DISCARD_STAGED (R64) -/

/-- The state after the staged copy is discarded: the block's work, without its answer. -/
def State.discarded (s : State) : State := { s with pol.staged := s.pol.active, pol.dirty := false }

/-- DISCARD_STAGED discards the staged copy in every state, and answers DONE. -/
theorem discardBlock_eq (s : State) : discardBlock s = (s.discarded, answer .done .empty) := rfl

/-- Discarding the staged copy leaves the bus and the work of the event alone. -/
theorem discarded_atRest {s : State} (h : s.AtRest) : s.discarded.AtRest := ⟨h.reports, h.granted, h.work⟩

/-- DISCARD_STAGED is a command of RACK that works as its block (R64). -/
theorem exec_discardStaged (c : Cmd) (s : State) : exec (.discardStaged c) s =
    .next (s.command (.discardStaged c) c (.roles [.rack]) (Instr.discardStaged c).answering discardBlock) := by
  rfl

/-- Settles O28: the checks of the link refuse every sender but RACK; for RACK the block copies the active policy, the part
is still at rest, and so the answer alone follows. -/
theorem discardCopiesActive : Obligations.DiscardCopiesActive := by
  rintro s c i rfl hr ht
  rw [exec_discardStaged]
  refine ⟨fun h => ?_, fun r h hrole => ?_, fun r h hrole hl => ?_⟩
  · exact congrArg _ (command_refused_by_link hr ht (linkCheck_roles_of_no_sender _ h) _)
  · exact congrArg _ (command_refused_by_link hr ht (linkCheck_roles_of_not_mem h (by simpa using hrole)) _)
  · have hadm : s.admits (.discardStaged c) c :=
      admits_of_linkCheck ht rfl (linkCheck_roles_of_mem h (by simpa using hrole) hl)
    have hrest := discarded_atRest (taking_atRest hr (.discardStaged c) c)
    have hrun := command_replied hadm rfl (discardBlock_eq _) hrest
    exact congrArg _ (hrun.trans (congrArg State.transmit (reply_wanted_answer _ c 11 .done .empty)))

end Sys2Proof.Machine

/-! ## Commands and steps: what `exec` does with a command, and when the part takes one -/

namespace Sys2Proof.Machine

-- One after another: side by side the proofs of the whole text take more memory than a check may.
set_option Elab.async false

/-! ### The block of a command -/

/-- The work of a command after the checks of the link; an event has none, and its row here is never read. -/
def blockOf : Instr → Block
  | .flowRequest c flow urgent => onBound c (flowRequestOn flow urgent)
  | .flowRelease c => onBound c flowReleaseOn
  | .cutAck c => onBound c cutAckOn
  | .declareSupply _ supply => declareSupplyBlock supply
  | .stageBranch _ p g => stageBlock (inRange 0 23 p) (BranchGroup.checks g)
      (fun q => { q with branches := q.branches.set p (BranchGroup.policy g) })
  | .stageZone _ z e => stageBlock (inRange 0 7 z) (extentChecks e) (fun q => { q with zones := q.zones.set z e })
  | .stageChannelClass _ k threshold confirm => stageBlock (inRange 0 2 k) [inRange 1 1023 threshold, inRange 1 10 confirm]
      (fun q => q.setClass k { threshold := threshold, confirm := confirm })
  | .stageTiming _ g => stageBlock true (timingChecks g) (fun q => { q with timing := g })
  | .stageSupply _ g => stageBlock true (SupplyGroup.checks g) (fun q => { q with supply := SupplyGroup.policy g })
  | .applyPolicy _ => applyPolicyBlock
  | .discardStaged _ => discardBlock
  | .savePolicy c => saveBlock c
  | .enterMaintenance _ p => enterMaintenanceBlock p
  | .leaveMaintenance _ p => leaveMaintenanceBlock p
  | .trimOnce c p => trimOnceBlock c p
  | .serviceMove c a q => serviceMoveBlock c a q
  | .curveVerify c p => curveVerifyBlock c p
  | .busClear _ => busClearBlock
  | .maskChannel _ ch => maskBlock ch
  | .unmaskChannel _ ch => unmaskBlock ch
  | .startDrill _ ch n => startDrillBlock ch n
  | .cancelDrill _ => cancelDrillBlock
  | .warnAck c => onBound c warnAckOn
  | .releaseIsolation _ p => releaseIsolationBlock p
  | .releaseTrunk _ => releaseTrunkBlock
  | .identify c => identifyBlock c
  | .bindRequester _ a r b m => bindBlock a r b m
  | .unbindRequester _ e => unbindBlock e
  | .setNotices c m => setNoticesBlock c m
  | .setTelemetry c k n => setTelemetryBlock c k n
  | .restart _ => restartBlock
  | .readBranches _ => fun s => (s, readAnswer s.branchBodies)
  | .readSupply _ => fun s => (s, readAnswer [.supply s.supplyView])
  | .readPending _ => fun s => (s, readAnswer (if s.pendingView.isEmpty then [] else [.pending s.pendingView]))
  | .readPolicy _ copy => readPolicyBlock copy
  | .readActuators _ => fun s => (s, readAnswer s.actuatorBodies)
  | .readVerify _ => fun s => (s, readAnswer [.verify s.bus.verify])
  | .readChannels _ => fun s => (s, readAnswer ((chunks 16 3 (Config.channels.map s.channelView)).map .channels))
  | .readCases _ => fun s => (s, readAnswer (if s.caseViews.isEmpty then [] else [.cases s.caseViews]))
  | .readJobs _ => fun s => (s, readAnswer s.jobBodies)
  | .readDrillReport _ => fun s => (s, readAnswer [.drillReport s.iso.report])
  | .readRequesters _ => fun s => (s, readAnswer s.requesterBodies)
  | _ => fun s => (s, answer .done .empty)

/-- Every command is taken or waits by the one rule of the link, with its issuers, its kind of answer and its block
(R174–R176). -/
theorem exec_command {i : Instr} {c : Cmd} {m : Permitted} (hc : i.cmd? = some c) (hm : i.permitted = some m) (s : State) :
    exec i s = .next (s.command i c m i.answering (blockOf i)) := by
  cases i <;> cases hc <;> cases hm <;> rfl

/-- A command has issuers (command tables of the Introduction). -/
theorem permitted_of_command {i : Instr} {c : Cmd} (hc : i.cmd? = some c) : ∃ m, i.permitted = some m := by
  cases i <;> cases hc <;> exact ⟨_, rfl⟩

/-- READ_POLICY only answers, whatever the copy (R65). -/
theorem readPolicyBlock_fst (n : Nat) (s : State) : (readPolicyBlock n s).1 = s := by
  unfold readPolicyBlock; split <;> rfl

/-- The block of every command keeps the sizes, bounds and order of the part. -/
theorem blockOf_keeps (i : Instr) : Block.Keeps (blockOf i) := by
  cases i with
  | flowRequest c f u => exact onBound_keeps c _ (flowRequestOn_keeps f u)
  | flowRelease c => exact onBound_keeps c _ flowReleaseOn_keeps
  | cutAck c => exact onBound_keeps c _ cutAckOn_keeps
  | declareSupply c n => exact declareSupplyBlock_keeps n
  | stageBranch c p g => exact stageBlock_keeps _ _ _
  | stageZone c z e => exact stageBlock_keeps _ _ _
  | stageChannelClass c k t n => exact stageBlock_keeps _ _ _
  | stageTiming c g => exact stageBlock_keeps _ _ _
  | stageSupply c g => exact stageBlock_keeps _ _ _
  | applyPolicy c => exact applyPolicyBlock_keeps
  | discardStaged c => exact discardBlock_keeps
  | savePolicy c => exact saveBlock_keeps c
  | enterMaintenance c p => exact enterMaintenanceBlock_keeps p
  | leaveMaintenance c p => exact leaveMaintenanceBlock_keeps p
  | trimOnce c p => exact trimOnceBlock_keeps c p
  | serviceMove c a q => exact serviceMoveBlock_keeps c a q
  | curveVerify c p => exact curveVerifyBlock_keeps c p
  | busClear c => exact busClearBlock_keeps
  | maskChannel c n => exact maskBlock_keeps n
  | unmaskChannel c n => exact unmaskBlock_keeps n
  | startDrill c n k => exact startDrillBlock_keeps n k
  | cancelDrill c => exact cancelDrillBlock_keeps
  | warnAck c => exact onBound_keeps c _ warnAckOn_keeps
  | releaseIsolation c p => exact releaseIsolationBlock_keeps p
  | releaseTrunk c => exact releaseTrunkBlock_keeps
  | bindRequester c a r b m => exact bindBlock_keeps a r b m
  | unbindRequester c e => exact unbindBlock_keeps e
  | setNotices c m => exact setNoticesBlock_keeps c m
  | setTelemetry c k n => exact setTelemetryBlock_keeps c k n
  | restart c => exact restartBlock_keeps
  | readPolicy c n => exact unchanged_keeps (readPolicyBlock_fst n)
  | _ => exact unchanged_keeps (fun _ => rfl)

/-! ### The step -/

/-- Settles O1: `step` matches on the queue. -/
theorem stepTakesFront : Obligations.StepTakesFront := by
  intro s i rest h
  unfold step; rw [h]

/-- Settles O2: `State.headReady` asks for power, a ready link and a command at the head. -/
theorem stepOnEmptyQueue : Obligations.StepOnEmptyQueue := by
  refine fun s hs => ⟨fun i c l hp hr hl hc => ?_, fun h => ?_⟩
  · have hh : s.headReady = some i := by simp [State.headReady, hl, hp, hr, hc]
    unfold step; rw [hs, hh]
  · have hh : s.headReady = none := by
      unfold State.headReady
      split
      · rfl
      · rename_i i l hl
        rcases h with h | h | h
        · simp [h]
        · simp [h]
        · rw [hl] at h; cases h
    unfold step; rw [hs, hh]

/-! ### Where the part stops (log 29) -/

theorem event_next (s : State) (f : State → State) : ∃ t, s.event f = .next t := ⟨_, rfl⟩

theorem unitEvent_next (s : State) {known : Bool} (h : known = true) (f : State → State) :
    ∃ t, s.unitEvent known f = .next t := by
  unfold State.unitEvent; rw [h]; exact event_next s f

theorem unitEvent_fault (s : State) {known : Bool} (h : known = false) (f : State → State) :
    s.unitEvent known f = .fault .noSuchUnit := by
  unfold State.unitEvent; rw [h]; rfl

/-- Settles O3: only `State.unitEvent` can fault, where the part has not the unit an event names. -/
theorem stopsOnlyOnUnknownUnits : Obligations.StopsOnlyOnUnknownUnits := by
  refine ⟨fun i s hw => ?_, fun s => ⟨fun p h => ?_, fun t n h => ?_, fun l h => ⟨?_, ?_⟩, fun e h => ?_,
    fun a h => ⟨?_, ?_, ?_, ?_⟩⟩⟩
  · cases i with
    | cutDeadlineExpiry p => exact unitEvent_next s hw _
    | meterPulse t n => exact unitEvent_next s hw _
    | senseSampleEvent l => exact unitEvent_next s (Bool.and_eq_true_iff.1 hw).1 _
    | senseWindowEnd l => exact unitEvent_next s (Bool.and_eq_true_iff.1 hw).1 _
    | caseDeadlineExpiry e => exact unitEvent_next s hw _
    | startTimerExpiry a => exact unitEvent_next s hw _
    | moveTimerExpiry a => exact unitEvent_next s hw _
    | trackingPollDue a => exact unitEvent_next s hw _
    | idlePollDue a => exact unitEvent_next s hw _
    | _ => exact ⟨_, rfl⟩
  · exact unitEvent_fault s (decide_eq_false (Nat.not_le.2 h)) _
  · exact unitEvent_fault s (decide_eq_false (Nat.not_le.2 h)) _
  · exact unitEvent_fault s (decide_eq_false h) _
  · exact unitEvent_fault s (decide_eq_false h) _
  · exact unitEvent_fault s (decide_eq_false (Nat.not_le.2 h)) _
  all_goals exact unitEvent_fault s (decide_eq_false (Nat.not_le.2 h)) _

/-! ### A command that waits, and one that is refused by the link (R169, R174, R175) -/

/-- A command that is not the head of the queue of a part with power and a link is offered to the queue (R174). -/
theorem command_offered {s : State} {i : Instr} (hp : s.powered = true) (hu : s.link.up = true)
    (hh : s.link.inbound.head? ≠ some i) (c : Cmd) (m : Permitted) (w : Answering) (run : Block)
    (hn : s.linkReady = false ∨ ((s.advance c.time).offer i c).link.inbound.head? ≠ some i) :
    s.command i c m w run = ((s.advance c.time).offer i c).transmit := by
  have hr : s.receives i = true := by simp [State.receives, hu]
  have hh' : (s.advance c.time).link.inbound.head? ≠ some i := hh
  have hl : ((s.advance c.time).offer i c).linkReady = true → s.linkReady = true := by
    unfold State.offer; split
    · exact id
    · intro h; simpa [State.linkReady, Link.replyOpen, State.handReply, refusedAtArrival, State.advance] using h
  have hoff : (((s.advance c.time).offer i c).linkReady &&
      decide (((s.advance c.time).offer i c).link.inbound.head? = some i)) = false := by
    rw [Bool.and_eq_false_iff, decide_eq_false_iff_not]
    exact hn.imp_left (fun h => Bool.eq_false_iff.2 (fun e => Bool.false_ne_true (h.symm.trans (hl e))))
  unfold State.command
  rw [if_pos (by rw [hp, hr]; rfl)]
  dsimp only
  rw [if_neg hh', hoff]
  rfl

/-- A full queue refuses a command with QUEUE_FULL (R174). -/
theorem offer_full {s : State} (h : 16 ≤ s.link.inbound.length) (i : Instr) (c : Cmd) :
    s.offer i c = s.handReply (refusedAtArrival c.src i.code c.tag .queueFull) :=
  if_neg (Nat.not_lt.2 h)

/-- A queue with room takes a command in its place (R174). -/
theorem offer_room {s : State} (h : s.link.inbound.length < 16) (i : Instr) (c : Cmd) :
    s.offer i c = { s with link.inbound := enqueueCommand i s.link.inbound } :=
  if_pos h

/-- Settles O9: `State.command` offers a command that is not the head, and takes the head only with a ready link. -/
theorem commandWaitsOrOverflows : Obligations.CommandWaitsOrOverflows := by
  intro s i c hc hp
  obtain ⟨m, hm⟩ := permitted_of_command hc
  rw [exec_command hc hm]
  refine ⟨fun hu hh hl => ?_, fun hu hh hl hn => ?_, fun hh hr => ?_, fun hu hh => ?_⟩
  · have hfull := offer_full (s := s.advance c.time) hl i c
    rw [command_offered hp hu hh _ _ _ _ (Or.inr (by rw [hfull]; exact hh)), hfull]
  · have hroom := offer_room (s := s.advance c.time) hl i c
    rw [command_offered hp hu hh _ _ _ _ (hn.imp_right (fun h => by rw [hroom]; exact h)), hroom]
    rfl
  · have hrec : s.receives i = true := by simp [State.receives, hh]
    have hh' : (s.advance c.time).link.inbound.head? = some i := hh
    have hr' : (s.advance c.time).linkReady = false := hr
    unfold State.command
    rw [if_pos (by rw [hp, hrec]; rfl)]
    dsimp only
    rw [if_pos hh', hr', Bool.false_and]
    rfl
  · have hrec : s.receives i = false := by simp [State.receives, hu, hh]
    unfold State.command
    rw [if_neg (by rw [hrec, Bool.and_false]; exact Bool.false_ne_true)]

/-- Settles O10: the checks of the link come in the order of `State.linkCheck`, and what they refuse is only answered. -/
theorem linkChecksRefuse : Obligations.LinkChecksRefuse := by
  intro s i c m hr ht hc hm
  rw [exec_command hc hm]
  refine ⟨fun he hs => ?_, fun r he hs hf => ?_, fun he hl => ?_, fun r he hs hf hl => ?_⟩
  · exact congrArg _ (command_refused_by_link hr ht (by simp [State.linkCheck, he, hs]) _)
  · exact congrArg _ (command_refused_by_link hr ht (by simp [State.linkCheck, he, hs, hf]) _)
  · exact congrArg _ (command_refused_by_link hr ht (by simp [State.linkCheck, he, hl]) _)
  · exact congrArg _ (command_refused_by_link hr ht (by simp [State.linkCheck, he, hs, hf, hl]) _)

end Sys2Proof.Machine

/-! ## The allocation pass (R31–R46): its laws, stage by stage -/

namespace Sys2Proof.Machine

-- One after another: side by side the proofs of the whole text take more memory than a check may.
set_option Elab.async false

/-! ### Sums -/

/-- The model's sum is the sum of the list of values. -/
theorem sumOf_eq_sum {α : Type} (f : α → Nat) : ∀ l : List α, sumOf f l = (l.map f).sum
  | [] => rfl
  | a :: l => by rw [sumOf_cons, sumOf_eq_sum f l, List.map_cons, List.sum_cons]

/-- Sums of equal values are equal. -/
theorem sumOf_congr {α : Type} {f g : α → Nat} {l : List α} (h : ∀ a ∈ l, f a = g a) : sumOf f l = sumOf g l := by
  rw [sumOf_eq_sum, sumOf_eq_sum, List.map_congr_left h]

/-- A sum is read through a view of the elements. -/
theorem sumOf_view {α β : Type} {f : α → Nat} {g : α → β} (v : β → Nat) (hv : ∀ a, f a = v (g a)) {l m : List α}
    (h : m.map g = l.map g) : sumOf f m = sumOf f l := by
  have e (k : List α) : sumOf f k = sumOf v (k.map g) := by
    rw [sumOf_map]; exact sumOf_congr (fun a _ => hv a)
  rw [e, e, h]

/-- What the change of one element does to a sum. -/
theorem sumOf_modify {α : Type} (f : α → Nat) (g : α → α) :
    ∀ (l : List α) (i : Nat) (d : α), i < l.length → sumOf f (l.modify i g) + f (l.getD i d) = sumOf f l + f (g (l.getD i d))
  | [], _, _, h => absurd h (Nat.not_lt_zero _)
  | a :: l, 0, d, _ => by
    simp only [List.modify_zero_cons, sumOf_cons, List.getD_cons_zero]; omega
  | a :: l, i + 1, d, h => by
    have := sumOf_modify f g l i d (Nat.lt_of_succ_lt_succ h)
    simp only [List.modify_succ_cons, sumOf_cons, List.getD_cons_succ]; omega

/-- Parts rounded down add up to no more than the whole rounded down. -/
theorem sumOf_div_le {α : Type} (f : α → Nat) (n : Nat) : ∀ l : List α, sumOf (fun a => f a / n) l ≤ sumOf f l / n
  | [] => Nat.zero_le _
  | a :: l => by
    rw [sumOf_cons, sumOf_cons]
    exact Nat.le_trans (Nat.add_le_add_left (sumOf_div_le f n l) _) (Nat.div_add_div_le_add_div)

theorem sumOf_mul {α : Type} (f : α → Nat) (n : Nat) : ∀ l : List α, sumOf (fun a => f a * n) l = sumOf f l * n
  | [] => (Nat.zero_mul n).symm
  | a :: l => by rw [sumOf_cons, sumOf_cons, sumOf_mul f n l, Nat.add_mul]

theorem sumOf_zero {α : Type} : ∀ l : List α, sumOf (fun _ => 0) l = 0
  | [] => rfl
  | _ :: l => by rw [sumOf_cons, sumOf_zero l]

/-- The table of a part of 24 branches is its records by position. -/
theorem branches_eq_map {s : State} (h : s.branches.length = 24) : s.branches = Config.positions.map s.br := by
  refine List.ext_getElem (by simp [Config.positions, h]) (fun p h1 _ => ?_)
  simp [Config.positions, State.br, List.getD_eq_getElem?_getD, h1]

/-- A sum over the branches is a sum over the positions. -/
theorem sumOf_branches {s : State} (h : s.branches.length = 24) (f : Branch → Nat) :
    sumOf f s.branches = sumOf (fun p => f (s.br p)) Config.positions :=
  (congrArg (sumOf f) (branches_eq_map h)).trans (sumOf_map _ _ _)

theorem mem_positions {p : Position} : p ∈ Config.positions ↔ p < 24 := List.mem_range

/-! ### What a change of drive leaves of the branches (R97, R100) -/

/-- A branch record without what flow control writes when a drive is handed to it. -/
def Branch.unsteered (b : Branch) : Branch :=
  { b with settled := false, settleRun := 0, driveChanged := false, controlTarget := none }

/-- A branch record without what a change of drive, a cut or a rise may write. -/
def Branch.undriven (b : Branch) : Branch := { b.unsteered with drive := 0, cut := none, riseWaiting := false }

/-- The branches under a view are as they were. -/
def State.Same {β : Type} (g : Branch → β) (s t : State) : Prop := t.branches.map g = s.branches.map g

namespace State.Same

variable {β : Type} {g : Branch → β} {b s : State}

theorem refl (g : Branch → β) (s : State) : Same g s s := rfl
theorem trans {t : State} (h : Same g b s) (k : Same g s t) : Same g b t := Eq.trans k h
theorem table {t : State} (h : Same g b s) (e : t.branches = s.branches) : Same g b t := (congrArg _ e).trans h

/-- A coarser view. -/
theorem view {γ : Type} {f : Branch → γ} (v : β → γ) (h : Same g b s) (e : ∀ x, f x = v (g x)) : Same f b s := by
  have e' : f = v ∘ g := funext e
  show s.branches.map f = b.branches.map f
  rw [e', ← List.map_map, ← List.map_map]
  exact congrArg _ h

theorem modBr (p : Position) (f : Branch → Branch) (h : Same g b s) (hf : ∀ x, g (f x) = g x) : Same g b (s.modBr p f) :=
  (map_modify_same g f hf _ _).trans h

theorem each {α : Type} {f : State → α → State} (l : List α) (h : Same g b s) (hf : ∀ s a, Same g s (f s a)) :
    Same g b (s.forEach l f) := forEach_keeps (Same g b) f (fun _ _ k => k.trans (hf _ _)) l s h

theorem br (h : Same g b s) (p : Position) : g (s.br p) = g (b.br p) := br_view g h p

/-- A field that the view shows. -/
theorem field {γ : Type} {g : Branch → Branch} (h : Same g b s) (p : Position) (f : Branch → γ) (e : ∀ x, f (g x) = f x) :
    f (s.br p) = f (b.br p) := by
  rw [← e, h.br p, e]

theorem length (h : Same g b s) : s.branches.length = b.branches.length := by
  have := congrArg List.length h; simpa using this

theorem sum (h : Same g b s) {f : Branch → Nat} (v : β → Nat) (e : ∀ x, f x = v (g x)) :
    sumOf f s.branches = sumOf f b.branches := sumOf_view v e h

end State.Same

theorem unsettle_unsteered (s : State) (p : Position) (c : SettleCause) : State.Same Branch.unsteered s (s.unsettle p c) := by
  have h := (State.Same.refl Branch.unsteered s).modBr p (fun x => { x with settleRun := 0, settled := false }) (fun _ => rfl)
  unfold State.unsettle; dsimp only; split
  · exact h
  · exact h

theorem returnRule_branches (s : State) (p : Position) : (s.returnRule p).branches = s.branches := by
  unfold State.returnRule; split
  · rfl
  · exact (placeFlow_busOnly s _ _).branches

theorem followCurve_branches (s : State) (p : Position) : (s.followCurve p).branches =
    (s.modBr p (fun b => { b with controlTarget := some ((s.br p).curveTarget (s.br p).drive) })).branches :=
  (placeFlow_busOnly _ _ _).branches

theorem actOnDrive_unsteered (s : State) (p : Position) : State.Same Branch.unsteered s (s.actOnDrive p) := by
  have rest (f : Branch → Branch) (hf : ∀ x, (f x).unsteered = x.unsteered) :=
    (State.Same.refl Branch.unsteered s).modBr p f hf
  unfold State.actOnDrive; split
  · exact (rest (fun b => { b with controlTarget := some ((s.br p).curveTarget (s.br p).drive) }) (fun _ => rfl)).table
      ((returnRule_branches _ p).trans (followCurve_branches s p))
  · exact rest _ (fun _ => rfl)
  · exact rest _ (fun _ => rfl)
  · exact rest _ (fun _ => rfl)
  · exact rest _ (fun _ => rfl)
  · exact .refl _ s

theorem handOver_unsteered (s : State) (p : Position) : State.Same Branch.unsteered s (s.handOver p) :=
  (((State.Same.refl Branch.unsteered s).modBr p (fun b => { b with driveChanged := true }) (fun _ => rfl)).trans
    (unsettle_unsteered _ p _)).trans (actOnDrive_unsteered _ p)

theorem setDrive_undriven (s : State) (p : Position) (d : Nat) : State.Same Branch.undriven s (s.setDrive p d) := by
  unfold State.setDrive; split
  · exact .refl _ s
  · exact ((State.Same.refl Branch.undriven s).modBr p (fun b => { b with drive := d }) (fun _ => rfl)).trans
      ((handOver_unsteered _ p).view (f := Branch.undriven) Branch.undriven (fun _ => rfl))

theorem compareDrive_undriven (s : State) (p : Position) : State.Same Branch.undriven s (s.compareDrive p) := by
  unfold State.compareDrive; dsimp only; repeat' split
  all_goals first
    | exact .refl _ s
    | exact setDrive_undriven s p _
    | exact (State.Same.refl Branch.undriven s).modBr p _ (fun _ => rfl)

theorem riseStep_undriven (level : Branch → Nat) (x : State × Int) (p : Position) :
    State.Same Branch.undriven x.1 (riseStep level x p).1 := by
  unfold riseStep; dsimp only; split
  · exact setDrive_undriven _ p _
  · exact .refl _ _

theorem riseRound_undriven (level : Branch → Nat) (l : List Position) :
    ∀ x : State × Int, State.Same Branch.undriven x.1 (l.foldl (riseStep level) x).1 := by
  induction l with
  | nil => exact fun x => .refl _ _
  | cons p l ih => exact fun x => (riseStep_undriven level x p).trans (ih _)

theorem rises_undriven (s : State) (ps : List Position) : State.Same Branch.undriven s (s.rises ps) := by
  unfold State.rises; split
  · exact .refl _ s
  · exact (riseRound_undriven _ _ _).trans (riseRound_undriven _ _ _)

theorem setRiseWaiting_undriven (s : State) : State.Same Branch.undriven s s.setRiseWaiting :=
  (State.Same.refl _ s).each _ (fun t p => (State.Same.refl _ t).modBr p _ (fun _ => rfl))

/-- Stages 4 and 5 write drives and cuts, and no grant or draw. -/
theorem risen_undriven (s : State) : State.Same Branch.undriven s.granted s.risen :=
  ((((State.Same.refl _ s.granted).each Config.positions compareDrive_undriven).trans (rises_undriven _ _)).trans
    (setRiseWaiting_undriven _))

/-- A pass after stage 3 writes drives and cuts alone (R35–R46). -/
theorem pass_undriven (s : State) (l : List Position) (as : List AlertCause) :
    State.Same Branch.undriven s.granted (s.pass l as) := by
  rw [pass_eq]; exact (risen_undriven s).table (announced_branches _ _ _ _)

/-! ### The budget quantities of states that agree in `State.still` (R22) -/

theorem budget_of_still {s t : State} (h : t.still = s.still) : t.budget = s.budget := by
  have ha : t.arb.supply = s.arb.supply := show t.still.arb.supply = s.still.arb.supply from h ▸ rfl
  have hp : t.pol = s.pol := show t.still.pol = s.still.pol from h ▸ rfl
  simp only [State.budget, State.supplyInUse, ha, hp]

theorem quarantined_of_still {s t : State} (h : t.still = s.still) : t.quarantined = s.quarantined := by
  have hi : t.iso = s.iso := show t.still.iso = s.still.iso from h ▸ rfl
  simp only [State.quarantined, State.jobs, hi]

/-- States and limits of the branches agree. -/
theorem same_still {s t : State} (h : t.still = s.still) : State.Same Branch.still s t := congrArg State.branches h

theorem floorSum_of_still {s t : State} (h : t.still = s.still) : t.floorSum = s.floorSum :=
  (same_still h).sum (fun b => if b.state = .active then b.limits.floor else 0) (fun _ => rfl)

theorem target_still (b : Branch) : b.still.target = b.target := rfl

theorem target_of_still {s t : State} (h : t.still = s.still) (p : Position) : (t.br p).target = (s.br p).target := by
  rw [← target_still (t.br p), br_still h p, target_still]

theorem length_of_still {s t : State} (h : t.still = s.still) : t.branches.length = s.branches.length := (same_still h).length

/-! ### Stage 1: the draws fit (R32) -/

/-- A branch record without its draw. -/
def Branch.undrawn (b : Branch) : Branch := { b with draw := 0 }

theorem complete_branches (s : State) (k : LongKind) (st : Status) (b : CompletionBody) :
    (s.complete k st b).branches = s.branches := by
  unfold State.complete; split <;> rfl

theorem placeSvc_busOnly (s : State) (a : ActuatorNo) (n : Nat) (c : Client) : s.BusOnly (s.placeSvc a n c) := by
  unfold State.placeSvc; split
  · exact report_busOnly s _ _ _
  · exact State.BusOnly.trans ⟨_, rfl⟩ (grantLine_busOnly _)

theorem endService_branches (s : State) (st : Status) (b : CompletionBody) : (s.endService st b).branches = s.branches := by
  unfold State.endService; split
  · exact complete_branches s _ _ _
  · rfl

/-- Ending a verify clears the draw of its branch and no other field of a record (R91). -/
theorem endVerify_branches (s : State) (p : Position) (st : VerifyStatus) (v : Bool) :
    (s.endVerify p st v).branches = (s.clearDraw p).branches := by
  unfold State.endVerify; dsimp only
  rw [complete_branches]
  split
  · exact (placeSvc_busOnly _ _ _ _).branches
  · rfl

theorem shutValves_branches (s : State) (p : Position) : (s.shutValves p).branches = s.branches :=
  (placeFlow_busOnly _ _ _).branches.trans (placeFlow_busOnly _ _ _).branches

theorem clearDraw_br (s : State) (p q : Position) : (s.clearDraw p).br q = if q = p then (s.br p).undrawn else s.br q := by
  by_cases e : q = p
  · subst e
    rw [if_pos rfl]
    by_cases hp : q < s.branches.length
    · exact modBr_br_self s q _ hp
    · rw [br_eq_reset (Nat.not_lt.1 hp), br_eq_reset (by simpa [State.clearDraw] using hp)]; rfl
  · rw [if_neg e]; exact modBr_br_ne s _ (Ne.symm e)

theorem br_congr {s t : State} (h : t.branches = s.branches) (p : Position) : t.br p = s.br p := by
  unfold State.br; rw [h]

/-- A revoked draw is 0, and of the branches nothing else changes (R86). -/
theorem revokeDraw_br (s : State) (p q : Position) : (s.revokeDraw p).br q = if q = p then (s.br p).undrawn else s.br q := by
  unfold State.revokeDraw; dsimp only
  rw [br_congr (shutValves_branches _ p)]
  have hs (t : State) (ht : ∀ r, t.br r = (s.clearDraw p).br r) :
      (if t.verifyOn p then t.endVerify p (.aborted .supplyFall) false else t).br q = (s.clearDraw p).br q := by
    split
    · rw [br_congr (endVerify_branches _ _ _ _), clearDraw_br, ht, ht, clearDraw_br, clearDraw_br]
      split
      · rw [if_pos rfl]; rfl
      · rfl
    · exact ht q
  rw [hs _ (fun r => ?_), clearDraw_br]
  split
  · exact br_congr (endService_branches _ _ _) r
  · rfl

theorem undrawn_of_revokeDraw (s : State) (p q : Position) : ((s.revokeDraw p).br q).undrawn = (s.br q).undrawn := by
  rw [revokeDraw_br]; split
  · rename_i e; rw [e]; rfl
  · rfl

/-- Stage 1 for one branch (R32). -/
def State.fitDraw (s : State) (p : Position) : State :=
  if s.budget - s.quarantined < s.draws && (s.br p).draw ≠ 0 then s.revokeDraw p else s

theorem fitDraws_eq (s : State) : s.fitDraws = s.forEach Config.positions.reverse State.fitDraw := rfl

theorem fitDraw_still (s : State) (p : Position) : (s.fitDraw p).still = s.still := by
  unfold State.fitDraw; split
  · exact revokeDraw_still s p
  · rfl

theorem fitDraw_draws_le (s : State) (p : Position) : (s.fitDraw p).draws ≤ s.draws := by
  unfold State.fitDraw; split
  · exact ((State.Keeps.refl false s).revokeDraw p).draws
  · exact Nat.le_refl _

/-- The draws fit max(0, B − Q). -/
def State.DrawsFit (s : State) : Prop := s.draws ≤ s.budget - s.quarantined

theorem fitDraw_fits (s : State) (p : Position) : ((s.fitDraw p).br p).draw = 0 ∨ (s.fitDraw p).DrawsFit := by
  unfold State.fitDraw; split
  · rw [revokeDraw_br, if_pos rfl]; exact Or.inl rfl
  · rename_i h
    by_cases hd : (s.br p).draw = 0
    · exact Or.inl hd
    · rw [Bool.and_eq_true, decide_eq_true_eq, decide_eq_true_eq] at h
      exact Or.inr (Nat.not_lt.1 (fun hlt => h ⟨hlt, hd⟩))

theorem fitDraw_keeps_fit (s : State) (p q : Position) (h : (s.br q).draw = 0 ∨ s.DrawsFit) :
    ((s.fitDraw p).br q).draw = 0 ∨ (s.fitDraw p).DrawsFit := by
  refine h.imp (fun h => ?_) (fun h => ?_)
  · unfold State.fitDraw; split
    · rw [revokeDraw_br]; split
      · rfl
      · exact h
    · exact h
  · unfold State.DrawsFit
    rw [budget_of_still (fitDraw_still s p), quarantined_of_still (fitDraw_still s p)]
    exact Nat.le_trans (fitDraw_draws_le s p) h

/-- Stage 1 leaves draws that fit: either they fit, or every one of them was revoked (R32). -/
theorem fitDraws_fit {s : State} (h : s.branches.length = 24) : s.fitDraws.DrawsFit := by
  by_cases hf : s.fitDraws.DrawsFit
  · exact hf
  · have hz : ∀ p ∈ Config.positions, (s.fitDraws.br p).draw = 0 := fun p hp =>
      (forEach_each (fun _ => True) (fun p t => (t.br p).draw = 0 ∨ t.DrawsFit) State.fitDraw (fun _ _ _ => trivial)
        (fun t p _ => fitDraw_fits t p) (fun t p q _ => fitDraw_keeps_fit t p q) _ s trivial p
        (List.mem_reverse.2 hp)).resolve_right hf
    have hd : s.fitDraws.draws = 0 := by
      unfold State.draws
      rw [sumOf_branches ((length_of_still (fitDraws_still s)).trans h), sumOf_congr hz, sumOf_zero]
    exact le_of_eq_of_le hd (Nat.zero_le _)

/-- Stage 1 writes draws alone. -/
theorem fitDraws_undrawn (s : State) (p : Position) : (s.fitDraws.br p).undrawn = (s.br p).undrawn :=
  forEach_leaves (fun t => (t.br p).undrawn) State.fitDraw (fun t q => by
    unfold State.fitDraw; split
    · exact undrawn_of_revokeDraw t q p
    · rfl) _ s

/-! ### Stage 3: the grants (R33, R34) -/

/-- A branch record without its grant. -/
def Branch.ungranted (b : Branch) : Branch := { b with grant := 0 }

theorem setGrant_ungranted (s : State) (p : Position) (g : Nat) : State.Same Branch.ungranted s (s.setGrant p g) :=
  (State.Same.refl _ s).modBr p _ (fun _ => rfl)

/-- Grants written by a rule that reads no grant: each branch has the grant of the rule. -/
theorem forEach_setGrant_grant (v : Branch → Nat) (hv : ∀ b, v b.ungranted = v b) {s : State} (h : s.branches.length = 24)
    {p : Position} (hp : p < 24) :
    ((s.forEach Config.positions (fun s p => s.setGrant p (v (s.br p)))).br p).grant = v (s.br p) := by
  have hk (t : State) (q : Position) (ht : State.Same Branch.ungranted s t) :
      State.Same Branch.ungranted s (t.setGrant q (v (t.br q))) := ht.trans (setGrant_ungranted _ _ _)
  have hval (t : State) (q : Position) (ht : State.Same Branch.ungranted s t) : v (t.br q) = v (s.br q) := by
    rw [← hv, ht.br q, hv]
  refine forEach_each (State.Same Branch.ungranted s) (fun p t => p < 24 → (t.br p).grant = v (s.br p))
    (fun s p => s.setGrant p (v (s.br p))) hk (fun t q ht hq => ?_) (fun t q r ht hr hlt => ?_)
    Config.positions s (.refl _ s) p (mem_positions.2 hp) hp
  · rw [show (t.setGrant q (v (t.br q))).br q = _ from modBr_br_self t q _ (by rw [ht.length, h]; exact hq)]
    exact hval t q ht
  · exact modBr_keeps (fun b => b.grant = v (s.br r)) (hr hlt) (fun e => e ▸ hval t q ht)

theorem forEach_setGrant_ungranted (v : Branch → Nat) (s : State) :
    State.Same Branch.ungranted s (s.forEach Config.positions (fun s p => s.setGrant p (v (s.br p)))) :=
  (State.Same.refl _ s).each _ (fun t p => setGrant_ungranted t p _)

/-- The floor of a branch if it is ACTIVE, and 0 if not (R33). -/
def Branch.due (b : Branch) : Nat := if b.state = .active then b.limits.floor else 0

theorem grantFloors_grant {s : State} (h : s.branches.length = 24) {p : Position} (hp : p < 24) :
    (s.grantFloors.br p).grant = (s.br p).due := forEach_setGrant_grant Branch.due (fun _ => rfl) h hp

theorem grantFloors_ungranted (s : State) : State.Same Branch.ungranted s s.grantFloors :=
  forEach_setGrant_ungranted Branch.due s

/-- The share of a branch in SHORTFALL (R34). -/
def Branch.share (a f : Nat) (b : Branch) : Nat := if b.state = .active then b.limits.floor * a / f else 0

theorem grantShort_grant {s : State} (h : s.branches.length = 24) {p : Position} (hp : p < 24) :
    (s.grantShort.br p).grant = (s.br p).share s.available s.floorSum :=
  forEach_setGrant_grant (Branch.share s.available s.floorSum) (fun _ => rfl) h hp

theorem grantShort_ungranted (s : State) : State.Same Branch.ungranted s s.grantShort :=
  forEach_setGrant_ungranted (Branch.share s.available s.floorSum) s

/-- The shares of the floors do not exceed the available flow (R34). -/
theorem grantShort_sum {s : State} (h : s.branches.length = 24) (hs : s.short = true) : s.grantShort.grantSum ≤ s.available := by
  have hlt : s.available < s.floorSum := of_decide_eq_true hs
  have hshare (p : Position) (hp : p ∈ Config.positions) :
      (s.grantShort.br p).grant = (s.br p).due * s.available / s.floorSum := by
    rw [grantShort_grant h (mem_positions.1 hp)]
    unfold Branch.share Branch.due
    split
    · rfl
    · rw [Nat.zero_mul, Nat.zero_div]
  have hfloors : sumOf (fun p => (s.br p).due) Config.positions = s.floorSum := (sumOf_branches h Branch.due).symm
  calc s.grantShort.grantSum
      = sumOf (fun p => (s.br p).due * s.available / s.floorSum) Config.positions := by
        unfold State.grantSum
        rw [sumOf_branches ((grantShort_ungranted s).length.trans h), sumOf_congr hshare]
    _ ≤ sumOf (fun p => (s.br p).due * s.available) Config.positions / s.floorSum := sumOf_div_le _ _ _
    _ = s.available := by
        rw [sumOf_mul, hfloors, Nat.mul_div_cancel_left _ (by omega)]

/-! ### The hand-down (R33) -/

theorem handDownStep_ungranted (x : State × Nat) (p : Position) :
    State.Same Branch.ungranted x.1 (handDownStep x p).1 := setGrant_ungranted _ _ _

theorem handDown_ungranted (l : List Position) :
    ∀ x : State × Nat, State.Same Branch.ungranted x.1 (l.foldl handDownStep x).1 := by
  induction l with
  | nil => exact fun x => .refl _ _
  | cons p l ih => exact fun x => (handDownStep_ungranted x p).trans (ih _)

/-- What the hand-down gives a branch above its floor. -/
def Branch.above (b : Branch) : Nat := b.grant - b.limits.floor

theorem handDownStep_br {x : State × Nat} {p : Position} (h : p < x.1.branches.length) : (handDownStep x p).1.br p =
    { x.1.br p with grant := (x.1.br p).limits.floor + min ((x.1.br p).target - (x.1.br p).limits.floor) x.2 } :=
  modBr_br_self _ _ _ h

theorem handDown_br_ne {q : Position} (l : List Position) :
    ∀ x : State × Nat, q ∉ l → (l.foldl handDownStep x).1.br q = x.1.br q := by
  induction l with
  | nil => exact fun x _ => rfl
  | cons p l ih =>
    intro x hq
    rw [List.mem_cons, not_or] at hq
    exact (ih _ hq.2).trans (modBr_br_ne _ _ (Ne.symm hq.1))

/-- What the hand-down has given to the branches before one in its order is gone from the remainder (R33). -/
theorem handDown_grant (l : List Position) : ∀ (x : State × Nat), l.Nodup → (∀ p ∈ l, p < x.1.branches.length) →
    ∀ k p, l[k]? = some p → ((l.foldl handDownStep x).1.br p).grant = (x.1.br p).limits.floor +
      min ((x.1.br p).target - (x.1.br p).limits.floor)
        (x.2 - sumOf (fun q => ((l.foldl handDownStep x).1.br q).above) (l.take k)) := by
  induction l with
  | nil => intro x _ _ k p hk; cases hk
  | cons a l ih =>
    intro x hn hl k p hk
    obtain ⟨ha, hn⟩ := List.nodup_cons.1 hn
    have hfirst : ((a :: l).foldl handDownStep x).1.br a = (handDownStep x a).1.br a := handDown_br_ne l _ ha
    have hstep := handDownStep_br (hl a List.mem_cons_self)
    cases k with
    | zero =>
      cases hk
      rw [hfirst, hstep]
      simp [sumOf]
    | succ k =>
      have hp : p ∈ l := List.mem_of_getElem? hk
      have hlen (q : Position) (hq : q ∈ l) : q < (handDownStep x a).1.branches.length := by
        rw [(handDownStep_ungranted x a).length]; exact hl q (List.mem_cons_of_mem _ hq)
      have hother : (handDownStep x a).1.br p = x.1.br p := modBr_br_ne _ _ (fun e => ha (e ▸ hp))
      have habove : (((a :: l).foldl handDownStep x).1.br a).above =
          min ((x.1.br a).target - (x.1.br a).limits.floor) x.2 := by
        rw [hfirst, hstep]; exact Nat.add_sub_cancel_left _ _
      have := ih (handDownStep x a) hn hlen k p hk
      rw [hother] at this
      rw [List.foldl_cons, this, List.take_succ_cons, sumOf_cons, ← List.foldl_cons, habove, Nat.sub_add_eq]
      rfl

/-- The hand-down gives no more than the remainder, where each branch in its order has its floor (R33). -/
theorem handDown_sum (l : List Position) : ∀ x : State × Nat,
    (∀ p ∈ l, p < x.1.branches.length ∧ (x.1.br p).limits.floor ≤ (x.1.br p).grant) →
    (l.foldl handDownStep x).1.grantSum + (l.foldl handDownStep x).2 ≤ x.1.grantSum + x.2 := by
  induction l with
  | nil => exact fun x _ => Nat.le_refl _
  | cons a l ih =>
    intro x h
    obtain ⟨ha, hg⟩ := h a List.mem_cons_self
    have hstep := sumOf_modify Branch.grant (fun b => { b with
      grant := (x.1.br a).limits.floor + min ((x.1.br a).target - (x.1.br a).limits.floor) x.2 })
      x.1.branches a Branch.reset ha
    have hsum : (handDownStep x a).1.grantSum + (handDownStep x a).2 ≤ x.1.grantSum + x.2 := by
      have e1 : (handDownStep x a).1.grantSum + (x.1.br a).grant = x.1.grantSum + ((x.1.br a).limits.floor +
        min ((x.1.br a).target - (x.1.br a).limits.floor) x.2) := hstep
      have e2 : (handDownStep x a).2 = x.2 - min ((x.1.br a).target - (x.1.br a).limits.floor) x.2 := rfl
      omega
    refine Nat.le_trans (ih _ (fun p hp => ?_)) hsum
    obtain ⟨hp1, hp2⟩ := h p (List.mem_cons_of_mem _ hp)
    refine ⟨by rw [(handDownStep_ungranted x a).length]; exact hp1, ?_⟩
    exact modBr_keeps (fun b => b.limits.floor ≤ b.grant) hp2 (fun e => by subst e; exact Nat.le_add_right _ _)

/-- The hand-down of a remainder raises the grants by no more than it (R33). -/
theorem handDown_sum_le (s : State) (n : Nat) (l : List Position)
    (h : ∀ p ∈ l, p < s.branches.length ∧ (s.br p).limits.floor ≤ (s.br p).grant) :
    (l.foldl handDownStep (s, n)).1.grantSum ≤ s.grantSum + n :=
  Nat.le_trans (Nat.le_add_right _ _) (handDown_sum l (s, n) h)

/-! ### The standing order (R29, R30) -/

theorem insertBy_perm {α : Type} (le : α → α → Bool) (a : α) : ∀ l : List α, (insertBy le a l).Perm (a :: l)
  | [] => .refl _
  | b :: l => by
    unfold insertBy; split
    · exact ((insertBy_perm le a l).cons b).trans (.swap a b l)
    · exact .refl _

/-- Ordering a list keeps its elements, each as often as it stands there. -/
theorem sortBy_perm {α : Type} (le : α → α → Bool) (l : List α) : (sortBy le l).Perm l := by
  have h : ∀ (l acc : List α), (l.foldl (fun acc a => insertBy le a acc) acc).Perm (l ++ acc) := by
    intro l
    induction l with
    | nil => exact fun acc => .refl _
    | cons a l ih =>
      exact fun acc => ((ih _).trans ((insertBy_perm le a acc).append_left l)).trans List.perm_middle
  exact (h l []).trans (by rw [List.append_nil])

/-- An element put into an ordered list leaves it ordered, by an order that is total and transitive. -/
theorem insertBy_pairwise {α : Type} {le : α → α → Bool} (ht : ∀ a b c, le a b = true → le b c = true → le a c = true)
    (hc : ∀ a b, le a b = true ∨ le b a = true) (a : α) :
    ∀ l : List α, l.Pairwise (fun a b => le a b = true) → (insertBy le a l).Pairwise (fun a b => le a b = true)
  | [], _ => List.pairwise_singleton _ _
  | b :: l, h => by
    obtain ⟨hb, hl⟩ := List.pairwise_cons.1 h
    unfold insertBy; split
    · rename_i hba
      refine List.pairwise_cons.2 ⟨fun x hx => ?_, insertBy_pairwise ht hc a l hl⟩
      rcases (mem_insertBy le a x l).1 hx with e | e
      · exact e ▸ hba
      · exact hb x e
    · rename_i hba
      have hab := (hc a b).resolve_right hba
      refine List.pairwise_cons.2 ⟨fun x hx => ?_, h⟩
      rcases List.mem_cons.1 hx with e | e
      · exact e ▸ hab
      · exact ht _ _ _ hab (hb x e)

/-- Ordering a list orders it, by an order that is total and transitive. -/
theorem sortBy_pairwise {α : Type} {le : α → α → Bool} (ht : ∀ a b c, le a b = true → le b c = true → le a c = true)
    (hc : ∀ a b, le a b = true ∨ le b a = true) (l : List α) : (sortBy le l).Pairwise (fun a b => le a b = true) := by
  have h : ∀ (l acc : List α), acc.Pairwise (fun a b => le a b = true) →
      (l.foldl (fun acc a => insertBy le a acc) acc).Pairwise (fun a b => le a b = true) := by
    intro l
    induction l with
    | nil => exact fun acc h => h
    | cons a l ih => exact fun acc h => ih _ (insertBy_pairwise ht hc a acc h)
  exact h l [] .nil

theorem keyLe_iff (a b : Branch) : a.keyLe b = true ↔ a.limits.cls < b.limits.cls ∨
    a.limits.cls = b.limits.cls ∧ ((a.urgent = true ∧ b.urgent = false) ∨
      (a.urgent = b.urgent ∧ a.stamp.getD 0 ≤ b.stamp.getD 0)) := by
  simp [Branch.keyLe]

theorem keyLe_trans (a b c : Branch) (h : a.keyLe b = true) (k : b.keyLe c = true) : a.keyLe c = true := by
  rw [keyLe_iff] at *
  rcases h with h | ⟨h, h'⟩ <;> rcases k with k | ⟨k, k'⟩
  · exact Or.inl (Nat.lt_trans h k)
  · exact Or.inl (k ▸ h)
  · exact Or.inl (h ▸ k)
  · refine Or.inr ⟨h.trans k, ?_⟩
    rcases h' with ⟨h1, h2⟩ | ⟨h1, h2⟩ <;> rcases k' with ⟨k1, k2⟩ | ⟨k1, k2⟩
    · exact Or.inl ⟨h1, k2⟩
    · exact Or.inl ⟨h1, k1 ▸ h2⟩
    · exact Or.inl ⟨h1 ▸ k1, k2⟩
    · exact Or.inr ⟨h1.trans k1, Nat.le_trans h2 k2⟩

theorem keyLe_total (a b : Branch) : a.keyLe b = true ∨ b.keyLe a = true := by
  rw [keyLe_iff, keyLe_iff]
  rcases Nat.lt_trichotomy a.limits.cls b.limits.cls with h | h | h
  · exact Or.inl (Or.inl h)
  · cases ha : a.urgent <;> cases hb : b.urgent
    · rcases Nat.le_total (a.stamp.getD 0) (b.stamp.getD 0) with e | e
      · exact Or.inl (Or.inr ⟨h, Or.inr ⟨rfl, e⟩⟩)
      · exact Or.inr (Or.inr ⟨h.symm, Or.inr ⟨rfl, e⟩⟩)
    · exact Or.inr (Or.inr ⟨h.symm, Or.inl ⟨rfl, rfl⟩⟩)
    · exact Or.inl (Or.inr ⟨h, Or.inl ⟨rfl, rfl⟩⟩)
    · rcases Nat.le_total (a.stamp.getD 0) (b.stamp.getD 0) with e | e
      · exact Or.inl (Or.inr ⟨h, Or.inr ⟨rfl, e⟩⟩)
      · exact Or.inr (Or.inr ⟨h.symm, Or.inr ⟨rfl, e⟩⟩)
  · exact Or.inr (Or.inl h)

theorem standingOrder_nodup (s : State) : s.standingOrder.Nodup :=
  (sortBy_perm _ _).nodup_iff.2 ((List.nodup_range.filter _).filter _)

theorem standingOrder_pairwise (s : State) : s.standingOrder.Pairwise (fun p q => (s.br p).keyLe (s.br q) = true) :=
  sortBy_pairwise (le := fun p q => (s.br p).keyLe (s.br q)) (fun _ _ _ => keyLe_trans _ _ _)
    (fun _ _ => keyLe_total _ _) _

theorem keyLe_still (a b : Branch) : a.still.keyLe b.still = a.keyLe b := rfl

/-- States that agree in `State.still` have one standing order. -/
theorem standingOrder_of_still {s t : State} (h : t.still = s.still) : t.standingOrder = s.standingOrder := by
  have hk (p q : Position) : (t.br p).keyLe (t.br q) = (s.br p).keyLe (s.br q) := by
    rw [← keyLe_still (t.br p), br_still h, br_still h, keyLe_still]
  simp only [State.standingOrder, State.inKeyOrder, State.activePositions, State.positionsWhere, hk, target_of_still h,
    br_limits_of_still h, br_state_of_still h]

/-! ### What a pass makes of the budget (R22, R33, R34) -/

/-- Grants when the floors fit, before the hand-down and after. -/
theorem grantInFull_ungranted (s : State) : State.Same Branch.ungranted s s.grantInFull :=
  (grantFloors_ungranted s).trans (handDown_ungranted _ _)

theorem grantAll_ungranted (s : State) : State.Same Branch.ungranted s s.grantAll := by
  unfold State.grantAll; split
  · exact grantShort_ungranted s
  · exact grantInFull_ungranted s

/-- The grants fit the available flow (R33, R34). -/
theorem grantAll_sum {s : State} (h : s.branches.length = 24) : s.grantAll.grantSum ≤ s.available := by
  unfold State.grantAll; split
  · rename_i hs; exact grantShort_sum h hs
  · rename_i hs
    have hle : s.floorSum ≤ s.available := Nat.not_lt.1 (fun e => hs (decide_eq_true e))
    have hlen : s.grantFloors.branches.length = 24 := (grantFloors_ungranted s).length.trans h
    have hfloors : s.grantFloors.grantSum = s.floorSum :=
      calc s.grantFloors.grantSum
          = sumOf (fun p => (s.grantFloors.br p).grant) Config.positions := sumOf_branches hlen Branch.grant
        _ = sumOf (fun p => (s.br p).due) Config.positions :=
          sumOf_congr (fun p hp => grantFloors_grant h (mem_positions.1 hp))
        _ = s.floorSum := (sumOf_branches h Branch.due).symm
    have hheld : ∀ p ∈ s.standingOrder,
        p < s.grantFloors.branches.length ∧ (s.grantFloors.br p).limits.floor ≤ (s.grantFloors.br p).grant := by
      intro p hp
      obtain ⟨hp, ha, -⟩ := mem_standingOrder.1 hp
      have hstate := (grantFloors_ungranted s).field p Branch.state (fun _ => rfl)
      exact ⟨hlen.symm ▸ hp, grantFloors_floorGranted s hp (hstate.trans ha)⟩
    have hd := handDown_sum_le s.grantFloors (s.available - s.floorSum) s.standingOrder hheld
    unfold State.grantInFull
    omega

theorem granted_still (s : State) : s.granted.still = s.still :=
  (still_shortfall _ _).trans ((grantAll_still _).trans (fitDraws_still s))

theorem granted_branches (s : State) : s.granted.branches = s.fitDraws.grantAll.branches := by
  unfold State.granted; dsimp only

theorem granted_ungranted (s : State) : State.Same Branch.ungranted s.fitDraws s.granted :=
  (grantAll_ungranted s.fitDraws).table (granted_branches s)

/-- A pass takes its draws from stage 1. -/
theorem pass_draws (s : State) (l : List Position) (as : List AlertCause) : (s.pass l as).draws = s.fitDraws.draws :=
  ((pass_undriven s l as).sum Branch.draw (fun _ => rfl)).trans ((granted_ungranted s).sum Branch.draw (fun _ => rfl))

theorem pass_grantSum (s : State) (l : List Position) (as : List AlertCause) :
    (s.pass l as).grantSum = s.fitDraws.grantAll.grantSum :=
  ((pass_undriven s l as).sum Branch.grant (fun _ => rfl)).trans (congrArg (sumOf Branch.grant) (granted_branches s))

theorem pass_fit_still (s : State) (l : List Position) (as : List AlertCause) : (s.pass l as).still = s.fitDraws.still :=
  (pass_still s l as).trans (fitDraws_still s).symm

theorem pass_available (s : State) (l : List Position) (as : List AlertCause) :
    (s.pass l as).available = s.fitDraws.available := by
  unfold State.available
  rw [pass_draws, budget_of_still (pass_fit_still s l as), quarantined_of_still (pass_fit_still s l as)]

/-- The first law after a pass (R32–R34). -/
theorem pass_grantsFit {s : State} (h : s.branches.length = 24) (l : List Position) (as : List AlertCause) :
    (s.pass l as).GrantsFit := by
  have hd : s.fitDraws.DrawsFit := fitDraws_fit h
  have hg := grantAll_sum ((length_of_still (fitDraws_still s)).trans h)
  unfold State.GrantsFit
  rw [pass_grantSum, pass_draws, budget_of_still (pass_fit_still s l as), quarantined_of_still (pass_fit_still s l as)]
  unfold State.DrawsFit at hd
  unfold State.available at hg
  omega

end Sys2Proof.Machine

/-! ### The laws of a pass (R29–R42) -/

namespace Sys2Proof.Machine

-- One after another: side by side the proofs of the whole text take more memory than a check may.
set_option Elab.async false

theorem pass_floorSum (s : State) (l : List Position) (as : List AlertCause) :
    (s.pass l as).floorSum = s.fitDraws.floorSum := floorSum_of_still (pass_fit_still s l as)

/-- The grants of a pass are those of stage 3. -/
theorem pass_grant (s : State) (l : List Position) (as : List AlertCause) (p : Position) :
    ((s.pass l as).br p).grant = (s.fitDraws.grantAll.br p).grant :=
  ((pass_undriven s l as).field p Branch.grant (fun _ => rfl)).trans (congrArg Branch.grant (granted_br s p))

/-- SHORTFALL stands after a pass when its floors do not fit the available flow (R34). -/
theorem pass_shortfall_iff (s : State) (l : List Position) (as : List AlertCause) :
    (s.pass l as).arb.shortfall = decide ((s.pass l as).available < (s.pass l as).floorSum) := by
  rw [pass_shortfall, pass_available, pass_floorSum]; rfl

theorem fitDraws_length {s : State} (h : s.branches.length = 24) : s.fitDraws.branches.length = 24 :=
  (length_of_still (fitDraws_still s)).trans h

/-- The grants of a pass in SHORTFALL (R34). -/
theorem pass_grant_short {s : State} (h : s.branches.length = 24) {l : List Position} {as : List AlertCause} {p : Position}
    (hp : p < 24) (hs : (s.pass l as).available < (s.pass l as).floorSum) :
    ((s.pass l as).br p).grant = ((s.pass l as).br p).share (s.pass l as).available (s.pass l as).floorSum := by
  have hshort : s.fitDraws.short = true := by
    rw [← pass_shortfall s l as, pass_shortfall_iff]; exact decide_eq_true hs
  have hall : s.fitDraws.grantAll = s.fitDraws.grantShort := if_pos hshort
  rw [pass_grant, hall, grantShort_grant (fitDraws_length h) hp, pass_available, pass_floorSum]
  unfold Branch.share
  rw [br_state_of_still (pass_fit_still s l as), br_limits_of_still (pass_fit_still s l as)]

theorem grantAll_full {s : State} (h : s.short = false) :
    s.grantAll = (s.standingOrder.foldl handDownStep (s.grantFloors, s.available - s.floorSum)).1 :=
  if_neg (by rw [h]; exact Bool.false_ne_true)

/-- The standing order of a pass is that of its stage 3. -/
theorem pass_standing_fit (s : State) (l : List Position) (as : List AlertCause) :
    (s.pass l as).arb.standing = s.fitDraws.standingOrder := by
  rw [pass_standing]; exact standingOrder_of_still (pass_fit_still s l as)

theorem pass_short_false {s : State} {l : List Position} {as : List AlertCause}
    (hf : (s.pass l as).floorSum ≤ (s.pass l as).available) : s.fitDraws.short = false := by
  rw [← pass_shortfall s l as, pass_shortfall_iff]; exact decide_eq_false (Nat.not_lt.2 hf)

/-- Outside the standing order a branch is granted its floor if it is ACTIVE, and 0 if not (R33). -/
theorem pass_grant_floor {s : State} (h : s.branches.length = 24) {l : List Position} {as : List AlertCause} {p : Position}
    (hp : p < 24) (hf : (s.pass l as).floorSum ≤ (s.pass l as).available) (hn : p ∉ (s.pass l as).arb.standing) :
    ((s.pass l as).br p).grant = ((s.pass l as).br p).due := by
  rw [pass_standing_fit] at hn
  rw [pass_grant, grantAll_full (pass_short_false hf), handDown_br_ne _ _ hn, grantFloors_grant (fitDraws_length h) hp]
  unfold Branch.due
  rw [br_state_of_still (pass_fit_still s l as), br_limits_of_still (pass_fit_still s l as)]

/-- In the standing order the remainder is handed down (R33). -/
theorem pass_grant_handed {s : State} (h : s.branches.length = 24) {l : List Position} {as : List AlertCause}
    (hf : (s.pass l as).floorSum ≤ (s.pass l as).available) {k : Nat} {p : Position}
    (hk : (s.pass l as).arb.standing[k]? = some p) :
    ((s.pass l as).br p).grant = ((s.pass l as).br p).limits.floor +
      min (((s.pass l as).br p).target - ((s.pass l as).br p).limits.floor)
        ((s.pass l as).available - (s.pass l as).floorSum -
          sumOf (fun q => ((s.pass l as).br q).above) ((s.pass l as).arb.standing.take k)) := by
  have hlen : s.fitDraws.grantFloors.branches.length = 24 := (grantFloors_ungranted _).length.trans (fitDraws_length h)
  rw [pass_standing_fit] at hk ⊢
  have hall := grantAll_full (pass_short_false hf)
  have hin : ∀ q ∈ s.fitDraws.standingOrder, q < s.fitDraws.grantFloors.branches.length :=
    fun q hq => hlen.symm ▸ (mem_standingOrder.1 hq).1
  have hd := handDown_grant _ (s.fitDraws.grantFloors, s.fitDraws.available - s.fitDraws.floorSum)
    (standingOrder_nodup s.fitDraws) hin k p hk
  have hlimits (q : Position) : (s.fitDraws.grantFloors.br q).limits = ((s.pass l as).br q).limits :=
    ((grantFloors_ungranted s.fitDraws).field q Branch.limits (fun _ => rfl)).trans
      (br_limits_of_still (pass_fit_still s l as) q).symm
  have htarget (q : Position) : (s.fitDraws.grantFloors.br q).target = ((s.pass l as).br q).target :=
    ((grantFloors_ungranted s.fitDraws).field q Branch.target (fun _ => rfl)).trans
      (target_of_still (pass_fit_still s l as) q).symm
  have habove (q : Position) : (s.fitDraws.grantAll.br q).above = ((s.pass l as).br q).above := by
    unfold Branch.above
    rw [pass_grant, br_limits_of_still (pass_fit_still s l as)]
    exact congrArg _ (congrArg Limits.floor ((grantAll_ungranted s.fitDraws).field q Branch.limits (fun _ => rfl)))
  rw [← hall] at hd
  rw [pass_grant, hd, hlimits, htarget, pass_available, pass_floorSum]
  simp only [habove]

/-- Settles O17: the grants of stage 3 stand to the end of the pass. -/
theorem passGrantsInFull : Obligations.PassGrantsInFull := by
  rintro s t l as hs rfl hf
  refine ⟨?_, fun p hp ha => ?_, fun p hp ha hn => ?_, fun k p hk => pass_grant_handed hs.branches hf hk⟩
  · rw [pass_shortfall_iff]; exact decide_eq_false (Nat.not_lt.2 hf)
  · have hn : p ∉ (s.pass l as).arb.standing := by
      rw [pass_standing, mem_standingOrder]; exact fun h => ha h.2.1
    rw [pass_grant_floor hs.branches hp hf hn]; exact if_neg ha
  · rw [pass_grant_floor hs.branches hp hf hn]; exact if_pos ha

/-- Settles O18: in SHORTFALL each branch is granted its share. -/
theorem passGrantsInShortfall : Obligations.PassGrantsInShortfall := by
  rintro s t l as hs rfl hf
  refine ⟨?_, fun p hp ha => ?_, fun p hp ha => ?_⟩
  · rw [pass_shortfall_iff]; exact decide_eq_true hf
  · rw [pass_grant_short hs.branches hp hf]; exact if_neg ha
  · rw [pass_grant_short hs.branches hp hf]; exact if_pos ha

/-- Settings that fit: the floor of an ACTIVE branch is under its effective ceiling (R9, R56). -/
theorem Branch.Fit.due_le {b : Branch} (h : b.Fit) : b.due ≤ b.effCeiling := by
  obtain ⟨hfit, hceil, -⟩ := h
  have hfloor : b.limits.floor ≤ b.effCeiling := by
    rcases hceil with e | e
    · exact e ▸ hfit
    · exact Nat.le_of_eq e.symm
  unfold Branch.due; split
  · exact hfloor
  · exact Nat.zero_le _

theorem Branch.target_le (b : Branch) : b.target ≤ b.effCeiling := by
  unfold Branch.target; split
  · exact Nat.min_le_right _ _
  · exact Nat.zero_le _

theorem Branch.share_le {b : Branch} {a f : Nat} (h : a < f) : b.share a f ≤ b.due := by
  unfold Branch.share Branch.due; split
  · exact Nat.div_le_of_le_mul (by rw [Nat.mul_comm]; exact Nat.mul_le_mul_right _ (Nat.le_of_lt h))
  · exact Nat.le_refl _

/-- No pass grants a branch more than its effective ceiling (R33, R34). -/
theorem pass_grant_le {s : State} (h : s.branches.length = 24) (hfit : s.Fit) (l : List Position) (as : List AlertCause)
    {p : Position} (hp : p < 24) : ((s.pass l as).br p).grant ≤ ((s.pass l as).br p).effCeiling := by
  have hstill := br_still (pass_still s l as) p
  have hb : ((s.pass l as).br p).Fit :=
    show ((s.pass l as).br p).still.Fit from hstill ▸ hfit.branches (s.br p) (br_mem (h.symm ▸ hp))
  by_cases hf : (s.pass l as).floorSum ≤ (s.pass l as).available
  · by_cases hm : p ∈ (s.pass l as).arb.standing
    · obtain ⟨k, hk⟩ := List.mem_iff_getElem?.1 hm
      have hlt := (mem_standingOrder.1 (pass_standing s l as ▸ hm)).2.2
      have := pass_grant_handed h hf hk
      have := ((s.pass l as).br p).target_le
      omega
    · exact pass_grant_floor h hp hf hm ▸ hb.due_le
  · have hlt := Nat.not_le.1 hf
    exact pass_grant_short h hp hlt ▸ Nat.le_trans (Branch.share_le hlt) hb.due_le

/-- Settles O19: the first law is `pass_grantsFit`, the second `pass_grant_le` and `pass_floorGranted`. -/
theorem passKeepsBudgetAndCeilings : Obligations.PassKeepsBudgetAndCeilings := by
  rintro s t l as hs rfl
  exact ⟨pass_grantsFit hs.branches l as, fun hf p hp =>
    ⟨pass_grant_le hs.branches hf l as hp, fun ha h => pass_floorGranted hp h ha⟩⟩

/-! ### Work for each position -/

/-- Work for each of a list that changes no record but its own leaves a record that the list does not name. -/
theorem forEach_br_ne (I : State → Prop) (f : State → Position → State) (hI : ∀ s p, I s → I (f s p))
    (hne : ∀ s p q, I s → q ≠ p → (f s p).br q = s.br q) {p : Position} :
    ∀ (l : List Position) (s : State), I s → p ∉ l → (s.forEach l f).br p = s.br p
  | [], _, _, _ => rfl
  | a :: l, s, hs, hp => by
    rw [List.mem_cons, not_or] at hp
    exact (forEach_br_ne I f hI hne l (f s a) (hI s a hs) hp.2).trans (hne s a p hs hp.1)

/-- Work for each of a list that changes no record but its own works once on a record: from a state in which it is as it
was at the start. -/
theorem forEach_br_once (I : State → Prop) (f : State → Position → State) (hI : ∀ s p, I s → I (f s p))
    (hne : ∀ s p q, I s → q ≠ p → (f s p).br q = s.br q) {p : Position} :
    ∀ (l : List Position), l.Nodup → ∀ s : State, I s → p ∈ l →
      ∃ t, I t ∧ t.br p = s.br p ∧ (s.forEach l f).br p = (f t p).br p
  | [], _, _, _, hp => nomatch hp
  | a :: l, hn, s, hs, hp => by
    obtain ⟨ha, hn⟩ := List.nodup_cons.1 hn
    by_cases e : p = a
    · subst e
      exact ⟨s, hs, rfl, forEach_br_ne I f hI hne l _ (hI s p hs) ha⟩
    · obtain ⟨t, ht, hbr, hrun⟩ := forEach_br_once I f hI hne l hn (f s a) (hI s a hs)
        ((List.mem_cons.1 hp).resolve_left e)
      exact ⟨t, ht, hbr.trans (hne s a p hs e), hrun⟩

/-! ### Rises (R41, R42) -/

theorem setDrive_room {s : State} {p : Position} (h : p < s.branches.length) (n : Nat) :
    (s.setDrive p ((s.br p).drive + n)).room = s.room - n ∧
    (s.setDrive p ((s.br p).drive + n)).driveSum = s.driveSum + n := by
  have hstill := setDrive_still s p ((s.br p).drive + n)
  have hdraws : (s.setDrive p ((s.br p).drive + n)).draws = s.draws :=
    (setDrive_undriven s p _).sum Branch.draw (fun _ => rfl)
  have hsum : (s.setDrive p ((s.br p).drive + n)).driveSum = s.driveSum + n := by
    unfold State.setDrive; split
    · omega
    · have h1 := sumOf_modify Branch.drive (fun b => { b with drive := (s.br p).drive + n }) s.branches p Branch.reset h
      have h2 : sumOf Branch.drive (s.branches.modify p (fun b => { b with drive := (s.br p).drive + n })) + (s.br p).drive =
        sumOf Branch.drive s.branches + ((s.br p).drive + n) := h1
      have h3 : (State.handOver (s.modBr p (fun b => { b with drive := (s.br p).drive + n })) p).driveSum =
          sumOf Branch.drive (s.branches.modify p (fun b => { b with drive := (s.br p).drive + n })) :=
        (handOver_unsteered _ p).sum Branch.drive (fun _ => rfl)
      have h0 : s.driveSum = sumOf Branch.drive s.branches := rfl
      omega
  refine ⟨?_, hsum⟩
  unfold State.room
  rw [hsum, hdraws, budget_of_still hstill, quarantined_of_still hstill]
  omega

/-- Settles O20: a rise takes what it gives from the room, and no more than the room has. -/
theorem risesFitTheRoom : Obligations.RisesFitTheRoom := by
  rintro s level p x hs hp rfl
  have hlen : p < s.branches.length := hs.branches.symm ▸ hp
  unfold riseStep
  dsimp only
  split
  · rename_i hm
    obtain ⟨hroom, hsum⟩ := setDrive_room hlen (min (level (s.br p) - (s.br p).drive) s.room.toNat)
    have hdraws : (s.setDrive p ((s.br p).drive + min (level (s.br p) - (s.br p).drive) s.room.toNat)).draws = s.draws :=
      (setDrive_undriven s p _).sum Branch.draw (fun _ => rfl)
    have hstill := setDrive_still s p ((s.br p).drive + min (level (s.br p) - (s.br p).drive) s.room.toNat)
    refine ⟨hroom.symm, fun _ => ⟨?_, ?_, ?_⟩, fun q hq => congrArg _ (setDrive_br_ne s _ hq), fun ps h => if_pos h⟩
    · rw [setDrive_drive _ hlen]; omega
    · rw [setDrive_drive _ hlen]; omega
    · rw [hsum, hdraws, budget_of_still hstill, quarantined_of_still hstill]
      unfold State.room at hm ⊢
      omega
  · exact ⟨rfl, fun h => absurd rfl h, fun _ _ => rfl, fun ps h => if_pos h⟩

/-! ### The queues of a pass (R29, R30) -/

theorem announced_queue (s before : State) (l : List Position) (as : List AlertCause) :
    (s.announced before l as).arb.queue = s.standingOrder.filter (fun p => (s.br p).grant < (s.br p).target) := by
  obtain ⟨n, e⟩ := passNotices_arb { s.setQueues with work.ran := true } before l as
  exact congrArg Arbiter.queue e

theorem pass_queue (s : State) (l : List Position) (as : List AlertCause) : (s.pass l as).arb.queue =
    (s.pass l as).arb.standing.filter (fun p => ((s.pass l as).br p).grant < ((s.pass l as).br p).target) := by
  have hstanding := pass_standing s l as
  rw [pass_eq] at hstanding ⊢
  rw [announced_queue, announced_standing]
  simp only [br_congr (announced_branches s.risen s l as)]

/-- Settles O21: the queues are set from the records as the pass leaves them. -/
theorem passOrdersStandings : Obligations.PassOrdersStandings := by
  rintro s t l as - rfl
  refine ⟨?_, ?_, fun p => ?_, pass_queue s l as⟩
  · rw [pass_standing]; exact standingOrder_pairwise _
  · rw [pass_standing]; exact standingOrder_nodup _
  · rw [pass_standing]; exact mem_standingOrder

/-! ### What stages 4 and 5 make of one branch (R35–R42) -/

/-- A cut after stage 4 stands to a cut of before: it has its deadline, or it is new, of a bound branch, with the deadline
the policy gives (R36, R37). -/
def CutFrom (bound : Option Nat) (due : Time) (before after : Option PendingCut) : Prop :=
  ∀ k, after = some k → (∀ h, before = some h → k.deadline = h.deadline) ∧
    (before = none → bound ≠ none ∧ k.deadline = due)

/-- What the first five stages make of an ACTIVE branch that held the drive `d` and the cut `c`: with a cut it has the grant
as new drive, below the drive held, and without one its drive is at or below its grant (R35–R41). -/
structure Branch.Compared (d : Nat) (c : Option PendingCut) (due : Time) (b : Branch) : Prop where
  uncut : b.cut = none → b.drive ≤ b.grant
  cut : ∀ k, b.cut = some k → k.newDrive = b.grant ∧ b.grant < b.drive ∧ b.drive = d
  origin : CutFrom b.boundTo due c b.cut

theorem setDrive_cut (s : State) (p : Position) (d : Nat) : ((s.setDrive p d).br p).cut = (s.br p).cut := by
  unfold State.setDrive; split
  · rfl
  · exact (handOver_steers _ p).cut.trans (modBr_br_field Branch.cut s p p (fun _ => rfl))

theorem setDrive_bound (s : State) (p q : Position) (d : Nat) : ((s.setDrive p d).br q).boundTo = (s.br q).boundTo :=
  (setDrive_undriven s p d).field q Branch.boundTo (fun _ => rfl)

/-- Stage 4 for an ACTIVE branch (R35–R37). -/
theorem compareDrive_compared {s : State} {p : Position} (ha : (s.br p).state = .active) :
    ((s.compareDrive p).br p).Compared (s.br p).drive (s.br p).cut (s.now + s.pol.active.timing.cutDeadline) := by
  have hp := lt_of_br_active ha
  unfold State.compareDrive; dsimp only
  rw [if_neg (not_not_intro ha)]
  split
  · rename_i hc
    rw [hc]
    split
    · rename_i hlt
      split
      · rename_i hb
        rw [modBr_br_self s p _ hp]
        refine ⟨fun h => (nomatch h), fun k hk => ?_, fun k hk => ⟨fun h hh => (nomatch hh), fun _ => ?_⟩⟩
        · cases hk; exact ⟨rfl, hlt, rfl⟩
        · cases hk; exact ⟨Option.isSome_iff_ne_none.1 hb, rfl⟩
      · have hcut := (setDrive_cut s p (s.br p).grant).trans hc
        refine ⟨fun _ => ?_, fun k hk => ?_, fun k hk => ?_⟩
        · exact Nat.le_of_eq ((setDrive_drive _ hp).trans (setDrive_grant s p _).symm)
        · rw [hcut] at hk; cases hk
        · rw [hcut] at hk; cases hk
    · rename_i hle
      exact ⟨fun _ => Nat.not_lt.1 hle, fun k hk => (nomatch hc.symm.trans hk), fun k hk => (nomatch hc.symm.trans hk)⟩
  · rename_i k hc
    rw [hc]
    split
    · rename_i hlt
      split
      · rename_i heq
        refine ⟨fun h => (nomatch hc.symm.trans h), fun x hx => ?_, fun x hx => ⟨fun h hh => ?_, fun h => (nomatch h)⟩⟩
        · cases hc.symm.trans hx; exact ⟨heq.symm, hlt, rfl⟩
        · cases hc.symm.trans hx; cases hh; rfl
      · rw [modBr_br_self s p _ hp]
        refine ⟨fun h => (nomatch h), fun x hx => ?_, fun x hx => ⟨fun h hh => ?_, fun h => (nomatch h)⟩⟩
        · cases hx; exact ⟨rfl, hlt, rfl⟩
        · cases hx; cases hh; rfl
    · rename_i hle
      rw [modBr_br_self s p _ hp]
      exact ⟨fun _ => Nat.not_lt.1 hle, fun x hx => (nomatch hx), fun x hx => (nomatch hx)⟩

/-- A rise of a branch without a cut, to its grant at most, keeps what stage 4 made of it (R41). -/
theorem setDrive_compared {s : State} {p : Position} {d n : Nat} {c : Option PendingCut} {due : Time}
    (hp : p < s.branches.length) (hn : n ≤ (s.br p).grant) (hc : (s.br p).cut = none) :
    ((s.setDrive p n).br p).Compared d c due := by
  have hcut := (setDrive_cut s p n).trans hc
  refine ⟨fun _ => ?_, fun k hk => (nomatch hcut.symm.trans hk), fun k hk => (nomatch hcut.symm.trans hk)⟩
  rw [setDrive_drive _ hp, setDrive_grant]; exact hn

/-- A rise touches a branch of its list alone, writes no cut, and takes a drive to the grant at most (R41). -/
theorem riseStep_compared {level : Branch → Nat} (hl : ∀ b, level b ≤ b.grant) {d : Nat} {c : Option PendingCut} {due : Time}
    (x : State × Int) (p q : Position) (hp : p < x.1.branches.length) (hc : (x.1.br p).cut = none)
    (h : (x.1.br q).Compared d c due) : ((riseStep level x p).1.br q).Compared d c due := by
  unfold riseStep; dsimp only; split
  · by_cases e : q = p
    · subst e
      have := hl (x.1.br q)
      exact setDrive_compared hp (by omega) hc
    · rw [setDrive_br_ne x.1 _ e]; exact h
  · exact h

theorem riseStep_cut (level : Branch → Nat) (x : State × Int) (p q : Position) :
    ((riseStep level x p).1.br q).cut = (x.1.br q).cut := by
  unfold riseStep; dsimp only; split
  · by_cases e : q = p
    · subst e; exact setDrive_cut _ _ _
    · rw [setDrive_br_ne x.1 _ e]
  · rfl

theorem riseRound_cut (level : Branch → Nat) (q : Position) (l : List Position) :
    ∀ x : State × Int, ((l.foldl (riseStep level) x).1.br q).cut = (x.1.br q).cut := by
  induction l with
  | nil => exact fun x => rfl
  | cons p l ih => exact fun x => (ih _).trans (riseStep_cut level x p q)

theorem riseRound_compared {level : Branch → Nat} (hl : ∀ b, level b ≤ b.grant) {d : Nat} {c : Option PendingCut}
    {due : Time} (q : Position) (l : List Position) :
    ∀ x : State × Int, (∀ p ∈ l, p < x.1.branches.length ∧ (x.1.br p).cut = none) → (x.1.br q).Compared d c due →
      ((l.foldl (riseStep level) x).1.br q).Compared d c due := by
  induction l with
  | nil => exact fun x _ h => h
  | cons p l ih =>
    intro x hx h
    obtain ⟨hp, hc⟩ := hx p List.mem_cons_self
    refine ih _ (fun r hr => ?_) (riseStep_compared hl x p q hp hc h)
    rw [(riseStep_undriven level x p).length, riseStep_cut]
    exact hx r (List.mem_cons_of_mem _ hr)

/-- The branches a round of rises goes over: candidates of the list it is given (R41). -/
theorem mem_riseOrder {s : State} {ps : List Position} {p : Position}
    (h : p ∈ s.inKeyOrder (ps.filter (fun p => (s.br p).candidate))) :
    p ∈ ps ∧ p < s.branches.length ∧ (s.br p).cut = none ∧ (s.br p).state = .active ∧ (s.br p).drive < (s.br p).grant := by
  obtain ⟨hps, hc⟩ := List.mem_filter.1 ((mem_sortBy _ _ _).1 h)
  simp only [Branch.candidate, Bool.and_eq_true, decide_eq_true_eq, Option.isNone_iff_eq_none] at hc
  exact ⟨hps, lt_of_br_active hc.1.1, hc.2, hc.1.1, hc.1.2⟩

theorem rises_compared {s : State} (ps : List Position) {q : Position} {d : Nat} {c : Option PendingCut} {due : Time}
    (h : (s.br q).Compared d c due) : ((s.rises ps).br q).Compared d c due := by
  unfold State.rises; split
  · exact h
  · have hin : ∀ p ∈ s.inKeyOrder (ps.filter (fun p => (s.br p).candidate)),
        p < s.branches.length ∧ (s.br p).cut = none := fun p hp =>
      have hm := mem_riseOrder hp
      ⟨hm.2.1, hm.2.2.1⟩
    refine riseRound_compared (fun _ => Nat.le_refl _) q _ _ (fun p hp => ?_)
      (riseRound_compared (fun _ => Nat.min_le_left _ _) q _ (s, s.room) hin h)
    rw [(riseRound_undriven _ _ _).length, riseRound_cut]
    exact hin p hp

/-- A branch that is not among those a round goes over keeps its record. -/
theorem riseRound_br_ne (level : Branch → Nat) {q : Position} (l : List Position) :
    ∀ x : State × Int, q ∉ l → (l.foldl (riseStep level) x).1.br q = x.1.br q := by
  induction l with
  | nil => exact fun x _ => rfl
  | cons p l ih =>
    intro x hq
    rw [List.mem_cons, not_or] at hq
    refine (ih _ hq.2).trans ?_
    unfold riseStep; dsimp only; split
    · exact setDrive_br_ne _ _ hq.1
    · rfl

theorem rises_br_ne {s : State} {ps : List Position} {q : Position}
    (h : q ∉ ps ∨ (s.br q).state ≠ .active ∨ (s.br q).cut ≠ none ∨ (s.br q).grant ≤ (s.br q).drive) :
    (s.rises ps).br q = s.br q := by
  have hq : q ∉ s.inKeyOrder (ps.filter (fun p => (s.br p).candidate)) := fun hm => by
    obtain ⟨h1, -, h2, h3, h4⟩ := mem_riseOrder hm
    rcases h with h | h | h | h
    · exact h h1
    · exact h h3
    · exact h h2
    · omega
  unfold State.rises; split
  · rfl
  · exact (riseRound_br_ne _ _ _ hq).trans (riseRound_br_ne _ _ _ hq)

/-- A field that `Branch.still` keeps. -/
theorem br_field_of_still {γ : Type} {f : Branch → γ} {s t : State} (h : t.still = s.still) (p : Position)
    (e : ∀ b, f b.still = f b) : f (t.br p) = f (s.br p) := by
  rw [← e, br_still h, e]

theorem risen_length {s : State} (h : s.branches.length = 24) :
    ((s.granted.forEach Config.positions State.compareDrive).rises Config.positions).branches.length = 24 :=
  (((State.Same.refl Branch.undriven s.granted).each Config.positions compareDrive_undriven).trans
    (rises_undriven _ _)).length.trans ((length_of_still (granted_still s)).trans h)

/-- A field that stage 1 does not write. -/
theorem fitDraws_field {γ : Type} {f : Branch → γ} (s : State) (p : Position) (e : ∀ b, f b.undrawn = f b) :
    f (s.fitDraws.br p) = f (s.br p) := by
  rw [← e, fitDraws_undrawn, e]

/-- Stages 1 to 3 write neither drive nor cut. -/
theorem before_stage4 (s : State) (p : Position) :
    (s.granted.br p).drive = (s.br p).drive ∧ (s.granted.br p).cut = (s.br p).cut :=
  ⟨((granted_ungranted s).field p Branch.drive (fun _ => rfl)).trans (fitDraws_field s p (fun _ => rfl)),
    ((granted_ungranted s).field p Branch.cut (fun _ => rfl)).trans (fitDraws_field s p (fun _ => rfl))⟩

/-- A branch with rise waiting as the rule sets it (R42). -/
def Branch.waiting (b : Branch) : Branch := { b with riseWaiting := decide (b.state = .active ∧ b.drive < b.grant) }

theorem Branch.waiting_drive (b : Branch) : b.waiting.drive = b.drive := rfl
theorem Branch.waiting_cut (b : Branch) : b.waiting.cut = b.cut := rfl
theorem Branch.waiting_riseWaiting (b : Branch) : b.waiting.riseWaiting =
    decide (b.waiting.state = .active ∧ b.waiting.drive < b.waiting.grant) := rfl

/-- Rise waiting after it is set (R42). -/
theorem setRiseWaiting_br {s : State} (h : s.branches.length = 24) {p : Position} (hp : p < 24) : s.setRiseWaiting.br p =
    (s.br p).waiting := by
  obtain ⟨t, hlen, ht, hrun⟩ := forEach_br_once (fun t => t.branches.length = 24)
    (fun t q => t.modBr q (fun b => { b with riseWaiting := b.state = .active && b.drive < b.grant }))
    (fun t q ht => (modBr_branches_length t q _).trans ht) (fun t q r _ hr => modBr_br_ne t _ hr.symm)
    Config.positions List.nodup_range s h (mem_positions.2 hp)
  refine hrun.trans ?_
  rw [modBr_br_self t p _ (hlen.symm ▸ hp), ht]
  simp [Branch.waiting]

theorem Branch.Compared.waiting {b : Branch} {d : Nat} {c : Option PendingCut} {due : Time} (h : b.Compared d c due) :
    b.waiting.Compared d c due := ⟨h.uncut, h.cut, h.origin⟩

theorem risen_br {s : State} (h : s.branches.length = 24) {p : Position} (hp : p < 24) : s.risen.br p =
    (((s.granted.forEach Config.positions State.compareDrive).rises Config.positions).br p).waiting := by
  unfold State.risen
  exact setRiseWaiting_br (risen_length h) hp

/-- What stage 4 over all branches makes of one (R35–R37). -/
theorem compareDrives_br (s : State) {p : Position} (hp : p < 24) : ∃ t : State, t.still = s.still ∧ t.br p = s.br p ∧
    (s.forEach Config.positions State.compareDrive).br p = (t.compareDrive p).br p :=
  forEach_br_once (fun t => t.still = s.still) State.compareDrive (fun t q ht => (compareDrive_still t q).trans ht)
    (fun t _ _ _ hr => compareDrive_br_ne t hr) Config.positions List.nodup_range s rfl (mem_positions.2 hp)

/-- A pass leaves an ACTIVE branch as stages 4 and 5 make it (R35–R41). -/
theorem pass_compared {s : State} (l : List Position) (as : List AlertCause) {p : Position} (hp : p < 24)
    (h : s.branches.length = 24) (ha : (s.br p).state = .active) :
    ((s.pass l as).br p).Compared (s.br p).drive (s.br p).cut (s.now + s.pol.active.timing.cutDeadline) := by
  obtain ⟨t, hstill, ht, hrun⟩ := compareDrives_br s.granted hp
  have hgranted : t.still = s.still := hstill.trans (granted_still s)
  have hnow : t.now = s.now := show t.still.now = s.still.now from hgranted ▸ rfl
  have hpol : t.pol = s.pol := show t.still.pol = s.still.pol from hgranted ▸ rfl
  have hfields := before_stage4 s p
  have hc := compareDrive_compared ((br_state_of_still hgranted p).trans ha)
  rw [← hrun, ht, hnow, hpol, hfields.1, hfields.2] at hc
  have hc := rises_compared Config.positions hc
  rw [pass_br, risen_br h hp]
  exact hc.waiting

/-- A pass leaves a branch that is not ACTIVE its drive and its cut. -/
theorem pass_inactive {s : State} (l : List Position) (as : List AlertCause) {p : Position} (hp : p < 24)
    (h : s.branches.length = 24) (ha : (s.br p).state ≠ .active) :
    ((s.pass l as).br p).drive = (s.br p).drive ∧ ((s.pass l as).br p).cut = (s.br p).cut := by
  obtain ⟨t, hstill, ht, hrun⟩ := compareDrives_br s.granted hp
  have hstate : (t.br p).state ≠ .active := by
    rw [br_state_of_still (hstill.trans (granted_still s)) p]; exact ha
  have hkept : (s.granted.forEach Config.positions State.compareDrive).br p = s.granted.br p := by
    rw [hrun]; unfold State.compareDrive; dsimp only; rw [if_pos hstate]; exact ht
  have hstays : ((s.granted.forEach Config.positions State.compareDrive).br p).state ≠ .active := by
    rw [hkept, ← ht]; exact hstate
  have hrises : ((s.granted.forEach Config.positions State.compareDrive).rises Config.positions).br p = s.granted.br p :=
    (rises_br_ne (Or.inr (Or.inl hstays))).trans hkept
  rw [pass_br, risen_br h hp, Branch.waiting_drive, Branch.waiting_cut, hrises]
  exact before_stage4 s p

/-- A pass leaves rise waiting where a drive stands below its grant (R42). -/
theorem pass_riseWaiting {s : State} (l : List Position) (as : List AlertCause) {p : Position} (hp : p < 24)
    (h : s.branches.length = 24) : ((s.pass l as).br p).riseWaiting =
      decide (((s.pass l as).br p).state = .active ∧ ((s.pass l as).br p).drive < ((s.pass l as).br p).grant) := by
  rw [pass_br, risen_br h hp, Branch.waiting_riseWaiting]

/-- Settles O22: rise waiting is set last, and the rest is what stages 4 and 5 make of the branch. -/
theorem passComparesDrives : Obligations.PassComparesDrives := by
  rintro s t l as p hs hp rfl
  refine ⟨pass_riseWaiting l as hp hs.branches, fun ha => ?_, fun ha => ?_⟩
  · rw [br_state_of_still (pass_still s l as) p] at ha
    exact pass_inactive l as hp hs.branches ha
  · rw [br_state_of_still (pass_still s l as) p] at ha
    have hc := pass_compared l as hp hs.branches ha
    have hbound := br_field_of_still (f := Branch.boundTo) (pass_still s l as) p (fun _ => rfl)
    refine ⟨hc.uncut, fun k hk => ?_⟩
    obtain ⟨hgrant, hlt, hdrive⟩ := hc.cut k hk
    obtain ⟨hold, hnew⟩ := hc.origin k hk
    refine ⟨hgrant, hlt, hdrive, hold, fun e => ?_⟩
    rw [← hbound]
    exact hnew e

end Sys2Proof.Machine

/-! ## The ledger of the job table and of the clients of the bus (R22, R142–R165): what keeps the books -/

namespace Sys2Proof.Machine

-- One after another: side by side the proofs of the whole text take more memory than a check may.
set_option Elab.async false

namespace State.Keeps

variable {m : Bool} {b s : State}

/-! ### Phases (R151–R160) -/

/-- A phase before HOLD: the job holds its quarantine on. -/
theorem setPhase (i : JobId) {ph : Phase} (d : Option Time) (hp : ph ≠ .hold ∧ ph ≠ .simulate) (h : Keeps m b s) :
    Keeps m b (s.setPhase i ph d) := by
  refine h.modJobOf i _ (fun _ j _ _ => ⟨rfl, rfl, Nat.le_refl _, fun hd hb _ => ?_⟩)
  have : Job.beforeHold { j with phase := ph, deadline := d, armed := false } = true := by
    have hd' : j.drill = false := hd
    simp [Job.beforeHold, hd', hp.1, hp.2]
  exact absurd hb (by rw [this]; exact Bool.noConfusion)

theorem enterConfirm (i : JobId) (h : Keeps m b s) : Keeps m b (s.enterConfirm i) :=
  h.setPhase i none ⟨by decide, by decide⟩

theorem checkReturns (i : JobId) (h : Keeps m b s) : Keeps m b (s.checkReturns i) := by
  unfold State.checkReturns; repeat' split
  · exact h
  · exact h.enterConfirm i
  · exact h

theorem enterCloseReturn (i : JobId) (h : Keeps m b s) : Keeps m b (s.enterCloseReturn i) := by
  have h1 := (h.setPhase i (ph := .closeReturn) none ⟨by decide, by decide⟩).modJob i (fun j => { j with
    targets := j.targets.map (fun t => { t with ret := t.ret.retried })
    trunk := j.trunk.map (fun k => { k with ret := k.ret.retried }) })
  unfold State.enterCloseReturn; dsimp only; split
  · exact h1
  · refine ((each _ ?_ (fun _ _ h => h.placeIso _ _ _)).checkReturns i)
    split
    · exact h1.placeIso _ _ _
    · exact h1

theorem enterDrain (i : JobId) (h : Keeps m b s) : Keeps m b (s.enterDrain i) := by
  have h1 := h.setPhase i (ph := .drain) (some (s.now + 1000 * s.pol.active.timing.drainDelay)) ⟨by decide, by decide⟩
  unfold State.enterDrain; dsimp only; split
  · exact h1.enterCloseReturn i
  · exact h1

theorem tellUncontained (i : JobId) (v : Bool) (h : Keeps m b s) : Keeps m b (s.tellUncontained i v) := by
  unfold State.tellUncontained; split
  · exact h
  · exact h.notify _

theorem enterUncontained (i : JobId) (h : Keeps m b s) : Keeps m b (s.enterUncontained i) :=
  (h.setPhase i _ ⟨by decide, by decide⟩).tellUncontained i false

theorem foundContained (i : JobId) (h : Keeps m b s) : Keeps m b (s.foundContained i) :=
  ((h.modJob i (fun j => { j with deadline := none })).tellUncontained i true).enterDrain i

theorem checkSupply (i : JobId) (h : Keeps m b s) : Keeps m b (s.checkSupply i) := by
  unfold State.checkSupply; repeat' split
  · exact h
  · exact h.enterDrain i
  · exact h.enterUncontained i
  · exact h

theorem enterCloseSupply (i : JobId) (h : Keeps m b s) : Keeps m b (s.enterCloseSupply i) := by
  unfold State.enterCloseSupply; dsimp only; split
  · exact h
  · rename_i j _
    have h1 := ((h.latch j).setPhase i (ph := .closeSupply) none ⟨by decide, by decide⟩).holdIfChanged s
    refine (each _ ?_ (fun _ _ h => h.placeIso _ _ _)).checkSupply i
    split
    · exact h1.placeIso _ _ _
    · exact h1

/-! ### The drill (R166, R167) -/

theorem drillOutcome (p : Position) (o : DrillOutcome) (h : Keeps m b s) : Keeps m b (s.drillOutcome p o) := h.other
theorem drillStatus (x : DrillStatus) (h : Keeps m b s) : Keeps m b (s.drillStatus x) := h.other
theorem drillRest (o : DrillOutcome) (h : Keeps m b s) : Keeps m b (s.drillRest o) := h.other

theorem dropJob (i : JobId) (h : Keeps m b s) : Keeps m b (s.dropJob i) :=
  ⟨fun e => ⟨((h.table e).1.dropJob i).1, Nat.le_trans ((h.table e).1.dropJob i).2 (h.table e).2⟩, h.grants, h.draws,
    h.supply, h.policy, h.due, h.ran, h.after, h.mild⟩

theorem takeFromDrill (p : Position) (h : Keeps m b s) : Keeps m b (s.takeFromDrill p) := by
  unfold State.takeFromDrill; dsimp only; repeat' split
  · exact h
  · exact (((h.modJob _ _).drillOutcome _ _).dropJob _).drillStatus _
  · exact (h.modJob _ _).drillOutcome _ _
  · exact h

theorem endDrill (h : Keeps m b s) : Keeps m b s.endDrill := by
  unfold State.endDrill; split
  · exact h
  · exact each _ h (fun _ _ h => h.takeFromDrill _)

end State.Keeps

/-- The job found by an id has it, and stands in the table. -/
theorem job?_some {s : State} {i : JobId} {j : Job} (h : s.job? i = some j) : j ∈ s.jobs ∧ j.id = i := by
  unfold State.job? at h
  exact ⟨List.mem_of_find?_eq_some h, by simpa using List.find?_some h⟩

/-- Two elements of a list whose values under a function are all different are the same if these values are. -/
theorem eq_of_nodup_map {α β : Type} (f : α → β) {a b : α} : ∀ l : List α, (l.map f).Nodup → a ∈ l → b ∈ l → f a = f b → a = b
  | [], _, ha, _, _ => nomatch ha
  | x :: l, h, ha, hb, e => by
    obtain ⟨hx, hl⟩ := List.nodup_cons.1 h
    rcases List.mem_cons.1 ha with rfl | ha'
    · rcases List.mem_cons.1 hb with rfl | hb'
      · rfl
      · exact absurd (e ▸ List.mem_map_of_mem hb') hx
    · rcases List.mem_cons.1 hb with rfl | hb'
      · exact absurd (e ▸ List.mem_map_of_mem ha') hx
      · exact eq_of_nodup_map f l hl ha' hb' e

/-- In a table in order the job found by an id is the only one with it (R142). -/
theorem State.JobsInOrder.unique {s : State} (h : (s.jobs.map (fun j => j.id)).Nodup) {j k : Job} (hj : j ∈ s.jobs)
    (hk : k ∈ s.jobs) (e : j.id = k.id) : j = k := eq_of_nodup_map _ _ h hj hk e

/-- A target of a drill without an answer takes its outcome (R167). -/
def State.noteSilent (s : State) (t : Target) : State := match t.warning with
  | .expired => s.drillOutcome t.pos .missed
  | .none => s.drillOutcome t.pos .noServer
  | _ => s

theorem enterSimulate_eq (s : State) (j : Job) : s.enterSimulate j =
    (s.forEach j.targets State.noteSilent).setPhase j.id .simulate (some (s.now + 1000 * j.drainDelay.getD 0)) := by
  have h : ∀ (l : List Target) (t : State), (t.forEach l State.noteSilent).now = t.now :=
    forEach_leaves State.now _ (fun t x => by unfold State.noteSilent; split <;> rfl)
  rw [← h j.targets s]; rfl

theorem noteSilent_slots (s : State) (t : Target) : (s.noteSilent t).iso.slots = s.iso.slots := by
  unfold State.noteSilent; split <;> rfl

namespace State.Keeps

variable {m : Bool} {b s : State}

theorem noteSilent (t : Target) (h : Keeps m b s) : Keeps m b (s.noteSilent t) := by
  unfold State.noteSilent; split
  · exact h.drillOutcome _ _
  · exact h.drillOutcome _ _
  · exact h

/-- SIMULATE is a phase of the drill job alone (R167). -/
theorem enterSimulate {j : Job} (hj : j ∈ s.jobs) (hd : j.drill = true) (h : Keeps m b s) : Keeps m b (s.enterSimulate j) := by
  rw [enterSimulate_eq]
  refine (each j.targets h (fun _ t h => h.noteSilent t)).modJobOf j.id _
    (fun ht k hk hid => ⟨rfl, rfl, Nat.le_refl _, fun hf => ?_⟩)
  have hslots : (s.forEach j.targets State.noteSilent).iso.slots = s.iso.slots :=
    forEach_leaves (fun t : State => t.iso.slots) _ noteSilent_slots j.targets s
  have hjobs : j ∈ (s.forEach j.targets State.noteSilent).jobs := by unfold State.jobs at hj ⊢; rw [hslots]; exact hj
  have hk' : k = j := State.JobsInOrder.unique ht.jobs.ids hk hjobs hid
  rw [hk'] at hf
  exact absurd (hd.symm.trans hf) Bool.noConfusion

end State.Keeps

/-- The jobs after a change of those with an id. -/
theorem modJob_jobs (s : State) (i : JobId) (f : Job → Job) :
    (s.modJob i f).jobs = s.jobs.map (fun j => if j.id = i then f j else j) := by
  unfold State.jobs State.modJob
  dsimp only
  rw [List.filterMap_map, List.map_filterMap]
  rfl

namespace State.Keeps

variable {m : Bool} {b s : State}

theorem endNotify (i : JobId) (h : Keeps m b s) : Keeps m b (s.endNotify i) := by
  unfold State.endNotify; dsimp only
  have h1 := h.modJob i (fun j => { j with
    targets := j.targets.map (fun t => if t.warning = .opened then { t with warning := .expired } else t) })
  split
  · exact h1
  · rename_i j hj
    split
    · rename_i hd; exact h1.enterSimulate (job?_some hj).1 hd
    · exact h1.enterCloseSupply i

theorem checkNotify (i : JobId) (h : Keeps m b s) : Keeps m b (s.checkNotify i) := by
  unfold State.checkNotify; repeat' split
  · exact h
  · exact h.endNotify i
  · exact h

theorem warnTargets (i : JobId) (ps : List Position) (h : Keeps m b s) : Keeps m b (s.warnTargets i ps) := by
  unfold State.warnTargets; split
  · exact h
  · exact each _ h (fun _ _ h => h.notify _)

theorem reserveTrunk (i : JobId) (h : Keeps m b s) : Keeps m b (s.reserveTrunk i) := (h.reserve _ _).reserve _ _

theorem mergeInto (i : JobId) (l : List Evidence) (h : Keeps m b s) : Keeps m b (s.mergeInto i l) := h.modJob i _

theorem removeIfEmpty (i : JobId) (h : Keeps m b s) : Keeps m b (s.removeIfEmpty i) := by
  unfold State.removeIfEmpty; repeat' split
  · exact h
  · exact (h.dropJob i).unreserveAll i
  · exact h

theorem retakeTrunk (i : JobId) (h : Keeps m b s) : Keeps m b (s.retakeTrunk i) := by
  unfold State.retakeTrunk; repeat' split
  · exact h
  · exact (h.modJob i _).reserveTrunk i
  · exact h.modJob i _
  · exact h

theorem rackPhase (i : JobId) (h : Keeps m b s) : Keeps m b (s.rackPhase i) := by
  unfold State.rackPhase; dsimp only; split
  · exact h
  · have h1 := h.retakeTrunk i
    split
    · exact h1
    · split
      · split
        · exact (h1.latchArrivals _).placeIso _ _ _
        · exact h1.latchArrivals _
      · exact h1.enterCloseSupply i

/-! ### Reports of closes (R152) -/

theorem afterSupply (i : JobId) (h : Keeps m b s) : Keeps m b (s.afterSupply i) := by
  unfold State.afterSupply; repeat' split
  · exact h
  · exact h.foundContained i
  · exact h.checkSupply i

theorem afterFailure (i : JobId) (h : Keeps m b s) : Keeps m b (s.afterFailure i) := by
  unfold State.afterFailure; repeat' split
  · exact h
  · exact h.checkSupply i
  · exact h
  · exact h.enterUncontained i

/-- A close result is no business of the books. -/
theorem setClose (i : JobId) (x : Side) (c : Close) (h : Keeps m b s) : Keeps m b (s.modJob i (fun j => j.setClose x c)) :=
  h.modJob i _ (fun j => by cases x <;> exact ⟨rfl, rfl, rfl, rfl⟩)

theorem closeOk (j : Job) (x : Side) (h : Keeps m b s) : Keeps m b (s.closeOk j x) := by
  unfold State.closeOk; dsimp only
  have h1 := each (j.stopped x) (h.setClose j.id x .ok) (f := fun s p => s.setDrive p 0) (fun _ _ h => h.setDrive _ _)
  split
  · exact h1.reexamine.afterSupply _
  · exact h1.checkReturns _

theorem closeAgain (j : Job) (x : Side) (a : ActuatorNo) (h : Keeps m b s) : Keeps m b (s.closeAgain j x a) :=
  (h.setClose j.id x .pending).placeIso _ _ _

theorem lateReport (a : ActuatorNo) (k : ReportKind) (h : Keeps m b s) : Keeps m b (s.lateReport a k) := by
  unfold State.lateReport; split
  · exact h.markFault _ _ _
  · exact h

theorem retryCloses (j : Job) (h : Keeps m b s) : Keeps m b (s.retryCloses j) :=
  each _ (h.modJob j.id _) (fun _ _ h => h.closeAgain _ _ _)

/-! ### The clients of the bus -/

theorem flowReport (a : ActuatorNo) (k : ReportKind) (h : Keeps m b s) : Keeps m b (s.flowReport a k) := by
  unfold State.flowReport; repeat' split
  all_goals first
    | exact h
    | exact h.markFault _ _ _
    | exact h.placeFlow _ _
    | exact (h.markFault _ _ _).placeFlow _ _

theorem openingReport (a : ActuatorNo) (k : ReportKind) (h : Keeps m b s) : Keeps m b (s.openingReport a k) := by
  unfold State.openingReport; repeat' split
  · exact h.placeIso _ _ _
  · exact h
  · exact h

theorem verifyMove (x : VerifyStep) (h : Keeps m b s) : Keeps m b (s.verifyMove x) := by
  unfold State.verifyMove; dsimp only; split
  · exact h.other
  · exact State.Keeps.placeSvc _ _ _ h.other

theorem closingReport (a : ActuatorNo) (k : ReportKind) (h : Keeps m b s) : Keeps m b (s.closingReport a k) := by
  unfold State.closingReport; repeat' split
  all_goals first
    | exact h
    | exact h.other
    | exact State.Keeps.placeSvc _ _ _ h.other

/-- What follows a pass keeps the books (R149, R160). -/
theorem follow (x : AfterPass) (h : Keeps m b s) : Keeps m b (s.follow x) := by
  unfold State.follow; split
  · exact h.notify _
  · exact h.checkNotify _

/-! ### Stage 1 of a pass, and its reports -/

theorem fitDraws (h : Keeps m b s) : Keeps m b s.fitDraws := by
  rw [fitDraws_eq]
  refine each _ h (fun t p ht => ?_)
  unfold State.fitDraw; split
  · exact ht.revokeDraw p
  · exact ht

end State.Keeps

theorem grantAll_bus (s : State) : s.grantAll.bus = s.bus := by
  have hd : ∀ (l : List Position) (x : State × Nat), (l.foldl handDownStep x).1.bus = x.1.bus := by
    intro l
    induction l with
    | nil => exact fun _ => rfl
    | cons p l ih => exact fun x => ih _
  unfold State.grantAll; split
  · exact forEach_leaves State.bus _ (fun t p => modBr_bus t p _) _ s
  · exact (hd _ _).trans (forEach_leaves State.bus _ (fun t p => modBr_bus t p _) _ s)

theorem passNotices_bus (s b : State) (l : List Position) (as : List AlertCause) : (s.passNotices b l as).bus = s.bus := by
  unfold State.passNotices; dsimp only
  rw [forEach_leaves State.bus State.alert (fun _ _ => rfl)]
  unfold State.demand; dsimp only
  have hw : ∀ (l : List Position) (t : State), (t.forEach l State.warnCut).bus = t.bus :=
    forEach_leaves State.bus State.warnCut (fun t p => by unfold State.warnCut; split <;> rfl)
  have hg : ∀ (l : List Position) (t : State), (t.forEach l (fun s p => s.notify (s.grantNotice p))).bus = t.bus :=
    forEach_leaves State.bus _ (fun t p => notify_bus t _)
  split
  · exact (hg _ _).trans (hw _ _)
  · exact (hg _ _).trans (hw _ _)

/-- Every report waiting is mild (R72). -/
def State.Gentle (s : State) : Prop := ∀ r ∈ s.bus.reports, r.Mild

theorem State.Gentle.of_bus {s t : State} (h : s.Gentle) (e : t.bus = s.bus) : t.Gentle := by
  unfold State.Gentle; rw [e]; exact h

theorem State.Gentle.keeps {s t : State} (h : s.Gentle) (k : State.Keeps true s t) : t.Gentle := k.mild rfl h

theorem granted_bus (s : State) : s.granted.bus = s.fitDraws.bus := by
  have h : ∀ (t : State) (v : Bool), ({ t with arb.shortfall := v } : State).bus = t.bus := fun _ _ => rfl
  unfold State.granted
  rw [h, grantAll_bus]

theorem State.Keeps.risen (s : State) : State.Keeps true s.granted s.risen := by
  unfold State.risen
  generalize s.granted = t
  exact (((State.Keeps.refl true t).each Config.positions (fun _ p h => h.compareDrive p)).rises _).setRiseWaiting

/-- The reports a pass makes end no close and mark no fault (R72). -/
theorem pass_gentle {s : State} (l : List Position) (as : List AlertCause) (h : s.Gentle) : (s.pass l as).Gentle := by
  have h1 : s.fitDraws.Gentle := h.keeps (State.Keeps.refl true s).fitDraws
  have h2 : s.risen.Gentle := (h1.of_bus (granted_bus s)).keeps (State.Keeps.risen s)
  rw [pass_eq]
  refine h2.of_bus ?_
  generalize s.risen = t
  exact passNotices_bus _ _ _ _

end Sys2Proof.Machine

/-! ## The ledger through the work of the jobs (R22, R144–R157): what changes the quarantine, and the pass it asks for -/

namespace Sys2Proof.Machine

-- One after another: side by side the proofs of the whole text take more memory than a check may.
set_option Elab.async false

/-! ### Tables in the middle of an operation -/

/-- A change of the jobs with an id leaves the table in order. -/
theorem State.Tabled.modJob {s : State} {i : JobId} {f : Job → Job} (h : s.Tabled)
    (hf : ∀ j ∈ s.jobs, j.id = i → (f j).id = j.id ∧
      ((f j).drill = false → (f j).beforeHold = false → (f j).quarantine = 0)) : (s.modJob i f).Tabled := by
  refine ⟨(List.length_map ..).trans h.slots, ⟨?_, fun k hk => ?_⟩⟩
  · rw [modJob_jobs, List.map_map, show s.jobs.map ((fun j => j.id) ∘ fun j => if j.id = i then f j else j) =
      s.jobs.map (fun j => j.id) from List.map_congr_left (fun j hj => ?_)]
    · exact h.jobs.ids
    · simp only [Function.comp_apply]; split
      · rename_i e; exact (hf j hj e).1
      · rfl
  · rw [modJob_jobs] at hk
    obtain ⟨j, hj, rfl⟩ := List.mem_map.1 hk
    split
    · rename_i e; exact (hf j hj e).2
    · exact h.jobs.released j hj

/-- The jobs with an id stand in NOTIFY. -/
def State.Notifying (s : State) (i : JobId) : Prop := ∀ j ∈ s.jobs, j.id = i → j.phase = .notify

namespace State.Notifying

variable {s t : State} {i : JobId}

theorem of_slots (h : s.Notifying i) (e : t.iso.slots = s.iso.slots) : t.Notifying i := by
  have ej : t.jobs = s.jobs := by unfold State.jobs; rw [e]
  unfold State.Notifying; rw [ej]; exact h

theorem modJob {k : JobId} {f : Job → Job} (h : s.Notifying i) (hf : ∀ j, (f j).id = j.id ∧ (f j).phase = j.phase) :
    (s.modJob k f).Notifying i := by
  intro x hx hid
  rw [modJob_jobs] at hx
  obtain ⟨j, hj, rfl⟩ := List.mem_map.1 hx
  by_cases e : j.id = k
  · rw [if_pos e] at hid ⊢; rw [(hf j).2]; exact h j hj ((hf j).1.symm.trans hid)
  · rw [if_neg e] at hid ⊢; exact h j hj hid

theorem dropJob (k : JobId) (h : s.Notifying i) : (s.dropJob k).Notifying i := by
  intro j hj hid
  rw [dropJob_jobs] at hj
  exact h j (List.mem_filter.1 hj).1 hid

theorem setPhase (d : Option Time) : (s.setPhase i .notify d).Notifying i := by
  intro x hx hid
  unfold State.setPhase at hx
  rw [modJob_jobs] at hx
  obtain ⟨j, hj, rfl⟩ := List.mem_map.1 hx
  by_cases e : j.id = i
  · rw [if_pos e]
  · rw [if_neg e] at hid; exact absurd hid e

theorem takeFromDrill (p : Position) (h : s.Notifying i) : (s.takeFromDrill p).Notifying i := by
  have h1 : ∀ k, ((s.modJob k (fun j => { j with targets := j.targets.filter (fun t => t.pos ≠ p) })).drillOutcome p
      .preempted).Notifying i := fun k =>
    State.Notifying.of_slots (h.modJob (k := k) (f := fun j => { j with targets := j.targets.filter (fun t => t.pos ≠ p) })
      (fun _ => ⟨rfl, rfl⟩)) rfl
  unfold State.takeFromDrill; dsimp only; repeat' split
  · exact h
  · exact ((h1 _).dropJob _).of_slots rfl
  · exact h1 _
  · exact h

/-- A job that is put into a slot in NOTIFY is the only one with its id. -/
theorem setSlot (k : Nat) (j : Job) (hj : j.phase = .notify) (hid : ∀ x ∈ s.jobs, x.id ≠ j.id) :
    (s.setSlot k (some j)).Notifying j.id := by
  intro x hx e
  rcases jobs_set j s.iso.slots k x hx with h | h
  · rw [h, hj]
  · exact absurd e (hid x h)

end State.Notifying

/-! ### What leaves the slots alone -/

theorem slots_of_still {s t : State} (h : t.still = s.still) : t.iso.slots = s.iso.slots :=
  show t.still.iso.slots = s.still.iso.slots by rw [h]

theorem reserve_slots (s : State) (i : JobId) (a : ActuatorNo) : (s.reserve i a).iso.slots = s.iso.slots := by
  unfold State.reserve; dsimp only
  rw [forEach_leaves (fun t : State => t.iso.slots) (fun (t : State) (c : Claim) => t.report c.client a .refusedReserved)
    (fun t c => slots_of_still (report_still t c.client a .refusedReserved))]
  rfl

theorem clearArbiterFields_slots (s : State) (p : Position) : (s.clearArbiterFields p).iso.slots = s.iso.slots := by
  unfold State.clearArbiterFields State.cancelTrim; split
  · exact (slots_of_still (complete_still _ _ _ _)).trans rfl
  · rfl

/-! ### Lawful states -/

/-- Inside an event: the branch table has its size and the job table is in order; where `v` asks for it, the first law
holds or the event has asked for its pass (R22, R31). -/
structure State.Lawful (v : Bool) (s : State) : Prop where
  size : s.branches.length = 24
  table : s.Tabled
  fit : v = true → s.work.due = true ∨ s.GrantsFit

/-- What keeps the books keeps the first law. -/
theorem State.GrantsFit.keeps {m : Bool} {s t : State} (h : s.GrantsFit) (hs : s.Tabled) (k : State.Keeps m s t) :
    t.GrantsFit := by
  have hg : t.grantSum = s.grantSum := by
    have := congrArg (sumOf id) k.grants
    rwa [sumOf_map, sumOf_map] at this
  have hb : t.budget = s.budget := by unfold State.budget State.supplyInUse; rw [k.supply, k.policy]
  have hq := (k.table hs).2
  have hd := k.draws
  unfold State.GrantsFit at h ⊢
  rw [hg, hb]; omega

namespace State.Lawful

variable {v m : Bool} {s t : State}

/-- Without regard to the first law. -/
theorem loose (h : Lawful v s) : Lawful false s := ⟨h.size, h.table, fun e => nomatch e⟩

/-- What keeps the books keeps a state lawful. -/
theorem keeps (h : Lawful v s) (k : Keeps m s t) : Lawful v t :=
  ⟨by have := congrArg List.length k.grants; rw [List.length_map, List.length_map] at this; exact this.trans h.size,
    (k.table h.table).1, fun e => (h.fit e).imp (fun d => k.due.trans d) (fun g => g.keeps h.table k)⟩

theorem of (h : Lawful v s) (f : Keeps false s s → Keeps false s t) : Lawful v t := h.keeps (f (Keeps.refl false s))

/-- The first law is read from grants, draws, supply record, policy and slots. -/
theorem other (h : Lawful v s) (hs : t.iso.slots = s.iso.slots := by rfl)
    (hb : t.branches = s.branches := by rfl) (ha : t.arb.supply = s.arb.supply := by rfl)
    (hp : t.pol.active = s.pol.active := by rfl) (hd : t.work.due = s.work.due := by rfl) : Lawful v t := by
  refine ⟨hb ▸ h.size, (h.table.of_slots hs).1, fun e => (h.fit e).imp (fun d => hd.trans d) (fun g => ?_)⟩
  have hj : t.quarantined = s.quarantined := by unfold State.quarantined State.jobs; rw [hs]
  have hu : t.budget = s.budget := by unfold State.budget State.supplyInUse; rw [ha, hp]
  unfold State.GrantsFit State.grantSum State.draws at g ⊢
  rw [hb, hu, hj]; exact g

/-- Size and slots carry a state whose first law is not asked for. -/
theorem table_of (h : Lawful v s) (hb : t.branches.length = s.branches.length := by rfl)
    (hs : t.iso.slots = s.iso.slots := by rfl) : Lawful false t :=
  ⟨hb.trans h.size, (h.table.of_slots hs).1, fun e => nomatch e⟩

theorem asked (h : Lawful false s) (hd : s.work.due = true) : Lawful v s := ⟨h.size, h.table, fun _ => Or.inl hd⟩

/-- An event that asks for its pass may have changed the quarantine or the budget (R31). -/
theorem askPass (l : List Position) (h : Lawful false s) : Lawful v (s.askPass l) :=
  asked (s := s.askPass l) (h.table_of) rfl

theorem afterPass (x : AfterPass) (h : Lawful v s) : Lawful v (s.afterPass x) := h.other

theorem askDrawPass (h : Lawful v s) : Lawful v s.askDrawPass := by
  unfold State.askDrawPass; split
  · exact h
  · exact h.loose.askPass []

/-- A pass puts the first law right (R32, R33). -/
theorem pass (l : List Position) (as : List AlertCause) (h : Lawful false s) : Lawful v (s.pass l as) :=
  ⟨(length_of_still (pass_still s l as)).trans h.size, (h.table.of_slots (slots_of_still (pass_still s l as))).1,
    fun _ => Or.inr (pass_grantsFit h.size l as)⟩

theorem each {α : Type} {f : State → α → State} (l : List α) (h : Lawful v s)
    (hf : ∀ s a, Lawful v s → Lawful v (f s a)) : Lawful v (s.forEach l f) := forEach_keeps _ f hf l s h

/-- A change of a branch record, its grant and draw included. -/
theorem modBr (p : Position) (f : Branch → Branch) (h : Lawful v s) : Lawful false (s.modBr p f) :=
  h.table_of (List.length_modify ..)

end State.Lawful

/-! ### Joining (R148) -/

/-- What ends on a branch that joins a job, and what it leaves (R11, R16, R148, steps 1 to 3). -/
def State.leaveForJob (s : State) (i : JobId) (p : Position) : State :=
  let s := s.takeFromDrill p
  let s := if s.verifyOn p then s.endVerify p (.aborted .isolation) false else s
  let s := if s.serviceBranch = some p then s.endService .aborted (.aborted (.service .joined)) else s
  let s := (s.endClosing p).clearDraw p
  let s := if (s.br p).state = .active then s.clearArbiterFields p else s
  s.modBr p (fun b => { b with state := .isolating, job := i })

/-- A job with a branch added, its drive quarantined (R22, R148). -/
def Job.joinedBy (b : Branch) (p : Position) (j : Job) : Job :=
  { j.addTarget
      { pos := p, warning := if b.boundTo.isSome then .opened else .none, supply := .pending, ret := .pending
        confirm := .none } with quarantine := j.quarantine + b.drive }

theorem join_eq (s : State) (i : JobId) (p : Position) : s.join i p =
    (((s.leaveForJob i p).modJob i (Job.joinedBy ((s.leaveForJob i p).br p) p)).reserve i (supplyOf p)).reserve i
      (returnOf p) := rfl

theorem State.Keeps.leaveForJob {m : Bool} {b s : State} (i : JobId) (p : Position) (h : Keeps m b s) :
    Keeps m b (s.leaveForJob i p) := by
  have h1 : ∀ t, Keeps m b t → Keeps m b (if t.verifyOn p then t.endVerify p (.aborted .isolation) false else t) := by
    intro t ht; split
    · exact ht.endVerify _ _ _
    · exact ht
  have h2 : ∀ t, Keeps m b t →
      Keeps m b (if t.serviceBranch = some p then t.endService .aborted (.aborted (.service .joined)) else t) := by
    intro t ht; split
    · exact ht.endService _ _
    · exact ht
  have h3 : ∀ t, Keeps m b t → Keeps m b (if (t.br p).state = .active then t.clearArbiterFields p else t) := by
    intro t ht; split
    · exact ht.clearArbiterFields p
    · exact ht
  exact (h3 _ (((h2 _ (h1 _ (h.takeFromDrill p))).endClosing p).clearDraw p)).modBr p _

theorem State.Notifying.leaveForJob {s : State} {k : JobId} (i : JobId) (p : Position) (h : s.Notifying k) :
    (s.leaveForJob i p).Notifying k := by
  have h1 : ∀ t : State, t.Notifying k →
      State.Notifying (if t.verifyOn p then t.endVerify p (.aborted .isolation) false else t) k := by
    intro t ht; split
    · exact ht.of_slots (slots_of_still (endVerify_still _ _ _ _))
    · exact ht
  have h2 : ∀ t : State, t.Notifying k →
      State.Notifying (if t.serviceBranch = some p then t.endService .aborted (.aborted (.service .joined)) else t) k := by
    intro t ht; split
    · exact ht.of_slots (slots_of_still (endService_still _ _ _))
    · exact ht
  have h3 : ∀ t : State, t.Notifying k →
      State.Notifying (if (t.br p).state = .active then t.clearArbiterFields p else t) k := by
    intro t ht; split
    · exact ht.of_slots (clearArbiterFields_slots _ _)
    · exact ht
  have h4 : ∀ t : State, t.Notifying k → State.Notifying ((t.endClosing p).clearDraw p) k := fun t ht =>
    ht.of_slots ((slots_of_still (clearDraw_still _ _)).trans (slots_of_still (endClosing_still _ _)))
  exact (h3 _ (h4 _ (h2 _ (h1 _ (h.takeFromDrill p))))).of_slots rfl

/-- While branches join a job it stands in NOTIFY, and the first law waits for the pass (R148). -/
structure State.Joining (s : State) (i : JobId) : Prop where
  lawful : s.Lawful false
  notifying : s.Notifying i

theorem State.Joining.join {s : State} {i : JobId} (p : Position) (h : s.Joining i) : (s.join i p).Joining i := by
  have h1 : (s.leaveForJob i p).Lawful false := h.lawful.of (fun k => k.leaveForJob i p)
  have h2 := h.notifying.leaveForJob i p
  rw [join_eq]
  generalize s.leaveForJob i p = t at h1 h2
  have h3 : (t.modJob i (Job.joinedBy (t.br p) p)).Lawful false := by
    refine ⟨h1.size, h1.table.modJob (fun j hj e => ⟨rfl, fun hd hb => ?_⟩), fun e => nomatch e⟩
    have hp : j.phase = .notify := h2 j hj e
    have : (Job.joinedBy (t.br p) p j).beforeHold = true := by
      have hd' : j.drill = false := hd
      simp [Job.beforeHold, Job.joinedBy, Job.addTarget, hd', hp]
    exact absurd hb (by rw [this]; exact Bool.noConfusion)
  have h4 := h2.modJob (k := i) (f := Job.joinedBy (t.br p) p) (fun _ => ⟨rfl, rfl⟩)
  exact ⟨(h3.of (fun k => (k.reserve i _).reserve i _)),
    h4.of_slots ((reserve_slots _ _ _).trans (reserve_slots _ _ _))⟩

theorem State.Joining.each {s : State} {i : JobId} (ps : List Position) (h : s.Joining i) :
    State.Joining (s.forEach ps (fun s p => s.join i p)) i :=
  forEach_keeps (fun s => State.Joining s i) _ (fun _ p h => h.join p) ps s h

/-! ### Jobs that take up branches (R145, R148, R156) -/

theorem State.Joining.joinAll {v : Bool} {s : State} {i : JobId} (ps : List Position) (h : s.Joining i) :
    (s.joinAll i ps).Lawful v :=
  (((h.each ps).lawful.of (fun k => k.warnTargets i ps)).askPass _).afterPass _

theorem State.Joining.reserveTrunk {s : State} {i : JobId} (h : s.Joining i) : (s.reserveTrunk i).Joining i :=
  ⟨h.lawful.of (fun k => k.reserveTrunk i),
    h.notifying.of_slots ((reserve_slots _ _ _).trans (reserve_slots _ _ _))⟩

/-- A job in NOTIFY with an id of its own is put into a slot, to take up branches. -/
theorem State.Lawful.setSlot {s : State} (k : Nat) {j : Job} (h : s.Lawful false) (hp : j.phase = .notify)
    (hid : ∀ x ∈ s.jobs, x.id ≠ j.id) : (s.setSlot k (some j)).Joining j.id := by
  refine ⟨⟨h.size, h.table.setSlot k j hid (fun hd hb => ?_), fun e => nomatch e⟩, State.Notifying.setSlot k j hp hid⟩
  have : j.beforeHold = true := by simp [Job.beforeHold, hd, hp]
  exact absurd hb (by rw [this]; exact Bool.noConfusion)

namespace State.Lawful

variable {v : Bool} {s : State}

theorem createReal (slot : Nat) (l : JobLevel) (o : Origin) (e : List Evidence) (ps : List Position) (h : Lawful v s) :
    Lawful v (s.createReal slot l o e ps) := by
  unfold State.createReal; dsimp only
  refine State.Joining.joinAll ps ?_
  have h1 : ∀ j : Job, j.id = s.issueId → j.phase = .notify →
      State.Joining { s.setSlot slot (some j) with iso.lastId := s.issueId } s.issueId := by
    intro j hj hp
    have h2 := h.loose.setSlot slot hp (fun x hx => hj ▸ issueId_fresh h.table x hx)
    rw [hj] at h2
    exact ⟨h2.lawful.other, h2.notifying.of_slots rfl⟩
  split
  · exact (h1 _ rfl rfl).reserveTrunk
  · exact h1 _ rfl rfl

theorem escalate (j : Job) (h : Lawful v s) : Lawful v (s.escalate j) := by
  have h1 : (s.dropJob j.id).Lawful false := h.loose.of (fun k => k.dropJob j.id)
  unfold State.escalate; dsimp only
  refine (State.Joining.reserveTrunk ?_).joinAll _
  refine h1.setSlot _ (j := { j with
    level := .rack, trunk := some ⟨.pending, .pending⟩, phase := .notify, deadline := s.warnAt, armed := false }) rfl
    (fun x hx => ?_)
  rw [dropJob_jobs] at hx
  exact by simpa using (List.mem_filter.1 hx).2

end State.Lawful

end Sys2Proof.Machine

/-! ## The ledger through transfers, holds and requests (R144, R145, R152–R160, R165) -/

namespace Sys2Proof.Machine

-- One after another: side by side the proofs of the whole text take more memory than a check may.
set_option Elab.async false

/-! ### Transfer into the rack job (R157) -/

/-- The table is in order but for the quarantine of the jobs with an id. -/
structure State.TabledBut (s : State) (i : JobId) : Prop where
  slots : s.iso.slots.length = 9
  ids : (s.jobs.map (fun j => j.id)).Nodup
  released : ∀ j ∈ s.jobs, j.id ≠ i → j.drill = false → j.beforeHold = false → j.quarantine = 0

namespace State.TabledBut

variable {s t : State} {i : JobId}

theorem of_slots (h : s.TabledBut i) (e : t.iso.slots = s.iso.slots) : t.TabledBut i := by
  have ej : t.jobs = s.jobs := by unfold State.jobs; rw [e]
  exact ⟨e ▸ h.slots, ej ▸ h.ids, ej ▸ h.released⟩

/-- The jobs with the id may change as they like. -/
theorem modJob {f : Job → Job} (h : s.TabledBut i) (hf : ∀ j, (f j).id = j.id) : (s.modJob i f).TabledBut i := by
  refine ⟨(List.length_map ..).trans h.slots, ?_, fun k hk hid => ?_⟩
  · rw [modJob_jobs, List.map_map, show s.jobs.map ((fun j => j.id) ∘ fun j => if j.id = i then f j else j) =
      s.jobs.map (fun j => j.id) from List.map_congr_left (fun j _ => ?_)]
    · exact h.ids
    · simp only [Function.comp_apply]; split
      · exact hf j
      · rfl
  · rw [modJob_jobs] at hk
    obtain ⟨j, hj, rfl⟩ := List.mem_map.1 hk
    by_cases e : j.id = i
    · rw [if_pos e] at hid; exact absurd ((hf j).trans e) hid
    · rw [if_neg e]; exact h.released j hj e

/-- Before its HOLD a job may hold quarantine. -/
theorem tabled (h : s.TabledBut i) (hi : ∀ j ∈ s.jobs, j.id = i → j.drill = false → j.beforeHold = true) : s.Tabled := by
  refine ⟨h.slots, h.ids, fun j hj hd hb => ?_⟩
  by_cases e : j.id = i
  · exact absurd (hi j hj e hd) (by rw [hb]; exact Bool.noConfusion)
  · exact h.released j hj e hd hb

end State.TabledBut

theorem State.Tabled.but {s : State} (i : JobId) (h : s.Tabled) : s.TabledBut i :=
  ⟨h.slots, h.jobs.ids, fun j hj _ => h.jobs.released j hj⟩

/-- CLOSE_SUPPLY after its phase is set: the closes of a job are placed (R151). -/
def State.closeSupplies (t : State) (i : JobId) (j : Job) : State :=
  let t := match j.trunk with
    | some { supply := .pending, .. } => t.placeIso 48 0 (.iso i)
    | _ => t
  let t := t.forEach (j.targets.filter (fun x => x.supply = .pending)) (fun t x => t.placeIso (supplyOf x.pos) 0 (.iso i))
  t.checkSupply i

theorem enterCloseSupply_some {s : State} {i : JobId} {j : Job} (h : s.job? i = some j) :
    s.enterCloseSupply i = (((s.latch j).setPhase i .closeSupply none).holdIfChanged s).closeSupplies i j := by
  unfold State.enterCloseSupply State.closeSupplies
  rw [h] <;> rfl

theorem enterCloseSupply_none {s : State} {i : JobId} (h : s.job? i = none) : s.enterCloseSupply i = s := by
  unfold State.enterCloseSupply; rw [h]

theorem State.Keeps.closeSupplies {m : Bool} {b s : State} (i : JobId) (j : Job) (h : Keeps m b s) :
    Keeps m b (s.closeSupplies i j) := by
  unfold State.closeSupplies; dsimp only
  refine (each _ ?_ (fun _ _ h => h.placeIso _ _ _)).checkSupply i
  split
  · exact h.placeIso _ _ _
  · exact h

theorem latch_slots (s : State) (j : Job) : (s.latch j).iso.slots = s.iso.slots := by
  have h : ∀ (l : List Target) (t : State), (t.latchTargets l).iso.slots = t.iso.slots := fun l t =>
    forEach_leaves (fun t : State => t.iso.slots)
      (fun (t : State) (x : Target) => t.modBr x.pos (fun b => { b with latched := true, maint := false }))
      (fun _ _ => rfl) l t
  unfold State.latch; dsimp only; split
  · exact h _ s
  · exact h _ s

/-- In the middle of a transfer: the job that takes the targets may hold quarantine past its HOLD (R157). -/
structure State.Owing (s : State) (i : JobId) : Prop where
  size : s.branches.length = 24
  table : s.TabledBut i

namespace State.Owing

variable {s t : State} {i : JobId}

/-- What keeps the branch table and the slots leaves the debt as it is. -/
theorem keeps {m : Bool} (h : s.Owing i) (k : State.Keeps m s t) (e : t.iso.slots = s.iso.slots) : t.Owing i := by
  have hl := congrArg List.length k.grants
  rw [List.length_map, List.length_map] at hl
  exact ⟨hl.trans h.size, h.table.of_slots e⟩

theorem modJob {f : Job → Job} (h : s.Owing i) (hf : ∀ j, (f j).id = j.id) : (s.modJob i f).Owing i :=
  ⟨h.size, h.table.modJob hf⟩

theorem retakeTrunk (h : s.Owing i) : (s.retakeTrunk i).Owing i := by
  unfold State.retakeTrunk; repeat' split
  · exact h
  · exact keeps (h.modJob (f := fun j => { j with trunk := some ⟨.pending, .pending⟩ }) (fun _ => rfl))
      ((State.Keeps.refl false _).reserveTrunk i) ((reserve_slots _ _ _).trans (reserve_slots _ _ _))
  · exact h.modJob (fun _ => rfl)
  · exact h

/-- With no such job there is no debt. -/
theorem lawful_of_none (h : s.Owing i) (hj : s.job? i = none) : s.Lawful false := by
  refine ⟨h.size, h.table.tabled (fun j hm e => ?_), fun e => nomatch e⟩
  unfold State.job? at hj
  exact absurd e (by simpa using List.find?_eq_none.1 hj j hm)

/-- A job before its HOLD owes nothing. -/
theorem lawful_of_some {j : Job} (h : s.Owing i) (hj : s.job? i = some j) (hb : j.drill = false → j.beforeHold = true) :
    s.Lawful false := by
  obtain ⟨hm, hid⟩ := job?_some hj
  refine ⟨h.size, h.table.tabled (fun k hk e hd => ?_), fun e => nomatch e⟩
  have hk' : k = j := State.JobsInOrder.unique h.table.ids hk hm (e.trans hid.symm)
  rw [hk'] at hd ⊢
  exact hb hd

/-- A job that enters CLOSE_SUPPLY may hold quarantine (R151). -/
theorem setCloseSupply (h : s.Owing i) : (s.setPhase i .closeSupply none).Lawful false := by
  unfold State.setPhase
  refine ⟨h.size, State.TabledBut.tabled (i := i) (h.table.modJob (fun _ => rfl)) (fun k hk hid hd => ?_), fun e => nomatch e⟩
  rw [modJob_jobs] at hk
  obtain ⟨j, hj, rfl⟩ := List.mem_map.1 hk
  by_cases e : j.id = i
  · rw [if_pos e] at hd ⊢
    have hd' : j.drill = false := hd
    simp [Job.beforeHold, hd']
  · rw [if_neg e] at hid; exact absurd hid e

theorem enterCloseSupply (h : s.Owing i) : (s.enterCloseSupply i).Lawful false := by
  cases hj : s.job? i with
  | none => rw [enterCloseSupply_none hj]; exact h.lawful_of_none hj
  | some j =>
    rw [enterCloseSupply_some hj]
    have h1 : (s.latch j).Owing i := h.keeps ((State.Keeps.refl false s).latch j) (latch_slots s j)
    exact h1.setCloseSupply.of (fun k => (k.holdIfChanged s).closeSupplies i j)

/-- With the job past its HOLD taken to CLOSE_SUPPLY the table is in order again (R157). -/
theorem rackPhase (h : s.Owing i) : (s.rackPhase i).Lawful false := by
  cases hj : s.job? i with
  | none =>
    have he : s.rackPhase i = s := by unfold State.rackPhase; rw [hj]
    rw [he]; exact h.lawful_of_none hj
  | some j =>
    by_cases hp : j.phase = .notify ∨ j.phase = .closeSupply ∨ j.phase = .uncontained
    · refine (h.lawful_of_some hj (fun hd => ?_)).of (fun k => k.rackPhase i)
      rcases hp with hp | hp | hp <;> simp [Job.beforeHold, hd, hp]
    · have he : s.rackPhase i = (s.retakeTrunk i).enterCloseSupply i := by
        unfold State.rackPhase; rw [hj]
        simp only [not_or] at hp
        simp [hp]
      rw [he]; exact h.retakeTrunk.enterCloseSupply

end State.Owing

/-- Targets pass to another job with the books as they are (R157). -/
theorem State.Keeps.passTargets {m : Bool} {b s : State} (j : Job) (k : JobId) (h : Keeps m b s) :
    Keeps false b (s.passTargets j k) := by
  have h1 : Keeps false b (s.forEach j.targets (fun s t => s.modBr t.pos (fun b => { b with job := k }))) :=
    each _ h.loose (fun _ t h => h.modBr t.pos _)
  exact ⟨fun e => slots_table (s := s.forEach j.targets (fun s t => s.modBr t.pos (fun b => { b with job := k }))) rfl
    (h1.table e), h1.grants, h1.draws, h1.supply, h1.policy, h1.due, h1.ran, h1.after,
    fun e => nomatch e⟩

namespace State.Lawful

variable {v : Bool} {s : State}

theorem transfer (j r : Job) (h : Lawful v s) : Lawful v (s.transfer j r) := by
  have h1 : Lawful false ((s.dropJob j.id).passTargets j r.id) := h.loose.of (fun k => (k.dropJob j.id).passTargets j r.id)
  refine State.Lawful.askPass [] (State.Owing.rackPhase (State.Owing.modJob ⟨h1.size, h1.table.but r.id⟩ (fun x => ?_)))
  have hid : ∀ (l : List Target) (y : Job), (l.foldl Job.addTarget y).id = y.id := by
    intro l
    induction l with
    | nil => exact fun _ => rfl
    | cons t l ih => exact fun y => (ih _).trans rfl
  exact hid _ _

/-! ### HOLD (R160) -/

theorem enterHold (i : JobId) (h : Lawful v s) : Lawful v (s.enterHold i) := by
  have h1 : Lawful v ((s.setPhase i .hold none).modJob i (fun j => { j with quarantine := 0 })) := by
    have e : (s.setPhase i .hold none).modJob i (fun j => { j with quarantine := 0 }) =
        s.modJob i (fun j => { j with phase := .hold, deadline := none, armed := false, quarantine := 0 }) := by
      unfold State.setPhase State.modJob
      dsimp only
      rw [List.map_map]
      congr 3
      funext x
      cases x with
      | none => rfl
      | some j => by_cases e : j.id = i <;> simp [e]
    rw [e]
    exact h.of (fun k => k.modJobOf i _ (fun _ j _ _ => ⟨rfl, rfl, Nat.zero_le _, fun _ _ _ => rfl⟩))
  unfold State.enterHold; dsimp only; split
  · exact h1
  · refine ((State.Lawful.loose (v := v) ?_).askPass []).afterPass _
    exact h1.of (fun k => k.each _ (fun _ t k => (k.modBr t.pos _ (fun b => by split <;> exact ⟨rfl, Nat.le_refl _⟩)).setDrive
      t.pos 0))

theorem confirmJob (j : Job) (h : Lawful v s) : Lawful v (s.confirmJob j) := by
  unfold State.confirmJob; split
  · exact h
  · split
    · exact (h.of (fun k => k.modJob j.id _)).enterHold j.id
    · exact h.of (fun k => k.modJob j.id _)

/-! ### Reports of closes (R152) -/

theorem closeFailed (j : Job) (x : Side) (f : FaultCode) (h : Lawful v s) : Lawful v (s.closeFailed j x f) := by
  have h1 : Lawful v (s.modJob j.id (fun j => j.setClose x (.failed f))) := h.of (fun k => k.setClose j.id x _)
  unfold State.closeFailed; dsimp only; split
  · split
    · exact h1.of (fun k => k.afterFailure j.id)
    · split
      · exact h1.escalate _
      · exact h1.transfer _ _
      · exact h1
  · exact h1.of (fun k => k.afterFailure j.id)
  · exact h1.of (fun k => (k.markFault _ _ _).checkReturns j.id)
  · exact h1.of (fun k => k.checkReturns j.id)

theorem isoReport (i : JobId) (a : ActuatorNo) (r : ReportKind) (h : Lawful v s) : Lawful v (s.isoReport i a r) := by
  unfold State.isoReport; split
  · exact h.of (fun k => k.lateReport a r)
  · split
    · split
      · exact h.of (fun k => k.closeOk _ _)
      · exact h.closeFailed _ _ _
      · exact h.of (fun k => k.closeAgain _ _ _)
      · exact h.of (fun k => k.closeAgain _ _ _)
      all_goals exact h
    · exact h.of (fun k => k.lateReport a r)

/-! ### Intake (R144, R145, R165) -/

theorem rackAgain (r : Job) (e : List Evidence) (h : Lawful v s) : Lawful v (s.rackAgain r e) := by
  have h1 : Lawful v (s.mergeInto r.id e) := h.of (fun k => k.mergeInto r.id e)
  unfold State.rackAgain; dsimp only; split
  · split
    · exact h1.of (fun k => k.rackPhase r.id)
    · exact h1
  · have h2 : Lawful false (if r.trunk.isNone then (s.mergeInto r.id e).retakeTrunk r.id else s.mergeInto r.id e) := by
      split
      · exact h1.loose.of (fun k => k.retakeTrunk r.id)
      · exact h1.loose
    exact State.Joining.joinAll _ ⟨h2.of (fun k => k.setPhase r.id _ ⟨by decide, by decide⟩), State.Notifying.setPhase _⟩

theorem takeRack (o : Origin) (e : List Evidence) (h : Lawful v s) : Lawful v (s.takeRack o e) := by
  unfold State.takeRack; split
  · exact h.rackAgain _ _
  · exact h.createReal _ _ _ _ _

theorem takeReal (r : IsoRequest) (h : Lawful v s) : Lawful v (s.takeReal r) := by
  have h1 : ∀ l : List Job, Lawful v (s.forEach l (fun s j => s.mergeInto j.id r.evidence)) :=
    fun l => h.each l (fun _ j h => h.of (fun k => k.mergeInto j.id _))
  unfold State.takeReal; dsimp only; split
  · exact h1 _
  · have h2 : ∀ (l : List Position) (t : State), Lawful v t → Lawful v (t.forEach l State.takeFromDrill) :=
      fun l t ht => ht.each l (fun _ p h => h.of (fun k => k.takeFromDrill p))
    have h3 : ∀ t : State, Lawful v t → Lawful v (if t.emptySlot.isNone then t.endDrill else t) := by
      intro t ht; split
      · exact ht.of (fun k => k.endDrill)
      · exact ht
    split
    · exact (h3 _ (h2 _ _ (h1 _))).createReal _ _ _ _ _
    · exact (h3 _ (h2 _ _ (h1 _))).takeRack _ _

end State.Lawful

/-- The drill job of a request (R165). -/
def State.drillOf (s : State) (r : IsoRequest) (ps : List Position) : Job :=
  { id := s.issueId, level := r.level, origin := r.origin, drill := true
    targets := ps.map (fun p => ({ pos := p, warning := if (s.br p).boundTo.isSome then .opened else .none
                                   supply := .pending, ret := .pending, confirm := .none } : Target))
    trunk := none, phase := .notify, deadline := s.warnAt, drainDelay := some s.pol.active.timing.drainDelay
    quarantine := 0, evidence := r.evidence, createdAt := s.now, armed := false }

/-- The drill report of a request (R167). -/
def State.reportOf (s : State) (r : IsoRequest) (ps : List Position) : DrillReport :=
  { id := s.issueId, level := r.level, origin := r.origin, status := .running
    entries := ps.map (fun p => { pos := p, outcome := none, latency := none }) }

theorem createDrill_eq (s : State) (slot : Nat) (r : IsoRequest) (ps : List Position) : s.createDrill slot r ps =
    ((State.warnTargets { s.setSlot slot (some (s.drillOf r ps)) with
      iso.lastId := s.issueId, iso.report := s.reportOf r ps } s.issueId ps).checkNotify s.issueId) := rfl

namespace State.Lawful

variable {v : Bool} {s : State}

/-- A drill job quarantines nothing (R165). -/
theorem createDrill (slot : Nat) (r : IsoRequest) (ps : List Position) (h : Lawful v s) : Lawful v (s.createDrill slot r ps) := by
  have h1 : ∀ j : Job, j.id = s.issueId → j.drill = true → Lawful v (s.setSlot slot (some j)) := by
    intro j hj hd
    have hh : slotHeld (some j) = 0 := by simp [slotHeld, Job.beforeHold, hd]
    have ht : (s.setSlot slot (some j)).Tabled := h.table.setSlot slot j (fun x hx => hj ▸ issueId_fresh h.table x hx)
      (fun e => absurd (hd.symm.trans e) Bool.noConfusion)
    refine ⟨h.size, ht, fun e => (h.fit e).imp id (fun g => ?_)⟩
    have hq := setSlot_quarantined s slot j hh
    have hb : (s.setSlot slot (some j)).budget = s.budget := rfl
    have hg : (s.setSlot slot (some j)).grantSum = s.grantSum := rfl
    have hw : (s.setSlot slot (some j)).draws = s.draws := rfl
    unfold State.GrantsFit at g ⊢
    rw [hb, hg, hw]; omega
  rw [createDrill_eq]
  refine State.Lawful.of (h1 (s.drillOf r ps) rfl rfl) (fun k => State.Keeps.checkNotify _ (State.Keeps.warnTargets _ _ ?_))
  exact k.other

theorem takeDrill (r : IsoRequest) (h : Lawful v s) : Lawful v (s.takeDrill r) := by
  unfold State.takeDrill; dsimp only
  generalize (if r.level = JobLevel.rack then s.newcomers else _) = ps
  split
  · exact h
  · split
    · exact h
    · exact h.createDrill _ _ _

theorem takeRequest (r : IsoRequest) (h : Lawful v s) : Lawful v (s.takeRequest r) := by
  unfold State.takeRequest; repeat' split
  · exact h.takeDrill r
  · exact h.takeRack _ _
  · exact h.takeReal r

end State.Lawful

end Sys2Proof.Machine

/-! ## The ledger through localization, drip sense, the window and the clients of the bus (R72, R96, R115–R141) -/

namespace Sys2Proof.Machine

-- One after another: side by side the proofs of the whole text take more memory than a check may.
set_option Elab.async false

namespace State.Lawful

variable {v : Bool} {s : State}

/-! ### Localization (R131–R141) -/

theorem caseNotice (ev : CaseEvent) (src : CaseSource) (d : Bool) (e : List Evidence) (t : Option Time)
    (r : Option IsoRequest) (h : Lawful v s) : Lawful v (s.caseNotice ev src d e t r) := h.other

theorem setCase (k : Nat) (c : Option Case) (h : Lawful v s) : Lawful v (s.setCase k c) := h.other

theorem handRequest (src : CaseSource) (r : IsoRequest) (h : Lawful v s) : Lawful v (s.handRequest src r) := by
  unfold State.handRequest; split
  · exact h.caseNotice _ _ _ _ _ _
  · exact h.takeRequest r

theorem makeRequest (ev : CaseEvent) (src : CaseSource) (r : IsoRequest) (h : Lawful v s) :
    Lawful v (s.makeRequest ev src r) := (h.caseNotice _ _ _ _ _ _).handRequest src r

theorem expireCase (k : Nat) (h : Lawful v s) : Lawful v (s.expireCase k) := by
  unfold State.expireCase; split
  · exact h
  · exact (h.setCase k none).makeRequest _ _ _

theorem openCase (k : Nat) (ps : List Position) (c : ChannelNo) (d : Bool) (h : Lawful v s) :
    Lawful v (s.openCase k ps c d) := by
  unfold State.openCase; dsimp only; split
  · exact ((h.setCase _ _).caseNotice _ _ _ _ _ _).expireCase k
  · exact (h.setCase _ _).caseNotice _ _ _ _ _ _

theorem addToCase (k : Nat) (e : Evidence) (h : Lawful v s) : Lawful v (s.addToCase k e) := by
  unfold State.addToCase; split
  · exact h
  · exact h.setCase _ _

theorem openOrRequest (k : Nat) (ps : List Position) (c : ChannelNo) (d : Bool) (h : Lawful v s) :
    Lawful v (s.openOrRequest k ps c d) := by
  unfold State.openOrRequest; dsimp only; split
  · exact h.openCase _ _ _ _
  · exact h.makeRequest _ _ _

theorem emptyZone (z : Nat) (e : Evidence) (h : Lawful v s) : Lawful v (s.emptyZone z e) := h.caseNotice _ _ _ _ _ _

theorem moveBase (z : Nat) (b : Case) (e : Evidence) (ps : List Position) (h : Lawful v s) :
    Lawful v (s.moveBase z b e ps) := by
  have h1 : ∀ c : Case, Lawful v (((s.setCase Config.baseEntry none).setCase z (some c)).caseNotice .absorbed (c.source z)
      c.drill c.evidence (some c.deadline) none) := fun c => ((h.setCase _ _).setCase _ _).caseNotice _ _ _ _ _ _
  unfold State.moveBase; dsimp only; split
  · exact h1 _
  · exact ((h1 _).setCase _ _).makeRequest _ _ _

theorem mergeBase (z : Nat) (b c : Case) (e : Evidence) (h : Lawful v s) : Lawful v (s.mergeBase z b c e) :=
  ((h.setCase _ _).setCase _ _).caseNotice _ _ _ _ _ _

theorem ropeToBase (z : Nat) (e : Evidence) (h : Lawful v s) : Lawful v (s.ropeToBase z e) := by
  unfold State.ropeToBase; dsimp only; split
  · exact (h.addToCase _ _).emptyZone _ _
  · exact h.addToCase _ _

theorem ropeOverBase (z : Nat) (b : Case) (e : Evidence) (h : Lawful v s) : Lawful v (s.ropeOverBase z b e) := by
  unfold State.ropeOverBase; split
  · exact (h.addToCase _ _).ropeToBase _ _
  · split
    · split
      · exact h.addToCase _ _
      · exact h.mergeBase _ _ _ _
    · split
      · exact h.ropeToBase _ _
      · exact h.moveBase _ _ _ _

theorem ropeOnset (z : Nat) (d : Bool) (h : Lawful v s) : Lawful v (s.ropeOnset z d) := by
  unfold State.ropeOnset; dsimp only; split
  · exact h.ropeOverBase _ _ _
  · exact h.addToCase _ _
  · split
    · exact h.emptyZone _ _
    · exact h.openOrRequest _ _ _ _

theorem baseOnset (c : ChannelNo) (d : Bool) (h : Lawful v s) : Lawful v (s.baseOnset c d) := by
  unfold State.baseOnset; dsimp only; split
  · exact h.addToCase _ _
  · split
    · exact h.caseNotice _ _ _ _ _ _
    · exact h.openOrRequest _ _ _ _

theorem narrow (l : List (Nat × Case)) (p : Position) (e : Evidence) (o : Origin) (h : Lawful v s) :
    Lawful v (s.narrow l p e o) :=
  (h.each l (fun _ _ h => (h.setCase _ _).caseNotice _ _ _ _ _ _)).handRequest _ _

theorem fineOnset (p : Position) (e : Evidence) (o : Origin) (h : Lawful v s) : Lawful v (s.fineOnset p e o) := by
  unfold State.fineOnset; dsimp only
  generalize (if e.drill = true then _ else _ : List (Nat × Case)) = closing
  split
  · split
    · exact h.makeRequest _ _ _
    · exact h.each _ (fun _ _ h => h.addToCase _ _)
  · exact h.narrow _ _ _ _

theorem channelEvent (x : ChannelEvent) (h : Lawful v s) : Lawful v (s.channelEvent x) := by
  unfold State.channelEvent; split
  · unfold State.channelOnset; split
    · exact h.ropeOnset _ _
    · exact h.fineOnset _ _ _
    · exact h.baseOnset _ _
  · exact h

theorem imbalanceEvent (x : ImbalanceEvent) (h : Lawful v s) : Lawful v (s.imbalanceEvent x) := by
  unfold State.imbalanceEvent; split
  · exact h.fineOnset _ _ _
  · exact h

theorem cancelCases (h : Lawful v s) : Lawful v s.cancelCases := by
  refine h.each _ (fun s e h => ?_)
  split
  · exact h
  · split
    · exact (h.setCase _ _).caseNotice _ _ _ _ _ _
    · exact h

/-! ### Drip sense (R115–R123) -/

/-- Guards are derived anew; a change of one asks for a pass, which is run at once (R9, R123). -/
theorem rederive (cs : List ChannelNo) (h : Lawful v s) : Lawful v (s.rederive cs) := by
  have h1 : Lawful v (s.deriveGuards (s.watchedBy cs)) := h.of (fun k => k.deriveGuards _)
  unfold State.rederive; dsimp only; split
  · exact h1.loose.pass [] []
  · exact h1

/-- Work for which the line is held (R71). -/
theorem holdingLine {f : State → State} (hf : ∀ t, Lawful v t → Lawful v (f t)) (h : Lawful v s) :
    Lawful v (s.holdingLine f) := by
  have h1 : Lawful v { s with bus.line := .stopping } := h.other
  exact (hf _ h1).other

theorem stillJoined (b : State) (h : Lawful v s) : Lawful v (s.stillJoined b) :=
  h.each _ (fun _ p h => h.of (fun k => k.modBr p _))

theorem sampleEvent (l : List Sample) (e : Bool) (h : Lawful v s) : Lawful v (s.sampleEvent l e) := by
  unfold State.sampleEvent; dsimp only
  refine State.Lawful.of (State.Lawful.stillJoined _ (State.Lawful.each _ (State.Lawful.holdingLine
    (fun _ h => h.rederive _) (State.Lawful.each _ (State.Lawful.each _ ?_ (fun _ _ h => h)) (fun t x h => ?_)))
    (fun _ _ h => h.channelEvent _))) (fun k => k.arbiterSpeaksLast.grantLine)
  · exact h.other
  · split
    · exact h
    · exact h.other

theorem maskChannel (c : ChannelNo) (h : Lawful v s) : Lawful v (s.maskChannel c) := by
  unfold State.maskChannel; dsimp only
  refine State.Lawful.rederive _ ?_
  exact h.other

theorem unmaskChannel (c : ChannelNo) (h : Lawful v s) : Lawful v (s.unmaskChannel c) := by
  unfold State.unmaskChannel; dsimp only
  refine State.Lawful.rederive _ ?_
  exact h.other

end State.Lawful

/-! ### The measurement window (R96) -/

namespace State.Keeps

variable {m : Bool} {b s : State}

theorem followMarks (p : Position) (x : MeterSide) (h : Keeps m b s) : Keeps m b (s.followMarks p x) := by
  unfold State.followMarks; repeat' split
  · exact h
  · exact (h.markFault _ _ _).modBr p _
  · exact h.modBr p _

theorem judgeMeters (p : Position) (h : Keeps m b s) : Keeps m b (s.judgeMeters p) :=
  ((((h.modBr p (fun b => { b with supplyMeter := b.supplyMeter.judge (s.flowExpected p) })).followMarks p .supply).modBr p
    (fun b => { b with returnMeter := b.returnMeter.judge (s.flowExpected p) })).followMarks p .ret)

theorem judgeSettle (p : Position) (h : Keeps m b s) : Keeps m b (s.judgeSettle p) := by
  unfold State.judgeSettle; split
  · dsimp only
    have h1 := h.modBr p (fun b => { b with
      settleRun := if b.settleRun < s.pol.active.timing.settleCount then b.settleRun + 1 else b.settleRun
      settled := b.settled || s.settlesNow p })
    split
    · exact h1.notify _
    · exact h1
  · exact h.unsettle _ _

theorem adjust (p : Position) (q : Bool) (h : Keeps m b s) : Keeps m b (s.adjust p q) := by
  unfold State.adjust; dsimp only; split
  · split
    · exact h
    · exact (h.modBr p _).placeFlow _ _
  · exact h

theorem finishTrim (p : Position) (h : Keeps m b s) : Keeps m b (s.finishTrim p) := by
  have h1 := h.modBr p (fun b => { b with controlTarget := some ((s.br p).curveTarget (s.br p).drive), trim := none })
  unfold State.finishTrim; dsimp only; split <;> split
  · exact h1.placeFlow _ _
  · exact h1
  · exact h1.placeFlow _ _
  · exact h1

theorem advanceTrim (p : Position) (x : Bool) (h : Keeps m b s) : Keeps m b (s.advanceTrim p x) := by
  unfold State.advanceTrim; split
  · exact h
  · rename_i tr _
    have h1 := h.modBr p (fun b => { b with trim := some { tr with windows := tr.windows + 1 } })
    dsimp only; split
    · exact ((h1.modBr p _).finishTrim p).complete _ _ _
    · split
      · exact (h1.finishTrim p).complete _ _ _
      · exact h1

theorem judgeImbalance (p : Position) (h : Keeps m b s) : Keeps m b (s.judgeImbalance p) := by
  have hj : ∀ (x : Branch) (i j : Nat), (x.judgeImbalance i j).grant = x.grant ∧ (x.judgeImbalance i j).draw ≤ x.draw := by
    intro x i j
    unfold Branch.judgeImbalance; dsimp only; repeat' split
    all_goals exact ⟨rfl, Nat.le_refl _⟩
  unfold State.judgeImbalance; dsimp only; repeat' split
  · exact h.modBr p _
  · exact h.modBr p _ (fun x => hj x _ _)
  · exact h

theorem branchWindow (p : Position) (h : Keeps m b s) : Keeps m b (s.branchWindow p) :=
  ((((((h.modBr p _).judgeMeters p).judgeSettle p).adjust p _).advanceTrim p _).judgeImbalance p).modBr p _

end State.Keeps

namespace State.Lawful

variable {v : Bool} {s : State}

theorem judgeStop (p : Position) (n : Nat) (h : Lawful v s) : Lawful v (s.judgeStop p n) := by
  unfold State.judgeStop; dsimp only; split
  · exact State.Lawful.askDrawPass (State.Lawful.of h (fun k => State.Keeps.endVerify _ _ _ k.other))
  · split
    · exact State.Lawful.askDrawPass (State.Lawful.of h (fun k => State.Keeps.endVerify _ _ _ k.other))
    · exact State.Lawful.of h (fun k => State.Keeps.placeSvc _ _ _ k.other)

theorem verifyWindow (h : Lawful v s) : Lawful v s.verifyWindow := by
  unfold State.verifyWindow; repeat' split
  · exact h.other
  · exact h.judgeStop _ _
  · exact h
  · exact h

theorem windowExpiry (h : Lawful v s) : Lawful v s.windowExpiry := by
  have h1 : Lawful v (s.advanceCounter.forEach Config.positions State.branchWindow) :=
    State.Lawful.of h (fun k => State.Keeps.each _ k.other (fun _ p k => k.branchWindow p))
  have h2 : ∀ t : State, Lawful v t → Lawful v t.sendTelemetry.nextWindow := fun t ht => ht.other
  unfold State.windowExpiry; dsimp only
  exact ((((h2 _ h1).each _ (fun _ x h => h.imbalanceEvent x)).verifyWindow).each _ (fun _ j h => h.confirmJob j))

/-! ### The clients of the bus (R72) -/

theorem freeDraw (p : Position) (h : Lawful v s) : Lawful v (s.freeDraw p) := by
  unfold State.freeDraw; split
  · exact (h.of (fun k => k.clearDraw p)).askDrawPass
  · exact h

theorem serviceReport (a : ActuatorNo) (r : ReportKind) (h : Lawful v s) : Lawful v (s.serviceReport a r) := by
  have h1 : ∀ st x, Lawful v (s.endService st x) := fun st x => h.of (fun k => k.endService st x)
  unfold State.serviceReport; split
  · exact h
  · split
    · dsimp only; split
      · exact h1 _ _
      · exact (h1 _ _).freeDraw _
    · exact h

theorem verifyFault (p : Position) (f : FaultCode) (h : Lawful v s) : Lawful v (s.verifyFault p f) :=
  (h.of (fun k => k.endVerify p (.fault f) true)).askDrawPass

theorem verifyReport (r : ReportKind) (h : Lawful v s) : Lawful v (s.verifyReport r) := by
  have h1 : ∀ x, Lawful v (s.verifyMove x) := fun x => h.of (fun k => k.verifyMove x)
  unfold State.verifyReport; repeat' split
  all_goals first
    | exact h
    | exact h1 _
    | exact h.verifyFault _ _

theorem deliverOne (r : Report) (h : Lawful v s) : Lawful v (s.deliverOne r) := by
  unfold State.deliverOne; split
  · exact h
  · exact h.of (fun k => k.flowReport _ _)
  · exact h.isoReport _ _ _
  · exact h.of (fun k => k.openingReport _ _)
  · exact h.serviceReport _ _
  · exact h.verifyReport _
  · exact h.of (fun k => k.closingReport _ _)

theorem deliverSome : ∀ (n : Nat) {s : State}, Lawful v s → Lawful v (s.deliverSome n)
  | 0, _, h => h.other
  | n + 1, s, h => by
    unfold State.deliverSome; split
    · exact h
    · rename_i r l _
      have h1 : Lawful v { s with bus.reports := l } := h.other
      exact deliverSome n (h1.deliverOne r)

theorem deliver (h : Lawful v s) : Lawful v s.deliver := deliverSome _ h

end State.Lawful

end Sys2Proof.Machine

/-! ## The ledger at the end of an event, at start-up and through the events of the bus (R31, R69, R72, R82, R189–R191) -/

namespace Sys2Proof.Machine

-- One after another: side by side the proofs of the whole text take more memory than a check may.
set_option Elab.async false

/-! ### The end of an event (R31) -/

/-- After the pass of an event: the first law holds where `v` asks for it, and every report waiting is mild (R31, R72). -/
structure State.Settled (v : Bool) (s : State) : Prop where
  size : s.branches.length = 24
  table : s.Tabled
  fit : v = true → s.GrantsFit
  gentle : s.Gentle

namespace State.Settled

variable {v : Bool} {s t : State}

theorem lawful (h : Settled v s) : Lawful v s := ⟨h.size, h.table, fun e => Or.inr (h.fit e)⟩

theorem keeps (h : Settled v s) (k : Keeps true s t) : Settled v t :=
  have h1 := h.lawful.keeps k
  ⟨h1.size, h1.table, fun e => (h.fit e).keeps h.table k, h.gentle.keeps k⟩

theorem of (h : Settled v s) (f : Keeps true s s → Keeps true s t) : Settled v t := h.keeps (f (Keeps.refl true s))

/-- The work of the event is no part of the books. -/
theorem work (w : Work) (h : Settled v s) : Settled v { s with work := w } := by
  have h1 : Lawful false { s with work := w } := h.lawful.table_of
  exact ⟨h.size, h1.table, h.fit, h.gentle⟩

theorem askDrawPass (h : Settled v s) : Settled v s.askDrawPass := by
  unfold State.askDrawPass; split
  · exact h
  · exact h.work _

/-- Fewer reports wait. -/
theorem reports (l : List Report) (hl : ∀ r ∈ l, r ∈ s.bus.reports) (h : Settled v s) :
    Settled v { s with bus.reports := l } := by
  have h1 : Lawful false { s with bus.reports := l } := h.lawful.table_of
  exact ⟨h.size, h1.table, h.fit, fun r hr => h.gentle r (hl r hr)⟩

theorem serviceReport (a : ActuatorNo) (r : ReportKind) (h : Settled v s) : Settled v (s.serviceReport a r) := by
  have h1 : ∀ st x, Settled v (s.endService st x) := fun st x => h.of (fun k => k.endService st x)
  unfold State.serviceReport; split
  · exact h
  · split
    · dsimp only; split
      · exact h1 _ _
      · unfold State.freeDraw; split
        · exact State.Settled.askDrawPass (State.Settled.of (h1 _ _) (fun k => k.clearDraw _))
        · exact h1 _ _
    · exact h

theorem verifyReport {r : ReportKind} (hr : r = .superseded ∨ r = .refusedReserved) (h : Settled v s) :
    Settled v (s.verifyReport r) := by
  have h1 : ∀ x, Settled v (s.verifyMove x) := fun x => h.of (fun k => k.verifyMove x)
  unfold State.verifyReport; split
  · rcases hr with rfl | rfl
    · split
      all_goals first
        | exact h
        | exact h1 _
        | (rename_i e; exact absurd e (by simp))
    · split
      all_goals first
        | exact h
        | skip
      all_goals simp_all
  · exact h

/-- A mild report is acted on by a service move, a verify or a closing sequence alone (R72). -/
theorem deliverOne {r : Report} (hr : r.Mild) (h : Settled v s) : Settled v (s.deliverOne r) := by
  unfold State.deliverOne; split
  · exact h
  · exact h.of (fun k => k.flowReport _ _)
  · rename_i i _
    have : s.isoReport i r.actuator r.kind = s := by
      rcases hr with e | e <;> rw [e] <;> unfold State.isoReport State.lateReport <;>
        cases s.job? i <;> cases sideOf r.actuator <;> simp
    rw [this]; exact h
  · exact h.of (fun k => k.openingReport _ _)
  · exact h.serviceReport _ _
  · exact h.verifyReport hr
  · exact h.of (fun k => k.closingReport _ _)

theorem deliverSome : ∀ (n : Nat) {s : State}, Settled v s → Settled v (s.deliverSome n)
  | 0, _, h => h.reports [] (fun _ hr => nomatch hr)
  | n + 1, s, h => by
    unfold State.deliverSome; split
    · exact h
    · rename_i r l e
      have h1 : Settled v { s with bus.reports := l } := h.reports l (fun x hx => e ▸ List.mem_cons_of_mem r hx)
      exact deliverSome n (h1.deliverOne (h.gentle r (e ▸ List.mem_cons_self)))

theorem deliver (h : Settled v s) : Settled v s.deliver := deliverSome _ h

theorem flush (h : Settled v s) : Settled v s.flush := by
  have h1 := h.of (fun k => k.each s.work.held (fun _ x k => k.hand x))
  exact h1.work _

end State.Settled

namespace State.Lawful

variable {v : Bool} {s : State}

/-- The pass an event has asked for puts the first law right (R31, R32). -/
theorem runPass (h : Lawful v s) (hr : s.bus.reports = []) : Settled v s.runPass := by
  have hg : s.Gentle := fun r hm => by rw [hr] at hm; exact nomatch hm
  have h1 : Settled v (if s.work.due
      then (State.pass { s with work.due := false, work.left := [] } s.work.left []).arbiterSpeaksLast else s) := by
    split
    · have h2 : Lawful false { s with work.due := false, work.left := [] } := h.table_of
      have h3 := h2.pass (v := v) s.work.left []
      have h4 : State.GrantsFit (State.pass { s with work.due := false, work.left := [] } s.work.left []) :=
        pass_grantsFit h2.size _ _
      have h5 := pass_gentle (s := { s with work.due := false, work.left := [] }) s.work.left [] (hg.of_bus rfl)
      exact State.Settled.of ⟨h3.size, h3.table, fun _ => h4, h5⟩ (fun k => k.arbiterSpeaksLast)
    · rename_i hd
      exact ⟨h.size, h.table, fun e => (h.fit e).resolve_left hd, hg⟩
  revert h1
  unfold State.runPass; dsimp only
  generalize (if s.work.due = true then _ else s) = t
  intro h1
  exact State.Settled.of (h1.work { t.work with after := [] }) (fun k => k.each _ (fun _ x k => k.follow x))

theorem settle (h : Lawful v s) : Settled v s.settle := (h.deliver.runPass (deliver_reports s)).deliver

/-- At the end of an event the first law holds (R22, R31). -/
theorem finish (h : Lawful v s) : Settled v s.finish := by
  have h1 : Lawful v s.settle.grantLine := h.settle.lawful.of (fun k => k.grantLine)
  exact h1.settle.flush.of (fun k => k.transmit)

theorem finishLine (h : Lawful v s) : Settled v s.finishLine := by
  have h1 : Lawful v { s.settle with bus.line := .free } := h.settle.lawful.other
  exact h1.finish

end State.Lawful

/-! ### The end of the survey (R191) -/

namespace State.Lawful

variable {v : Bool} {s : State}

theorem closeStrays (h : Lawful v s) : Lawful v s.closeStrays := by
  unfold State.closeStrays; split
  · exact h
  · exact h.each _ (fun _ _ h => h.of (fun k => k.closeAgain _ _ _))

theorem leaveHeld (p : Position) (h : Lawful v s) : Lawful v (s.leaveHeld p) := by
  unfold State.leaveHeld; split
  · exact h.of (fun k => ((((k.modBr p _).takeStamp p).modBr p _).unsettle p _).followCurve p)
  · exact h.of (fun k => k.modBr p _)

theorem shutIdle (p : Position) (h : Lawful v s) : Lawful v (s.shutIdle p) := by
  unfold State.shutIdle; split
  · exact h.of (fun k => k.shutValves p)
  · exact h

theorem endSurvey (h : Lawful v s) : Lawful v s.endSurvey := by
  unfold State.endSurvey; dsimp only
  have h1 : Lawful false { s with boot.survey := none } := h.loose.other
  exact ((((h1.closeStrays.each _ (fun _ p h => h.leaveHeld p)).each _ (fun _ p h => h.shutIdle p)).of
    (fun k => k.notify _)).askPass [])

theorem surveyDone (a : ActuatorNo) (h : Lawful v s) : Lawful v (s.surveyDone a) := by
  unfold State.surveyDone; split
  · exact h
  · dsimp only; split
    · exact h.endSurvey
    · exact h.other

end State.Lawful

/-! ### Replies, failures and timers (R69–R83) -/

namespace State.Keeps

variable {b s : State}

/-- A change of a shadow. -/
theorem modAct {m : Bool} (a : ActuatorNo) (f : Actuator → Actuator) (h : Keeps m b s) : Keeps m b (s.modAct a f) := h.other

theorem hear (a : ActuatorNo) (q : Nat) (f : ActuatorFlags) (h : Keeps false b s) : Keeps false b (s.hear a q f) :=
  (h.modAct a _).recheckValveFault a

theorem judgeIdle (a : ActuatorNo) (h : Keeps false b s) : Keeps false b (s.judgeIdle a) := by
  unfold State.judgeIdle; split
  · exact (h.modAct a _).report _ _ _ (fun e => nomatch e)
  · exact h

theorem judgeMove (a : ActuatorNo) (q : Nat) (f : ActuatorFlags) (h : Keeps false b s) : Keeps false b (s.judgeMove a q f) := by
  unfold State.judgeMove; repeat' split
  · exact h
  · exact h.failMove _ _
  · exact h.completeMove _
  · exact h.modAct a _

theorem judgeTracking (a : ActuatorNo) (q : Nat) (f : ActuatorFlags) (h : Keeps false b s) :
    Keeps false b (s.judgeTracking a q f) := by
  unfold State.judgeTracking; repeat' split
  · exact h
  · exact h.judgeIdle a
  · exact h.failMove _ _
  · exact h.completeMove _
  · exact h.modAct a _

theorem judgeSurvey (a : ActuatorNo) (q : Nat) (f : ActuatorFlags) (h : Keeps false b s) :
    Keeps false b (s.judgeSurvey a q f) := by
  unfold State.judgeSurvey; split
  · exact h.failMove _ _
  · exact h.modAct a _

theorem startTimerOut (a : ActuatorNo) (x : Move) (h : Keeps false b s) : Keeps false b (s.startTimerOut a x) := by
  unfold State.startTimerOut; split
  · exact h.modAct a _
  · exact h.failMove _ _

theorem trackingDue (a : ActuatorNo) (h : Keeps false b s) : Keeps false b (s.trackingDue a) := by
  unfold State.trackingDue; split
  · exact h.other
  · exact h

theorem idleDue (a : ActuatorNo) (h : Keeps false b s) : Keeps false b (s.idleDue a) := by
  unfold State.idleDue; dsimp only
  split <;> split
  · exact h
  · exact h.placePoll _ _
  · exact h
  · exact h.placePoll _ _

theorem abortReport (c : Client) (a : ActuatorNo) (h : Keeps false b s) : Keeps false b (s.abortReport c a) := by
  unfold State.abortReport; split
  · exact h.report _ _ _ (fun e => nomatch e)
  · exact h

/-- A bus clear clears fault marks and writes no grant (R82). -/
theorem clearBus (h : Keeps false b s) : Keeps false b s.clearBus := by
  unfold State.clearBus; dsimp only
  have h1 : Keeps false b ((s.forEach (s.bus.isoQ ++ s.bus.flowQ ++ s.bus.svcQ)
      (fun s c => s.abortReport c.client c.actuator)).forEach
      (Config.actuators.filterMap (fun a => (s.act a).move.map (fun m => (m.client, a))))
      (fun s x => s.abortReport x.1 x.2)) :=
    each _ (each _ h (fun _ _ h => h.abortReport _ _)) (fun _ _ h => h.abortReport _ _)
  revert h1
  generalize (s.forEach (s.bus.isoQ ++ s.bus.flowQ ++ s.bus.svcQ) (fun s c => s.abortReport c.client c.actuator)).forEach
      _ _ = u
  intro h1
  have hg : (u.branches.map (fun x => { x with valveFault := false })).map (fun x => x.grant) =
      u.branches.map (fun x => x.grant) := by rw [List.map_map]; rfl
  have hd : sumOf (fun x : Branch => x.draw) (u.branches.map (fun x => { x with valveFault := false })) =
      sumOf (fun x : Branch => x.draw) u.branches := sumOf_map _ _ _
  exact ⟨fun e => slots_table (s := u) rfl (h1.table e), hg.trans h1.grants, Nat.le_trans (Nat.le_of_eq hd) h1.draws,
    h1.supply, h1.policy, h1.due, h1.ran, h1.after, fun e => nomatch e⟩

theorem clearVerify (h : Keeps false b s) : Keeps false b s.clearVerify := by
  unfold State.clearVerify; split
  · exact h.endVerify _ _ _
  · exact h

theorem clearService (h : Keeps false b s) : Keeps false b s.clearService := by
  unfold State.clearService; split
  · exact h
  · dsimp only; split
    · exact (h.endService _ _).clearDraw _
    · exact h.endService _ _

end State.Keeps

namespace State.Lawful

variable {v : Bool} {s : State}

theorem answered (t : Transaction) (q : Nat) (f : ActuatorFlags) (h : Lawful v s) : Lawful v (s.answered t q f) := by
  unfold State.answered; split
  · exact h.of (fun k => k.judgeMove _ _ _)
  · exact h.of (fun k => k.judgeTracking _ _ _)
  · exact h.of (fun k => k.judgeIdle _)
  · exact (h.of (fun k => k.judgeSurvey _ _ _)).surveyDone _
  · exact h.other

theorem unanswered (t : Transaction) (h : Lawful v s) : Lawful v (s.unanswered t) := by
  unfold State.unanswered; split
  · exact h.of (fun k => k.failMove _ _)
  · exact h.of (fun k => k.failMove _ _)
  · exact h.of (fun k => k.report _ _ _ (fun e => nomatch e))
  · exact h.surveyDone _
  · exact h.other

theorem attemptFailed (t : Transaction) (h : Lawful v s) : Settled v (s.attemptFailed t) := by
  unfold State.attemptFailed; split
  · exact (h.of (fun k => k.sendRequest _ _ _)).finish
  · have h1 : Lawful v (s.unheard t.actuator) := h.other
    exact (h1.unanswered t).finishLine

theorem replyArrives (r : ValveReply) (t : Transaction) (h : Lawful v s) : Settled v (s.replyArrives r t) := by
  unfold State.replyArrives; split
  · exact ((h.of (fun k => k.hear _ _ _)).answered t _ _).finishLine
  · exact h.attemptFailed t

theorem busClear (h : Lawful v s) : Lawful v s.busClear := by
  have h1 : Lawful v s.clearBus.clearVerify.clearService := h.of (fun k => k.clearBus.clearVerify.clearService)
  unfold State.busClear; dsimp only; split
  · exact h1.askDrawPass
  · exact h1

end State.Lawful

/-! ### Start-up (R189) -/

/-- The jobs of a table that holds a restored job alone (R190). -/
theorem restoredSlots_jobs (o : Option Job) : (restoredSlots o).filterMap id = o.toList := by
  cases o with
  | none => rfl
  | some j => unfold restoredSlots; dsimp only; split <;> rfl

/-- A restored job stands in HOLD and holds no quarantine (R190). -/
theorem restoredJob_released {r : HoldRecord} {n : Time} {j : Job} (h : r.restoredJob n = some j) : j.quarantine = 0 := by
  unfold HoldRecord.restoredJob at h
  split at h
  · exact nomatch h
  · rw [← Option.some.inj h]

theorem restoredSlots_length (o : Option Job) : (restoredSlots o).length = 9 := by
  cases o with
  | none => rfl
  | some j => exact List.length_set

theorem loaded_tabled (s : State) (c : StartCause) : (s.loaded c).Tabled := by
  have hj : (s.loaded c).jobs = (s.store.record.restoredJob s.now).toList := restoredSlots_jobs _
  refine ⟨restoredSlots_length _, ⟨?_, fun j hm _ _ => ?_⟩⟩
  · rw [hj]; cases s.store.record.restoredJob s.now with
    | none => exact List.nodup_nil
    | some j => exact List.nodup_cons.2 ⟨List.not_mem_nil, List.nodup_nil⟩
  · rw [hj] at hm
    exact restoredJob_released (Option.mem_toList.1 hm)

/-- No grant and no draw stands after a reset (R189). -/
theorem loaded_grantsFit (s : State) (c : StartCause) : (s.loaded c).GrantsFit := by
  have zero : ∀ l : List Position, sumOf (fun _ : Position => 0) l = 0 := by
    intro l
    induction l with
    | nil => rfl
    | cons p l ih => rw [sumOf_cons, ih]
  have hg : (s.loaded c).grantSum = 0 := (sumOf_map _ _ _).trans (zero _)
  have hd : (s.loaded c).draws = 0 := (sumOf_map _ _ _).trans (zero _)
  unfold State.GrantsFit
  rw [hg, hd]; omega

/-- Start-up comes up lawful, whatever went before (R189). -/
theorem State.Lawful.startUp (v : Bool) (s : State) (c : StartCause) : State.Lawful v (s.startUp c) := by
  have h0 : (s.loaded c).Lawful v :=
    ⟨(List.length_map ..).trans (by decide), loaded_tabled s c, fun _ => Or.inr (loaded_grantsFit s c)⟩
  unfold State.startUp
  rw [wake_eq]
  generalize s.loaded c = t at h0
  exact h0.of (fun k => (k.deriveGuards Config.positions).each Config.actuators (fun _ a k => k.placePoll a true))

end Sys2Proof.Machine

/-! ## The ledger through the commands: every block leaves the first law kept or its pass run (R22, R31, R174) -/

namespace Sys2Proof.Machine

-- One after another: side by side the proofs of the whole text take more memory than a check may.
set_option Elab.async false

/-- A block keeps the part lawful. -/
def Block.Lawful (run : Block) : Prop := ∀ (v : Bool) (s : State), s.Lawful v → State.Lawful v (run s).1

theorem Block.Lawful.onBound (c : Cmd) (run : Position → Block) (h : ∀ p, Block.Lawful (run p)) :
    Block.Lawful (onBound c run) := by
  intro v s hs
  unfold Machine.onBound; split
  · exact h _ v s hs
  · exact hs

/-- A block that answers alone. -/
theorem Block.Lawful.unchanged {run : Block} (h : ∀ s, (run s).1 = s) : Block.Lawful run := fun _ s hs => (h s).symm ▸ hs

namespace State.Lawful

variable {v : Bool} {s : State}

/-! ### Flow and supply (R23–R38) -/

theorem writeRequest (p : Position) (n : Nat) (u : Bool) (h : Lawful v s) : Lawful v (s.writeRequest p n u) := by
  unfold State.writeRequest; dsimp only; split
  · exact h.of (fun k => (k.takeStamp p).modBr p _)
  · exact h.of (fun k => k.modBr p _)

theorem setDraw (p : Position) (h : Lawful v s) : Lawful v (s.setDraw p) := by
  unfold State.setDraw; split
  · exact (h.modBr p _).pass [] []
  · exact h

/-! ### The apply (R58) -/

theorem copyPolicy (h : Lawful v s) : Lawful false s.copyPolicy := by
  have h0 : Lawful false { s with pol.active := s.pol.staged, pol.dirty := false } := h.table_of
  have h1 := h0.each Config.positions (f := State.copyLimits) (fun _ p h => h.of (fun k => k.modBr p _))
  unfold State.copyPolicy; dsimp only
  revert h1
  generalize State.forEach { s with pol.active := s.pol.staged, pol.dirty := false } Config.positions State.copyLimits = u
  intro h1
  have h2 : Lawful false { u with pol.derived := s.pol.staged.derive u.budget } := h1.other
  exact (h2.each _ (fun _ p h => h.of (fun k => k.modBr p _))).of (fun k => k.deriveGuards _)

theorem reage (b : State) (h : Lawful false s) : Lawful false (s.reage b) := by
  unfold State.reage; split
  · dsimp only; split
    · exact h.table_of
    · exact h.table_of
  · exact h

theorem recurve (b : State) (p : Position) (h : Lawful v s) : Lawful v (s.recurve b p) := by
  unfold State.recurve; split
  · dsimp only; split
    · exact h.of (fun k => (k.cancelTrim p _).handOver p)
    · exact h.of (fun k => ((k.cancelTrim p _).modBr p _).unsettle p _)
  · exact h

theorem rehall (b : State) (h : Lawful v s) : Lawful v (s.rehall b) := by
  unfold State.rehall; split
  · exact h.other
  · exact h

theorem occupancy (p : Position) (h : Lawful v s) : Lawful v (s.occupancy p) := by
  unfold State.occupancy; split
  · exact h.of (fun k => ((k.modBr p _).clearArbiterFields p).shutBranch p)
  · exact h.of (fun k => ((k.modBr p _).takeStamp p).returnRule p)
  · exact h

/-- The pass of an apply puts the first law right under the new policy (R58). -/
theorem applyPolicy (h : Lawful v s) : Lawful v s.applyPolicy := by
  unfold State.applyPolicy; dsimp only
  exact State.Lawful.pass _ _ (State.Lawful.each _ (State.Lawful.rehall s (State.Lawful.each _
    (h.copyPolicy.reage s) (fun _ p h => h.recurve s p))) (fun _ p h => h.occupancy p))

end State.Lawful

theorem flowRequestOn_lawful (n : Nat) (u : Bool) (p : Position) : Block.Lawful (flowRequestOn n u p) := by
  intro v s h; unfold flowRequestOn; split
  · exact h
  · split
    · exact h
    · exact (h.writeRequest p n u).loose.pass [] []

theorem flowReleaseOn_lawful (p : Position) : Block.Lawful (flowReleaseOn p) := by
  intro v s h; unfold flowReleaseOn; split
  · exact h
  · exact (h.modBr p _).pass [] []

theorem cutAckOn_lawful (p : Position) : Block.Lawful (cutAckOn p) := by
  intro v s h; unfold cutAckOn; split
  · exact h.of (fun k => k.carryCut p _)
  · exact h

/-- A declaration changes the budget, and its pass follows (R23). -/
theorem declareSupplyBlock_lawful (n : Nat) : Block.Lawful (declareSupplyBlock n) := by
  intro v s h; unfold declareSupplyBlock; split
  · exact h
  · have h1 : State.Lawful false (s.declared n) := h.table_of
    exact h1.pass _ _

/-! ### Policy (R50–R64, R187) -/

theorem stageBlock_lawful (ok : Bool) (l : List Bool) (f : Policy → Policy) : Block.Lawful (stageBlock ok l f) := by
  intro v s h; unfold stageBlock; split
  · exact h
  · split
    · exact h
    · exact h.other

theorem applyPolicyBlock_lawful : Block.Lawful applyPolicyBlock := by
  intro v s h; unfold applyPolicyBlock; split
  · exact h
  · split
    · exact h.other
    · dsimp only
      have h1 := h.applyPolicy
      revert h1
      generalize s.applyPolicy = u
      intro h1
      exact State.Lawful.of h1 (fun k => State.Keeps.notify _ k.other)

theorem discardBlock_lawful : Block.Lawful discardBlock := fun _ _ h => h.other

theorem saveBlock_lawful (c : Cmd) : Block.Lawful (saveBlock c) := by
  intro v s h; unfold saveBlock; split
  · exact h
  · exact h.other

/-! ### Maintenance and valve service (R13, R14, R82–R91, R105) -/

theorem enterMaintenanceBlock_lawful (p : Position) : Block.Lawful (enterMaintenanceBlock p) := by
  intro v s h; unfold enterMaintenanceBlock; split
  · exact h
  · split
    · exact h
    · exact (h.loose.of (fun k => (((k.modBr p _).clearArbiterFields p).shutBranch p).setMaint p true)).pass [p] []

theorem leaveMaintenanceBlock_lawful (p : Position) : Block.Lawful (leaveMaintenanceBlock p) := by
  intro v s h
  have h1 : State.Lawful v (s.leaveMaintenance p) := by
    unfold State.leaveMaintenance; dsimp only; split
    · exact h.of (fun k => ((((((k.clearDraw p).setMaint p false).endClosing p).modBr p _).takeStamp p).followCurve
        p).returnRule p)
    · exact h.of (fun k => ((((k.clearDraw p).setMaint p false).endClosing p).modBr p _).shutBranch p)
  unfold leaveMaintenanceBlock; repeat' split
  · exact h
  · exact h
  · exact h
  · exact h1.loose.pass [] []

theorem trimOnceBlock_lawful (c : Cmd) (p : Position) : Block.Lawful (trimOnceBlock c p) := by
  intro v s h; unfold trimOnceBlock; repeat' split
  · exact h
  · exact h
  · exact h
  · have h1 : State.Lawful v (s.recordLong (.trim p) c) := h.other
    exact h1.of (fun k => (k.modBr p _).unsettle p _)

theorem serviceMoveBlock_lawful (c : Cmd) (a q : Nat) : Block.Lawful (serviceMoveBlock c a q) := by
  intro v s h
  have h1 : ∀ p, State.Lawful v (s.startService c p a q) := by
    intro p
    have h2 : State.Lawful v (s.recordLong .service c) := h.other
    have h3 := h2.of (fun k => k.endClosing p)
    unfold State.startService; dsimp only; split
    · exact State.Lawful.of (h3.setDraw p) (fun k => State.Keeps.placeSvc _ _ _ k.other)
    · exact State.Lawful.of h3 (fun k => State.Keeps.placeSvc _ _ _ k.other)
  unfold serviceMoveBlock; repeat' split
  all_goals first
    | exact h
    | exact h1 _

theorem curveVerifyBlock_lawful (c : Cmd) (p : Position) : Block.Lawful (curveVerifyBlock c p) := by
  intro v s h
  have h1 : State.Lawful v (s.startVerify c p) := by
    unfold State.startVerify; dsimp only
    refine State.Lawful.of (State.Lawful.setDraw p ?_) (fun k => k.placeSvc _ _ _)
    exact h.other
  unfold curveVerifyBlock; repeat' split
  all_goals first
    | exact h
    | exact h1

theorem busClearBlock_lawful : Block.Lawful busClearBlock := by
  intro v s h; unfold busClearBlock; split
  · exact h
  · exact h.busClear

/-! ### Drip sense, drills, isolation (R121–R124, R150, R162, R163, R168) -/

theorem maskBlock_lawful (n : ChannelNo) : Block.Lawful (maskBlock n) := by
  intro v s h; unfold maskBlock; repeat' split
  · exact h
  · exact h
  · exact h
  · exact h.maskChannel n

theorem unmaskBlock_lawful (n : ChannelNo) : Block.Lawful (unmaskBlock n) := by
  intro v s h; unfold unmaskBlock; repeat' split
  · exact h
  · exact h
  · exact h.unmaskChannel n

theorem startDrillBlock_lawful (n : ChannelNo) (k : Nat) : Block.Lawful (startDrillBlock n k) := by
  intro v s h; unfold startDrillBlock; repeat' split
  all_goals first
    | exact h
    | exact h.other

theorem cancelDrillBlock_lawful : Block.Lawful cancelDrillBlock := by
  intro v s h
  have h1 : State.Lawful v s.cancelDrillJob := by
    unfold State.cancelDrillJob; split
    · exact h
    · exact h.of (fun k => ((k.dropJob _).drillRest _).drillStatus _)
  unfold cancelDrillBlock; split
  · exact h
  · have h2 : State.Lawful v s.cancelDrillJob.cancelInjections := h1.other
    dsimp only
    exact h2.cancelCases

/-- A drill's record of an acknowledgement is no part of the books (R167). -/
theorem State.Keeps.recordAck {m : Bool} {b s : State} (j : Job) (p : Position) (h : Keeps m b s) :
    Keeps m b (s.recordAck j p) := by
  unfold State.recordAck; split
  · exact h.other
  · exact h

theorem warnAckOn_lawful (p : Position) : Block.Lawful (warnAckOn p) := by
  intro v s h
  have h1 : ∀ j w, State.Lawful v (s.ackWarning j p w) := by
    intro j w
    have h2 : State.Lawful v ((s.modJob j.id (fun j => j.modTarget p (fun t => { t with warning := .acked }))).recordAck j p) :=
      h.of (fun k => (k.modJob j.id _).recordAck j p)
    unfold State.ackWarning; dsimp only; split
    · exact h2
    · split
      · exact h2.of (fun k => k.endNotify _)
      · exact h2
  unfold warnAckOn; repeat' split
  all_goals first
    | exact h
    | exact h1 _ _

theorem releaseIsolationBlock_lawful (p : Position) : Block.Lawful (releaseIsolationBlock p) := by
  intro v s h
  have h1 : State.Lawful false (s.releaseBranch p) :=
    h.loose.of (fun k => ((((k.modBr p _).holdIfChanged s).unreserve _).unreserve _).shutBranch p)
  have h2 : ∀ i, State.Lawful v ((((s.releaseBranch p).pass [] []).removeTarget i p).removeIfEmpty i) := fun i =>
    State.Lawful.of (h1.pass [] []) (fun k => (k.modJob i _).removeIfEmpty i)
  unfold releaseIsolationBlock; repeat' split
  · exact h
  · exact h
  · exact h
  · exact h
  · exact h
  · rename_i j _ _ _ _
    dsimp only
    exact h2 j.id

theorem releaseTrunkBlock_lawful : Block.Lawful releaseTrunkBlock := by
  intro v s h
  have h1 : ∀ j, State.Lawful v (s.releaseTrunk j) := by
    intro j
    have h2 : State.Lawful v { s with store.trunkLatch := false } := h.other
    exact h2.of (fun k => ((((((k.holdIfChanged s).modJob j.id (fun j => { j with trunk := none })).unreserve 48).unreserve
      49).placeIso _ _ _).placeIso _ _ _).removeIfEmpty _)
  unfold releaseTrunkBlock; repeat' split
  all_goals first
    | exact h
    | exact h1 _

/-! ### Link and requesters (R172, R173, R180, R184, R192) -/

/-- The requester a branch is bound to is no part of the books (R6). -/
theorem State.Lawful.setBound {v : Bool} {s : State} (p : Option Position) (i : Option Nat) (h : s.Lawful v) :
    (s.setBound p i).Lawful v := by
  unfold State.setBound; split
  · exact h
  · exact h.of (fun k => k.modBr _ _)

theorem State.Lawful.setRequester {v : Bool} {s : State} (i : Nat) (r : Option Requester) (h : s.Lawful v) :
    (s.setRequester i r).Lawful v := h.other

theorem State.Lawful.modSender {v : Bool} {s : State} (c : Cmd) (f : Requester → Requester) (h : s.Lawful v) :
    (s.modSender c f).Lawful v := by
  unfold State.modSender; split
  · exact h
  · exact h.setRequester _ _

theorem bindBlock_lawful (a : Addr) (r : Nat) (b : Option Nat) (m : Option (BitVec 16)) : Block.Lawful (bindBlock a r b m) := by
  intro v s h; unfold bindBlock; repeat' split
  all_goals first
    | exact h
    | exact ((h.setRequester _ _).setBound _ _).setBound _ _

theorem unbindBlock_lawful (i : Nat) : Block.Lawful (unbindBlock i) := by
  intro v s h; unfold unbindBlock; repeat' split
  · exact h
  · exact h
  · exact (h.setRequester _ _).setBound _ _

theorem setNoticesBlock_lawful (c : Cmd) (m : BitVec 16) : Block.Lawful (setNoticesBlock c m) := by
  intro v s h; unfold setNoticesBlock; split
  · exact h
  · exact h.modSender _ _

theorem setTelemetryBlock_lawful (c : Cmd) (m n : Nat) : Block.Lawful (setTelemetryBlock c m n) := by
  intro v s h; unfold setTelemetryBlock; repeat' split
  · exact h
  · exact h
  · exact h.modSender _ _

/-- The block of every command leaves the first law kept, or its pass asked for. -/
theorem blockOf_lawful (i : Instr) : Block.Lawful (blockOf i) := by
  cases i with
  | flowRequest c f u => exact Block.Lawful.onBound c _ (flowRequestOn_lawful f u)
  | flowRelease c => exact Block.Lawful.onBound c _ flowReleaseOn_lawful
  | cutAck c => exact Block.Lawful.onBound c _ cutAckOn_lawful
  | declareSupply c n => exact declareSupplyBlock_lawful n
  | stageBranch c p g => exact stageBlock_lawful _ _ _
  | stageZone c z e => exact stageBlock_lawful _ _ _
  | stageChannelClass c k t n => exact stageBlock_lawful _ _ _
  | stageTiming c g => exact stageBlock_lawful _ _ _
  | stageSupply c g => exact stageBlock_lawful _ _ _
  | applyPolicy c => exact applyPolicyBlock_lawful
  | discardStaged c => exact discardBlock_lawful
  | savePolicy c => exact saveBlock_lawful c
  | enterMaintenance c p => exact enterMaintenanceBlock_lawful p
  | leaveMaintenance c p => exact leaveMaintenanceBlock_lawful p
  | trimOnce c p => exact trimOnceBlock_lawful c p
  | serviceMove c a q => exact serviceMoveBlock_lawful c a q
  | curveVerify c p => exact curveVerifyBlock_lawful c p
  | busClear c => exact busClearBlock_lawful
  | maskChannel c n => exact maskBlock_lawful n
  | unmaskChannel c n => exact unmaskBlock_lawful n
  | startDrill c n k => exact startDrillBlock_lawful n k
  | cancelDrill c => exact cancelDrillBlock_lawful
  | warnAck c => exact Block.Lawful.onBound c _ warnAckOn_lawful
  | releaseIsolation c p => exact releaseIsolationBlock_lawful p
  | releaseTrunk c => exact releaseTrunkBlock_lawful
  | bindRequester c a r b m => exact bindBlock_lawful a r b m
  | unbindRequester c e => exact unbindBlock_lawful e
  | setNotices c m => exact setNoticesBlock_lawful c m
  | setTelemetry c k n => exact setTelemetryBlock_lawful c k n
  | restart c => exact fun _ _ h => h.other
  | readPolicy c n => exact Block.Lawful.unchanged (readPolicyBlock_fst n)
  | _ => exact Block.Lawful.unchanged (fun _ => rfl)

end Sys2Proof.Machine

/-! ## Every step keeps the order of the part and the first law (R22, R31) -/

namespace Sys2Proof.Machine

-- One after another: side by side the proofs of the whole text take more memory than a check may.
set_option Elab.async false

/-! ### Between events -/

/-- Between events: the part is in order and at rest, and where `v` asks for it the first law holds. -/
structure State.Kept (v : Bool) (s : State) : Prop where
  orderly : s.Orderly
  fit : v = true → s.GrantsFit

namespace State.Kept

variable {v : Bool} {s t : State}

theorem good (h : Kept v s) : Good true s :=
  ⟨⟨h.orderly.sized, h.orderly.bounded.inbound, h.orderly.bounded.commands, h.orderly.bounded.counter, h.orderly.fit⟩,
    h.orderly.sound.weaken⟩

theorem lawful (h : Kept v s) : Lawful v s :=
  ⟨h.orderly.sized.branches, ⟨h.orderly.sized.slots, h.orderly.jobs⟩, fun e => Or.inr (h.fit e)⟩

/-- A part of good shape that is lawful and at rest is kept. -/
theorem of_good {g : Bool} (h : Good g s) (l : Lawful v s) (r : s.AtRest) : Kept v s :=
  ⟨⟨h.shape.sized, ⟨h.shape.inbound, h.shape.commands, h.sound.out, h.shape.counter⟩, h.shape.fit, l.table.jobs, r⟩,
    fun e => (l.fit e).resolve_left (by rw [r.work]; exact Bool.noConfusion)⟩

/-- The end of an event (R31). -/
theorem finish {g : Bool} (h : Good g s) (l : Lawful v s) : Kept v s.finish :=
  of_good h.finish.1 l.finish.lawful h.finish.2

/-- What the part does at rest that changes nothing of the tables: time, the inbound queue, the transmitter. -/
theorem quiet (h : Kept v s) (g : Good true t) (hs : t.iso.slots = s.iso.slots := by rfl)
    (hb : t.branches = s.branches := by rfl) (ha : t.arb.supply = s.arb.supply := by rfl)
    (hp : t.pol.active = s.pol.active := by rfl) (hw : t.work = s.work := by rfl)
    (hr : t.bus.reports = s.bus.reports := by rfl) : Kept v t :=
  of_good g (h.lawful.other hs hb ha hp (congrArg Work.due hw))
    ⟨hr.trans h.orderly.atRest.reports, g.sound.granted rfl, hw.trans h.orderly.atRest.work⟩

theorem advance (n : Time) (h : Kept v s) : Kept v (s.advance n) := h.quiet (h.good.advance n)

theorem transmit (h : Kept v s) : Kept v s.transmit :=
  of_good h.good.transmit (h.lawful.of (fun k => k.transmit))
    ⟨(congrArg Bus.reports (transmit_bus s)).trans h.orderly.atRest.reports, (transmit_bus s).symm ▸ h.orderly.atRest.granted,
      (transmit_work s).trans h.orderly.atRest.work⟩

theorem handReply (f : ReplyFrame) (h : Kept v s) : Kept v (s.handReply f) := h.quiet (h.good.handReply f)

theorem offer (i : Instr) (c : Cmd) (hi : i.cmd?.isSome = true) (h : Kept v s) : Kept v (s.offer i c) := by
  have g := h.good.offer i c hi
  unfold State.offer at g ⊢
  split at g
  · rename_i hl; rw [if_pos hl]; exact h.quiet g
  · rename_i hl; rw [if_neg hl]; exact h.quiet g

/-! ### Commands (R174) -/

/-- What a block makes of a part at rest ends as an event (R31, R176). -/
theorem carryOut {i : Instr} {c : Cmd} {m : Permitted} {w : Answering} {run : Block} (hk : Block.Keeps run)
    (hl : Block.Lawful run) (h : Kept v s) : Kept v (s.carryOut i c m w run) := by
  have g : Good true { s with link.inbound := s.link.inbound.tail } := h.good.takeHead
  have l : Lawful v { s with link.inbound := s.link.inbound.tail } := h.lawful.other
  unfold State.carryOut; dsimp only; split
  · exact finish (g.reply _ _ _ _) (l.of (fun k => k.reply _ _ _ _))
  · exact finish ((hk _ g).reply _ _ _ _) ((hl v _ l).of (fun k => k.reply _ _ _ _))

theorem command {i : Instr} {c : Cmd} {m : Permitted} {w : Answering} {run : Block} (hi : i.cmd?.isSome = true)
    (hk : Block.Keeps run) (hl : Block.Lawful run) (h : Kept v s) : Kept v (s.command i c m w run) := by
  have h1 : Kept v (if (s.advance c.time).link.inbound.head? = some i then s.advance c.time
      else (s.advance c.time).offer i c) := by
    split
    · exact h.advance _
    · exact (h.advance _).offer i c hi
  unfold State.command; split
  · dsimp only
    revert h1
    generalize (if (s.advance c.time).link.inbound.head? = some i then s.advance c.time
      else (s.advance c.time).offer i c) = u
    intro h1
    split
    · exact h1.carryOut hk hl
    · exact h1.transmit
  · exact h

end State.Kept

/-! ### Commands and events, one by one -/

/-- A command or an event keeps the part. -/
def Instr.Keeps (i : Instr) : Prop :=
  ∀ (v : Bool) (s t : State), s.Kept v → exec i s = .next t → t.Kept v

/-- Every command keeps the part. -/
theorem command_keeps {i : Instr} {c : Cmd} (hc : i.cmd? = some c) : Instr.Keeps i := by
  intro v s t h e
  obtain ⟨m, hm⟩ := permitted_of_command hc
  rw [exec_command hc hm] at e
  cases e
  exact h.command (by rw [hc]; rfl) (blockOf_keeps i) (blockOf_lawful i)

/-- An event under power. -/
theorem event_kept {v : Bool} {s t : State} {f : State → State} (h : s.Kept v) (hf : s.Kept v → State.Kept v (f s))
    (e : s.event f = .next t) : t.Kept v := by
  unfold State.event at e
  cases e
  split
  · exact hf h
  · exact h

theorem unitEvent_kept {v known : Bool} {s t : State} {f : State → State} (h : s.Kept v)
    (hf : s.Kept v → State.Kept v (f s)) (e : s.unitEvent known f = .next t) : t.Kept v := by
  unfold State.unitEvent at e
  split at e
  · exact event_kept h hf e
  · exact nomatch e

/-- A deadline that runs (R24, R39, R137). -/
theorem State.Kept.atDeadline {v : Bool} {s : State} {f : State → State} (d : Option Time) (h : s.Kept v)
    (hf : ∀ n, State.Kept v (s.advance n) → State.Kept v (f (s.advance n))) : State.Kept v (s.atDeadline d f) := by
  unfold State.atDeadline; split
  · exact h
  · exact hf _ (h.advance _)

namespace State.Kept

variable {v : Bool} {s : State}

theorem onward {t : State} (h : Kept v s) (ho : Onward true s s → Onward true s t) (hl : Lawful v s → Lawful v t) :
    Kept v t.finish := finish (h.good.onward ho) (hl h.lawful)

theorem goStale (h : Kept v s) : Kept v s.goStale := by
  have g : Good true { s with arb.supply := { s.arb.supply with state := .stale, deadline := none } } := h.good.arb _
  have l : Lawful false { s with arb.supply := { s.arb.supply with state := .stale, deadline := none } } := h.lawful.table_of
  exact finish (g.pass _ _) (l.pass _ _)

theorem expireCut (p : Position) (k : PendingCut) (h : Kept v s) : Kept v (s.expireCut p k) :=
  finish ((h.good.modBr p (fun b => { b with overdue := min (b.overdue + 1) 255 }) (fun _ hx => hx)).carryCut p k)
    (h.lawful.of (fun x => (x.modBr p _).carryCut p k))

theorem modBr (p : Position) (f : Branch → Branch) (hf : ∀ x, x.Fit → (f x).Fit)
    (hg : ∀ x, (f x).grant = x.grant ∧ (f x).draw ≤ x.draw) (h : Kept v s) : Kept v (s.modBr p f) :=
  of_good (h.good.modBr p f hf) (h.lawful.of (fun k => k.modBr p f hg))
    ⟨h.orderly.atRest.reports, h.orderly.atRest.granted, h.orderly.atRest.work⟩

theorem retryJob (i : JobId) (h : Kept v s) : Kept v (s.retryJob i) := by
  unfold State.retryJob; split
  · exact h
  · exact h.onward (fun x => x.retryCloses _) (fun l => l.of (fun k => k.retryCloses _))

theorem hallSettled (h : Kept v s) : Kept v s.hallSettled := by
  have g : Good true { s with hall := s.hall.settle } :=
    h.good.other rfl rfl rfl rfl rfl rfl rfl h.good.shape.counter rfl rfl (h.good.sound.of_same rfl rfl)
  have h1 : Kept v { s with hall := s.hall.settle } := h.quiet g
  unfold State.hallSettled; dsimp only; split
  · exact h1.onward (fun x => x.takeRack _ _) (fun l => l.takeRack _ _)
  · exact h1

theorem stopGone (h : Kept v s) : Kept v s.stopGone := by
  unfold State.stopGone
  refine finish (g := false) ?_ h.lawful.other
  exact h.good.loose.other rfl rfl rfl rfl rfl rfl rfl h.good.shape.counter rfl rfl
    ⟨h.good.sound.out, (fun e => nomatch e), (fun e => nomatch e)⟩

theorem replyArrives (r : ValveReply) (t : Transaction) (h : Kept v s) : Kept v (s.replyArrives r t) :=
  of_good (h.good.replyArrives r t).1 (h.lawful.replyArrives r t).lawful (h.good.replyArrives r t).2

theorem attemptFailed (t : Transaction) (h : Kept v s) : Kept v (s.attemptFailed t) :=
  of_good (h.good.attemptFailed t).1 (h.lawful.attemptFailed t).lawful (h.good.attemptFailed t).2

end State.Kept

end Sys2Proof.Machine

/-! ## Every step keeps the order of the part and the first law: port, store, power, and the step itself -/

namespace Sys2Proof.Machine

-- One after another: side by side the proofs of the whole text take more memory than a check may.
set_option Elab.async false

/-! ### The port (R169, R183) -/

/-- A record spells a command of its header, with its number (R170). -/
theorem commandOf_some {n : Nat} {c : Cmd} {b : List Byte} {i : Instr} (h : commandOf n c b = some i) :
    i.cmd? = some c ∧ i.code = n := by
  unfold commandOf at h
  split at h
  all_goals first
    | (cases h; exact ⟨rfl, rfl⟩)
    | exact nomatch h

namespace State.Kept

variable {v : Bool} {s : State}

theorem frameArrives (t : Time) (f : RawFrame) (h : Kept v s) : Kept v (s.frameArrives t f) := by
  unfold State.frameArrives; dsimp only; split
  · exact h
  · split
    · exact (h.handReply _).transmit
    · split
      · exact h
      · rename_i i hi
        exact (h.offer i _ (by rw [(commandOf_some hi).1]; rfl)).transmit

/-- What changes only what the transmitter holds. -/
theorem sending (k : Link) (h : Kept v s) (h1 : k.requesters = s.link.requesters) (h2 : k.inbound = s.link.inbound)
    (h3 : k.outbound.length ≤ s.link.outbound.length) : Kept v { s with link := k } :=
  h.quiet (h.good.other rfl rfl rfl rfl rfl (congrArg _ h1) h2 h.good.shape.counter rfl rfl
    ⟨Nat.le_trans h3 h.good.sound.out, h.good.sound.granted, fun e => nomatch e⟩)

theorem noticeSent (h : Kept v s) : Kept v s.noticeSent := by
  unfold State.noticeSent; split
  · exact h
  · rename_i e l he
    split
    · exact h.sending _ rfl rfl (by rw [he]; exact Nat.le_refl _)
    · have h1 : Kept v { s with link.outbound := l } := h.sending _ rfl rfl (by rw [he]; exact Nat.le_succ _)
      unfold State.forgetLong; split
      · exact h1.sending _ rfl rfl (Nat.le_refl _)
      · exact h1

theorem unsend (h : Kept v s) : Kept v s.unsend := by
  unfold State.unsend; split
  · exact h
  · exact h.sending _ rfl rfl (Nat.le_refl _)
  · exact h.sending _ rfl rfl (Nat.le_refl _)

end State.Kept

/-! ### The store (R186–R188) -/

/-- An image of the requester table's size, its floors under its ceilings (R56, R186). -/
structure Image.Whole (i : Image) : Prop where
  requesters : i.requesters.length = 32
  policy : i.policy.Fit

/-- The images a store holds or writes are whole. -/
structure Store.Whole (k : Store) : Prop where
  imageA : ∀ i, k.imageA = some i → i.Whole
  imageB : ∀ i, k.imageB = some i → i.Whole
  saving : ∀ x, k.saving = some x → x.2.Whole

namespace Store.Whole

variable {k : Store}

theorem setHold (n : SlotName) (r : Option HoldRecord) (h : k.Whole) : (k.setHold n r).Whole := by
  unfold Store.setHold; split
  · exact ⟨h.imageA, h.imageB, h.saving⟩
  · exact ⟨h.imageA, h.imageB, h.saving⟩

theorem setImage (n : SlotName) (o : Option Image) (h : k.Whole) (ho : ∀ i, o = some i → i.Whole) :
    (k.setImage n o).Whole := by
  unfold Store.setImage; split
  · exact ⟨ho, h.imageB, h.saving⟩
  · exact ⟨h.imageA, ho, h.saving⟩

/-- A write cut short leaves whole images or invalid slots (R186). -/
theorem cutShort (b : Bool) (h : k.Whole) : (k.cutShort b).Whole := by
  have h1 : Store.Whole (match k.saving with
      | none => k
      | some (slot, i) => k.setImage slot (if b then some i else none)) := by
    split
    · exact h
    · rename_i n i hs
      refine h.setImage n _ (fun j hj => ?_)
      split at hj
      · cases hj; exact h.saving _ hs
      · exact nomatch hj
  unfold Store.cutShort; dsimp only
  split
  · exact ⟨h1.imageA, h1.imageB, fun x hx => nomatch hx⟩
  · exact ⟨(h1.setHold _ none).imageA, (h1.setHold _ none).imageB, fun x hx => nomatch hx⟩

end Store.Whole

/-- The images of a part of good shape are whole. -/
theorem State.Good.whole {g : Bool} {s : State} (h : s.Good g) : s.store.Whole :=
  ⟨fun i hi => ⟨h.shape.sized.imageA i hi, h.shape.fit.imageA i hi⟩,
    fun i hi => ⟨h.shape.sized.imageB i hi, h.shape.fit.imageB i hi⟩,
    fun x hx => ⟨h.shape.sized.saving x hx, h.shape.fit.saving x hx⟩⟩

/-- Another store whose images are whole. -/
theorem State.Good.restore {g : Bool} {s : State} (k : Store) (hk : k.Whole) (h : s.Good g) :
    State.Good g { s with store := k } := by
  have z := h.shape.sized
  exact ⟨⟨⟨z.branches, z.actuators, z.channels, z.cases, z.slots, z.requesters, fun i hi => (hk.imageA i hi).requesters,
    fun i hi => (hk.imageB i hi).requesters, fun x hx => (hk.saving x hx).requesters⟩, h.shape.inbound, h.shape.commands,
    h.shape.counter, ⟨h.shape.fit.branches, h.shape.fit.active, fun i hi => (hk.imageA i hi).policy,
      fun i hi => (hk.imageB i hi).policy, fun x hx => (hk.saving x hx).policy⟩⟩, h.sound.of_same rfl rfl⟩

namespace State.Kept

variable {v : Bool} {s : State}

theorem restore (k : Store) (hk : k.Whole) (h : Kept v s) : Kept v { s with store := k } := h.quiet (h.good.restore k hk)

theorem holdWritten (n : SlotName) (r : HoldRecord) (h : Kept v s) : Kept v (s.holdWritten n r) := by
  have w := h.good.whole.setHold n (some r)
  have h1 : Kept v { s with store := { (s.store.setHold n (some r)) with holding := none } } :=
    h.restore _ ⟨w.imageA, w.imageB, w.saving⟩
  unfold State.holdWritten; dsimp only; split
  · have h2 : Kept v { s with store := { (s.store.setHold n (some r)) with holding := none, furtherDue := false } } :=
      h.restore _ ⟨w.imageA, w.imageB, w.saving⟩
    exact h2.restore _ ⟨w.imageA, w.imageB, w.saving⟩
  · exact h1

theorem holdFailed (n : SlotName) (h : Kept v s) : Kept v (s.holdFailed n) := by
  have w := h.good.whole.setHold n none
  have h1 : Kept v { s with store := s.store.setHold n none } := h.restore _ w
  exact h1.restore _ ⟨w.imageA, w.imageB, w.saving⟩

theorem saveEnded (n : SlotName) (i : Image) (ok : Bool) (hi : i.Whole) (h : Kept v s) :
    Kept v (s.saveEnded n i ok).finish := by
  have w := h.good.whole.setImage n (if ok then some i else none) (fun j hj => by
    split at hj
    · cases hj; exact hi
    · exact nomatch hj)
  have h1 : Kept v { s with store := { (s.store.setImage n (if ok then some i else none)) with saving := none } } :=
    h.restore _ ⟨w.imageA, w.imageB, fun x hx => nomatch hx⟩
  cases ok
  · exact finish (h1.good.complete _ _ _) (h1.lawful.of (fun k => k.complete _ _ _))
  · exact finish (h1.good.complete _ _ _) (h1.lawful.of (fun k => k.complete _ _ _))

/-- Start-up brings up a part in order, whatever went before (R189). -/
theorem startUp {k : Store} (hk : k.Whole) (c : StartCause) : Kept v (State.startUp { s with store := k } c) :=
  have g : Good true (State.startUp { s with store := k } c) :=
    Good.startUp c (fun i hi => ⟨(hk.imageA i hi).requesters, (hk.imageA i hi).policy⟩)
      (fun i hi => ⟨(hk.imageB i hi).requesters, (hk.imageB i hi).policy⟩)
  of_good g (Lawful.startUp v _ c) ⟨startUp_reports _ c, g.sound.granted rfl, startUp_work _ c⟩

theorem line (l : LineName) (x : Level) (h : Kept v s) : Kept v (match l with
    | .hall => { s with hall := s.hall.change s.now x s.powered }
    | .commissioning => { s with commissioning := s.commissioning.change s.now x s.powered }) := by
  split
  · exact h.quiet (h.good.other rfl rfl rfl rfl rfl rfl rfl h.good.shape.counter rfl rfl (h.good.sound.of_same rfl rfl))
  · exact h.quiet (h.good.other rfl rfl rfl rfl rfl rfl rfl h.good.shape.counter rfl rfl (h.good.sound.of_same rfl rfl))

end State.Kept

/-! ### Every event (R31) -/

/-- A sample event keeps the part (R115, R116). -/
theorem sample_keeps {v b : Bool} {s : State} (l : List Sample) (h : s.Kept v) :
    State.Kept v (((s.advance s.sense.nextAt).sampleEvent l b).finish) :=
  have h1 := h.advance s.sense.nextAt
  State.Kept.finish (h1.good.sampleEvent l b) (h1.lawful.sampleEvent l b)

theorem frameArrival_keeps (n : Time) (f : RawFrame) : Instr.Keeps (.frameArrival n f) := by
  intro v s t h e
  cases e
  split
  · exact (h.advance n).frameArrives n f
  · exact h

theorem frameSent_keeps (n : Time) : Instr.Keeps (.frameSent n) := by
  intro v s t h e
  have h1 : State.Kept v { s.advance n with link.sending := none } :=
    State.Kept.sending _ (h.advance n) rfl rfl (Nat.le_refl _)
  cases e
  split
  · dsimp only; split
    · exact h.advance n
    · exact h1.transmit
    · exact h1.noticeSent.transmit
  · exact h

theorem portLinkChange_keeps (n : Time) (up : Bool) : Instr.Keeps (.portLinkChange n up) := by
  intro v s t h e
  have h1 : State.Kept v { s.advance n with link.up := up } := State.Kept.sending _ (h.advance n) rfl rfl (Nat.le_refl _)
  cases e
  split
  · split
    · exact h1.transmit
    · exact h1.unsend
  · exact h1

theorem lineLevelChange_keeps (n : Time) (l : LineName) (x : Level) : Instr.Keeps (.lineLevelChange n l x) := by
  intro v s t h e
  cases e
  exact (h.advance n).line l x

theorem powerOn_keeps (n : Time) : Instr.Keeps (.powerOn n) := by
  intro v s t h e
  have h1 : State.Kept v (State.startUp { s.advance n with store := s.store.cutShort false } .powerOn) :=
    State.Kept.startUp (h.good.whole.cutShort false) .powerOn
  change execPowerOn n s = .next t at e
  unfold execPowerOn at e
  exact Host.Outcome.next.inj e ▸ h1

theorem supplyAgeingExpiry_keeps : Instr.Keeps .supplyAgeingExpiry := by
  intro v s t h e
  change execSupplyAgeingExpiry s = .next t at e
  unfold execSupplyAgeingExpiry at e
  refine event_kept h (fun h => ?_) e
  exact h.atDeadline _ (fun _ h => h.goStale)

theorem cutDeadlineExpiry_keeps (p : Nat) : Instr.Keeps (.cutDeadlineExpiry p) := by
  intro v s t h e
  change execCutDeadlineExpiry p s = .next t at e
  unfold execCutDeadlineExpiry at e
  refine unitEvent_kept h (fun h => ?_) e
  split
  · exact h
  · exact (h.advance _).expireCut p _

theorem measurementWindowExpiry_keeps : Instr.Keeps .measurementWindowExpiry := by
  intro v s t h e
  change execMeasurementWindowExpiry s = .next t at e
  unfold execMeasurementWindowExpiry at e
  refine event_kept h (fun h => ?_) e
  have h1 := h.advance s.window.deadline
  exact State.Kept.finish h1.good.windowExpiry h1.lawful.windowExpiry

theorem meterPulse_keeps (n : Time) (m : Nat) : Instr.Keeps (.meterPulse n m) := by
  intro v s t h e
  change execMeterPulse n m s = .next t at e
  unfold execMeterPulse at e
  refine unitEvent_kept h (fun h => ?_) e
  split
  · exact (h.advance n).modBr _ _ (fun _ hx => hx) (fun _ => ⟨rfl, Nat.le_refl _⟩)
  · exact (h.advance n).modBr _ _ (fun _ hx => hx) (fun _ => ⟨rfl, Nat.le_refl _⟩)

theorem senseSampleEvent_keeps (l : List Sample) : Instr.Keeps (.senseSampleEvent l) := by
  intro v s t h e
  change execSenseSampleEvent l s = .next t at e
  unfold execSenseSampleEvent at e
  refine unitEvent_kept h (fun h => ?_) e
  exact sample_keeps l h

theorem senseWindowEnd_keeps (l : List Sample) : Instr.Keeps (.senseWindowEnd l) := by
  intro v s t h e
  change execSenseWindowEnd l s = .next t at e
  unfold execSenseWindowEnd at e
  refine unitEvent_kept h (fun h => ?_) e
  exact sample_keeps l h

theorem caseDeadlineExpiry_keeps (k : Nat) : Instr.Keeps (.caseDeadlineExpiry k) := by
  intro v s t h e
  change execCaseDeadlineExpiry k s = .next t at e
  unfold execCaseDeadlineExpiry at e
  refine unitEvent_kept h (fun h => ?_) e
  exact h.atDeadline _ (fun _ h => State.Kept.finish (h.good.expireCase k) (h.lawful.expireCase k))

theorem jobPhaseDeadlineExpiry_keeps (j : JobId) : Instr.Keeps (.jobPhaseDeadlineExpiry j) := by
  intro v s t h e
  change execJobPhaseDeadlineExpiry j s = .next t at e
  unfold execJobPhaseDeadlineExpiry at e
  refine event_kept h (fun h => ?_) e
  exact h.atDeadline _ (fun _ h => h.onward (fun x => x.endNotify j) (fun l => l.of (fun k => k.endNotify j)))

theorem uncontainedRetryExpiry_keeps (j : JobId) : Instr.Keeps (.uncontainedRetryExpiry j) := by
  intro v s t h e
  change execUncontainedRetryExpiry j s = .next t at e
  unfold execUncontainedRetryExpiry at e
  refine event_kept h (fun h => ?_) e
  exact h.atDeadline _ (fun _ h => h.retryJob j)

theorem drainDeadlineExpiry_keeps (j : JobId) : Instr.Keeps (.drainDeadlineExpiry j) := by
  intro v s t h e
  change execDrainDeadlineExpiry j s = .next t at e
  unfold execDrainDeadlineExpiry at e
  refine event_kept h (fun h => ?_) e
  exact h.atDeadline _ (fun _ h => h.onward (fun x => x.enterCloseReturn j)
    (fun l => l.of (fun k => k.enterCloseReturn j)))

theorem simulateDeadlineExpiry_keeps (j : JobId) : Instr.Keeps (.simulateDeadlineExpiry j) := by
  intro v s t h e
  change execSimulateDeadlineExpiry j s = .next t at e
  unfold execSimulateDeadlineExpiry at e
  refine event_kept h (fun h => ?_) e
  exact h.atDeadline _ (fun _ h => h.onward (fun x => (x.dropJob j).drillStatus _)
    (fun l => l.of (fun k => (k.dropJob j).drillStatus _)))

theorem lineDebounceExpiry_keeps (l : LineName) : Instr.Keeps (.lineDebounceExpiry l) := by
  intro v s t h e
  change execLineDebounceExpiry l s = .next t at e
  unfold execLineDebounceExpiry at e
  refine event_kept h (fun h => ?_) e
  split
  · exact h.atDeadline _ (fun _ h => h.hallSettled)
  · exact h.atDeadline _ (fun _ h => h.quiet
      (h.good.other rfl rfl rfl rfl rfl rfl rfl h.good.shape.counter rfl rfl (h.good.sound.of_same rfl rfl)))

theorem valveReply_keeps (n : Time) (r : ValveReply) : Instr.Keeps (.valveReply n r) := by
  intro v s t h e
  change execValveReply n r s = .next t at e
  unfold execValveReply at e
  refine event_kept h (fun h => ?_) e
  split
  · exact (h.advance n).replyArrives r _
  · exact h.advance n
  · exact h.advance n

theorem valveReplyTimeout_keeps : Instr.Keeps .valveReplyTimeout := by
  intro v s t h e
  change execValveReplyTimeout s = .next t at e
  unfold execValveReplyTimeout at e
  refine event_kept h (fun h => ?_) e
  split
  · exact (h.advance _).attemptFailed _
  · exact h
  · exact h

theorem startTimerExpiry_keeps (a : Nat) : Instr.Keeps (.startTimerExpiry a) := by
  intro v s t h e
  change execStartTimerExpiry a s = .next t at e
  unfold execStartTimerExpiry at e
  refine unitEvent_kept h (fun h => ?_) e
  split
  · exact h
  · exact h.atDeadline _ (fun _ h => State.Kept.finish (h.good.startTimerOut a _)
      (h.lawful.of (fun k => k.startTimerOut a _)))

theorem moveTimerExpiry_keeps (a : Nat) : Instr.Keeps (.moveTimerExpiry a) := by
  intro v s t h e
  change execMoveTimerExpiry a s = .next t at e
  unfold execMoveTimerExpiry at e
  refine unitEvent_kept h (fun h => ?_) e
  split
  · exact h
  · exact State.Kept.finish ((h.advance _).good.failMove a _) ((h.advance _).lawful.of (fun k => k.failMove a _))

theorem trackingPollDue_keeps (a : Nat) : Instr.Keeps (.trackingPollDue a) := by
  intro v s t h e
  change execTrackingPollDue a s = .next t at e
  unfold execTrackingPollDue at e
  refine unitEvent_kept h (fun h => ?_) e
  exact h.atDeadline _ (fun _ h => State.Kept.finish (h.good.trackingDue a)
    (h.lawful.of (fun k => k.trackingDue a)))

theorem idlePollDue_keeps (a : Nat) : Instr.Keeps (.idlePollDue a) := by
  intro v s t h e
  change execIdlePollDue a s = .next t at e
  unfold execIdlePollDue at e
  refine unitEvent_kept h (fun h => ?_) e
  exact h.atDeadline _ (fun _ h => State.Kept.finish (h.good.idleDue a) (h.lawful.of (fun k => k.idleDue a)))

theorem holdWriteEnd_keeps (n : Time) (ok : Bool) : Instr.Keeps (.holdWriteEnd n ok) := by
  intro v s t h e
  change execHoldWriteEnd n ok s = .next t at e
  unfold execHoldWriteEnd at e
  refine event_kept h (fun h => ?_) e
  split
  · exact h.advance n
  · split
    · exact (h.advance n).holdWritten _ _
    · exact (h.advance n).holdFailed _

theorem saveWriteEnd_keeps (n : Time) (ok : Bool) : Instr.Keeps (.saveWriteEnd n ok) := by
  intro v s t h e
  change execSaveWriteEnd n ok s = .next t at e
  unfold execSaveWriteEnd at e
  refine event_kept h (fun h => ?_) e
  split
  · exact h.advance n
  · rename_i slot i hs
    exact (h.advance n).saveEnded slot i ok (h.good.whole.saving _ hs)

theorem restartReset_keeps (n : Time) (b : Bool) : Instr.Keeps (.restartReset n b) := by
  intro v s t h e
  change execRestartReset n b s = .next t at e
  unfold execRestartReset at e
  refine event_kept h (fun h => ?_) e
  have h1 : State.Kept v (State.startUp { s.advance n with store := s.store.cutShort b } .restart) :=
    State.Kept.startUp (h.good.whole.cutShort b) .restart
  dsimp only
  split
  · exact h1
  · exact h.advance n

theorem stopSent_keeps (n : Time) : Instr.Keeps (.stopSent n) := by
  intro v s t h e
  change execStopSent n s = .next t at e
  unfold execStopSent at e
  refine event_kept h (fun h => ?_) e
  split
  · exact (h.advance n).stopGone
  · exact h.advance n

theorem powerLoss_keeps (n : Time) (b : Bool) : Instr.Keeps (.powerLoss n b) := by
  intro v s t h e
  change execPowerLoss n b s = .next t at e
  unfold execPowerLoss at e
  refine event_kept h (fun h => ?_) e
  have h1 : State.Kept v { s.advance n with store := s.store.cutShort b } :=
    (h.advance n).restore _ (h.good.whole.cutShort b)
  exact h1.quiet (h1.good.other rfl rfl rfl rfl rfl rfl rfl h1.good.shape.counter rfl rfl (h1.good.sound.of_same rfl rfl))

/-- Every event keeps the part. -/
theorem event_keeps {i : Instr} (hi : i.cmd? = none) : Instr.Keeps i := by
  cases i with
  | frameArrival a b => exact frameArrival_keeps a b
  | frameSent a => exact frameSent_keeps a
  | portLinkChange a b => exact portLinkChange_keeps a b
  | lineLevelChange a b c => exact lineLevelChange_keeps a b c
  | powerOn a => exact powerOn_keeps a
  | supplyAgeingExpiry => exact supplyAgeingExpiry_keeps
  | cutDeadlineExpiry a => exact cutDeadlineExpiry_keeps a
  | measurementWindowExpiry => exact measurementWindowExpiry_keeps
  | meterPulse a b => exact meterPulse_keeps a b
  | senseSampleEvent a => exact senseSampleEvent_keeps a
  | senseWindowEnd a => exact senseWindowEnd_keeps a
  | caseDeadlineExpiry a => exact caseDeadlineExpiry_keeps a
  | jobPhaseDeadlineExpiry a => exact jobPhaseDeadlineExpiry_keeps a
  | uncontainedRetryExpiry a => exact uncontainedRetryExpiry_keeps a
  | drainDeadlineExpiry a => exact drainDeadlineExpiry_keeps a
  | simulateDeadlineExpiry a => exact simulateDeadlineExpiry_keeps a
  | lineDebounceExpiry a => exact lineDebounceExpiry_keeps a
  | valveReply a b => exact valveReply_keeps a b
  | valveReplyTimeout => exact valveReplyTimeout_keeps
  | startTimerExpiry a => exact startTimerExpiry_keeps a
  | moveTimerExpiry a => exact moveTimerExpiry_keeps a
  | trackingPollDue a => exact trackingPollDue_keeps a
  | idlePollDue a => exact idlePollDue_keeps a
  | holdWriteEnd a b => exact holdWriteEnd_keeps a b
  | saveWriteEnd a b => exact saveWriteEnd_keeps a b
  | restartReset a b => exact restartReset_keeps a b
  | stopSent a => exact stopSent_keeps a
  | powerLoss a b => exact powerLoss_keeps a b
  | _ => exact nomatch hi

/-- A step keeps the part: it takes a command or an event, or it idles. -/
theorem step_keeps {v : Bool} {s t : State} (h : s.Kept v) (e : step s = .next t) : t.Kept v := by
  have hk : ∀ i, Instr.Keeps i := fun i => by
    cases hc : i.cmd? with
    | some c => exact command_keeps hc
    | none => exact event_keeps hc
  unfold step at e
  split at e
  · rename_i i rest _
    have h1 : State.Kept v { s with pending := rest } :=
      h.quiet (h.good.other rfl rfl rfl rfl rfl rfl rfl h.good.shape.counter rfl rfl (h.good.sound.of_same rfl rfl))
    exact hk i v _ t h1 e
  · split at e
    · exact hk _ v s t h e
    · cases e; exact h

/-- Settles O16: an event changes grants, draws, budget and quarantine only in ways that keep the first law, or it asks
for its pass, and the pass puts the law right (`State.Lawful`). -/
theorem stepKeepsGrantsInBudget : Obligations.StepKeepsGrantsInBudget :=
  fun _ _ ho hg e => (step_keeps (v := true) ⟨ho, fun _ => hg⟩ e).fit rfl

/-- Settles O59: every operation keeps the shape and soundness of the part and the order of its jobs, and the end of every
event leaves it at rest. -/
theorem stepKeepsOrder : Obligations.StepKeepsOrder :=
  fun _ _ ho e => (step_keeps (v := false) ⟨ho, fun e => nomatch e⟩ e).orderly

end Sys2Proof.Machine

/-! ## Power and start-up (R186–R191): what a store brings up, and what a part without power does -/

namespace Sys2Proof.Machine

-- One after another: side by side the proofs of the whole text take more memory than a check may.
set_option Elab.async false

/-! ### Power -/

theorem event_powered {s : State} (h : s.powered = true) (f : State → State) : s.event f = .next (f s) := by
  unfold State.event; rw [if_pos h]

theorem event_unpowered {s : State} (h : s.powered = false) (f : State → State) : s.event f = .next s := by
  unfold State.event; rw [h]; rfl

/-! ### Waking, block by block (R189) -/

/-- What start-up leaves of a block that no branch record and no bus field belongs to. -/
theorem startUp_leaves {α : Type} (f : State → α) (s : State) (c : StartCause)
    (hf : ∀ (s : State) p g, f (s.modBr p g) = f s := by exact fun _ _ _ => rfl)
    (hb : ∀ (s : State) b, f { s with bus := b } = f s := by exact fun _ _ => rfl) : f (s.startUp c) = f (s.loaded c) := by
  rw [startUp_eq, hb]; exact wake_leaves f hf s c

theorem startUp_branches (s : State) (c : StartCause) : (s.startUp c).branches = (s.wake c).branches := by
  rw [startUp_eq]

theorem startUp_br (s : State) (c : StartCause) (p : Position) : (s.startUp c).br p = (s.wake c).br p :=
  br_congr (startUp_branches s c) p

theorem startUp_length (s : State) (c : StartCause) : (s.startUp c).branches.length = 24 := by
  have h := (deriveGuards_br Config.positions (s.loaded c) 0 (by decide) (fun q hq => by
    rw [show (s.loaded c).branches.length = 24 from rfl]; revert q; decide)).2
  rw [startUp_eq]
  show (s.wake c).branches.length = 24
  rw [wake_eq, h]; rfl

/-- Start-up reads of a state its queue, time, address, line levels, link and store alone. -/
theorem startUp_congr {s t : State} (c : StartCause) (hq : s.pending = t.pending) (hn : s.now = t.now)
    (ha : s.stationAddr = t.stationAddr) (hh : s.hall.level = t.hall.level)
    (hc : s.commissioning.level = t.commissioning.level) (hl : s.link.up = t.link.up) (hs : s.store = t.store) :
    s.startUp c = t.startUp c := by
  have e : s.loaded c = t.loaded c := by
    unfold State.loaded Pin.wake
    simp only [hq, hn, ha, hh, hc, hl, hs]
  rw [startUp_eq, startUp_eq, wake_eq, wake_eq, e, hn, hs]

/-! ### Power-on with an empty store -/

theorem reset_guards : (State.reset.loaded .powerOn).deriveGuards Config.positions = State.reset.loaded .powerOn := by decide

/-- Start-up in the reset state ends in it. -/
theorem reset_startUp : State.startUp State.reset .powerOn = State.reset := by
  rw [startUp_eq, wake_eq, reset_guards]; decide

/-- Settles O4: start-up reads only what the hypotheses fix, and in the reset state it leaves the reset state. -/
theorem powerOnFromEmptyStore : Obligations.PowerOnFromEmptyStore := by
  intro s hq hn ha hh hc hl hs
  have e : State.startUp { s.advance 0 with store := s.store.cutShort false } .powerOn = State.startUp State.reset .powerOn :=
    startUp_congr .powerOn hq (by show max s.now 0 = 0; rw [hn]; rfl) ha hh hc hl (by rw [hs]; rfl)
  show Host.Outcome.next _ = _
  exact congrArg _ (e.trans reset_startUp)

/-- Settles O60: the reset state is what start-up brings up of itself. -/
theorem resetIsOrderly : Obligations.ResetIsOrderly := by
  have w : Store.Whole Store.blank := ⟨fun _ h => (nomatch h), fun _ h => (nomatch h), fun _ h => (nomatch h)⟩
  have h : State.Kept true (State.startUp State.reset .powerOn) :=
    State.Kept.startUp (s := State.reset) (k := Store.blank) w .powerOn
  rw [reset_startUp] at h
  exact ⟨h.orderly, h.fit rfl⟩

/-! ### Start-up from a store (R189) -/

/-- A guard is derived from zone and channels, which start-up has settled before its guards (R8). -/
theorem startUp_guardOf (s : State) (c : StartCause) {p : Position} (hp : p < 24) :
    (s.startUp c).guardOf p = (s.loaded c).guardOf p := by
  have hz : ((s.startUp c).br p).zone = ((s.loaded c).br p).zone := by rw [startUp_br, wake_br s c p hp]
  have hs : (s.startUp c).sense = (s.loaded c).sense := startUp_leaves State.sense s c
  unfold State.guardOf State.chan
  rw [hz, hs]

/-- What start-up leaves of the valve bus: the survey polls, the first on the line (R67, R71, R79, R190). -/
theorem startUp_bus (s : State) (c : StartCause) : (s.startUp c).bus = { Bus.reset with
    actuators := (Config.actuators.map (wakeActuator (s.store.record.restoredJob s.now))).modify 0
      (fun x => { x with lastTx := some s.now })
    pollQ := (List.range 50).tail.map (fun a => { actuator := a, survey := true, madeAt := s.now })
    line := .busy { actuator := 0, request := .survey, attempt := 1, sentAt := s.now } } := by
  rw [startUp_eq]; rfl

theorem startUp_act (s : State) (c : StartCause) {a : ActuatorNo} (ha : a < 50) : (s.startUp c).act a =
    { Actuator.reset with reservedBy := if s.store.reserves a then 1 else 0, lastTx := if a = 0 then some s.now else none } := by
  have hl : Config.actuators[a]? = some a := by simp [Config.actuators, ha]
  unfold State.act
  rw [startUp_bus]
  dsimp only
  rw [List.getD_eq_getElem?_getD, List.getElem?_modify, List.getElem?_map, hl, Option.map_some,
    wakeActuator_of_store s.store s.now a ha]
  by_cases h : a = 0
  · simp [h]
  · simp [h, Ne.symm h, Actuator.reset]

/-- A branch record after start-up: as it is loaded, its guard and effective ceiling derived (R8, R9, R18, R20). -/
theorem startUp_record (s : State) (c : StartCause) {p : Position} (hp : p < 24) : (s.startUp c).br p =
    { loadedBranch s.store.policy s.store.requesters (s.store.latches p) (s.store.record.maint.getD p false) p with
      guardLevel := (s.startUp c).guardOf p
      effCeiling := if (s.startUp c).guardOf p = .unguarded ∧ s.store.policy.supply.unguardedCap = true
        then (s.store.policy.branches.getD p BranchPolicy.factory).limits.floor
        else (s.store.policy.branches.getD p BranchPolicy.factory).limits.ceiling } := by
  rw [startUp_guardOf s c hp, startUp_br, wake_br s c p hp, loaded_br s c p hp]
  unfold Branch.ceilingUnder
  simp only [Bool.and_eq_true, decide_eq_true_eq]
  rfl

theorem startUp_chan (s : State) (c : StartCause) {n : ChannelNo} (hn : n < 34) : (s.startUp c).chan n =
    { Channel.reset with state := if s.store.maskSet.contains n then .masked else .dry } := by
  have hs : (s.startUp c).sense = (s.loaded c).sense := startUp_leaves State.sense s c
  have hl : Config.channels[n]? = some n := by simp [Config.channels, hn]
  unfold State.chan
  rw [hs]
  show (Config.channels.map (wakeChannel s.store.maskSet)).getD n Channel.reset = _
  rw [List.getD_eq_getElem?_getD, List.getElem?_map, hl, Option.map_some, Option.getD_some]
  unfold wakeChannel
  split <;> rfl

/-- Start-up brings up every block from the store, clause by clause (R189). -/
theorem startUp_startedUp (s : State) (k : Store) (c : StartCause) :
    State.StartedUp s k (State.startUp { s with store := k } c) ∧ (State.startUp { s with store := k } c).boot.cause = c := by
  generalize hv : ({ s with store := k } : State) = v
  have vk : v.store = k := by rw [← hv]
  have vn : v.now = s.now := by rw [← hv]
  have hp : (v.startUp c).powered = true := startUp_leaves State.powered v c
  have hn : (v.startUp c).now = s.now := (startUp_leaves State.now v c).trans vn
  have hq : (v.startUp c).pending = s.pending := (startUp_leaves State.pending v c).trans (by rw [← hv]; rfl)
  have hd : (v.startUp c).stationAddr = s.stationAddr := (startUp_leaves State.stationAddr v c).trans (by rw [← hv]; rfl)
  have hh : (v.startUp c).hall = s.hall.wake := (startUp_leaves State.hall v c).trans (by rw [← hv]; rfl)
  have hc : (v.startUp c).commissioning = s.commissioning.wake :=
    (startUp_leaves State.commissioning v c).trans (by rw [← hv]; rfl)
  have hab : (v.startUp c).arb = Arbiter.reset := startUp_leaves State.arb v c
  have hpol : (v.startUp c).pol = (v.loaded c).pol := startUp_leaves State.pol v c
  have hwin : (v.startUp c).window = (v.loaded c).window := startUp_leaves State.window v c
  have hsen : (v.startUp c).sense = (v.loaded c).sense := startUp_leaves State.sense v c
  have hcas : (v.startUp c).cases = List.replicate 9 none := startUp_leaves State.cases v c
  have hiso : (v.startUp c).iso = (v.loaded c).iso := startUp_leaves State.iso v c
  have hlin : (v.startUp c).link = (v.loaded c).link := startUp_leaves State.link v c
  have hsto : (v.startUp c).store = (v.loaded c).store := startUp_leaves State.store v c
  have hboo : (v.startUp c).boot = (v.loaded c).boot := startUp_leaves State.boot v c
  have hwor : (v.startUp c).work = Work.idle := startUp_leaves State.work v c
  have hbus := startUp_bus v c
  have hb : ∀ p, p < 24 → _ := fun p hp => startUp_record v c hp
  have hr := restoredJob_of_store k s.now
  have hup : v.link.up = s.link.up := by rw [← hv]
  unfold State.loaded at hpol hwin hsen hiso hlin hsto hboo
  dsimp only at hpol hwin hsen hiso hlin hsto hboo
  rw [vk] at hpol hwin hsen hiso hlin hsto hboo hbus
  rw [vn] at hwin hsen hiso hboo hbus
  rw [hup] at hlin
  rw [hr] at hiso
  rw [vk] at hb
  refine ⟨{
    power := ⟨hp, hn, hq, hd⟩
    lines := ⟨hh, hc⟩
    arbiter := by rw [hab]; exact ⟨rfl, rfl, rfl, rfl, rfl, rfl⟩
    policy := by rw [hpol]; exact ⟨rfl, rfl, rfl, rfl, rfl⟩
    applied := by rw [hpol]; exact ⟨rfl, rfl, rfl, rfl⟩
    size := startUp_length v c
    branches := fun p hp => by rw [hb p hp]; exact ⟨rfl, rfl, rfl, rfl, rfl, rfl, rfl, rfl, rfl, rfl, rfl⟩
    governed := fun p l hp hl => by
      have e := hb p hp
      generalize (v.startUp c).guardOf p = g at e ⊢
      subst hl; rw [e]; exact ⟨rfl, rfl, rfl, rfl, rfl, rfl, rfl⟩
    isolation := fun p hp => by rw [hb p hp]; exact ⟨rfl, rfl, rfl⟩
    measured := fun p hp => by rw [hb p hp]; exact ⟨rfl, rfl, rfl, rfl, rfl, rfl, rfl, rfl, rfl, rfl, rfl, rfl, rfl⟩
    actuators := ⟨by rw [hbus]; simp [Config.actuators], fun a ha => by rw [startUp_act v c ha, vk, vn]⟩
    claims := by rw [hbus]; exact ⟨rfl, rfl, rfl, rfl, rfl⟩
    line := by rw [hbus]; exact ⟨rfl, rfl, rfl, rfl, rfl⟩
    verify := by rw [hbus]; exact ⟨rfl, rfl, rfl⟩
    window := by rw [hwin]; exact ⟨rfl, rfl, rfl⟩
    sense := by rw [hsen]; exact ⟨rfl, rfl, rfl, rfl⟩
    channels := ⟨by rw [hsen]; simp [Config.channels], fun n hn => by rw [startUp_chan v c hn, vk]⟩
    cases := hcas
    jobs := ?_
    drill := by rw [hiso]; exact ⟨rfl, rfl⟩
    link := by rw [hlin]; exact ⟨rfl, rfl, rfl, rfl, rfl, rfl, rfl⟩
    requesters := by rw [hlin]
    store := hsto
    loaded := by rw [hboo]; exact ⟨rfl, rfl, rfl, rfl⟩
    work := hwor
    survey := by rw [hboo]; rfl }, by rw [hboo]⟩
  rw [hiso]
  by_cases h : k.restores
  · simp only [h, if_true]
    refine ⟨?_, rfl⟩
    unfold restoredSlots Store.restoredJob
    cases k.record.trunk <;> rfl
  · simp only [h, Bool.false_eq_true, if_false]
    exact ⟨rfl, rfl⟩

/-- Settles O5: both resets are a start-up from the store their cut-short writes leave. -/
theorem startUpResets : Obligations.StartUpResets := by
  refine fun s t => ⟨?_, fun w hp h1 h2 h3 h4 => ?_, fun w hp h => ?_⟩
  · obtain ⟨h1, h2⟩ := startUp_startedUp (s.advance t) (s.store.cutShort false) .powerOn
    refine ⟨_, ?_, h1, h2⟩
    show execPowerOn t s = _
    unfold execPowerOn; rfl
  · obtain ⟨g1, g2⟩ := startUp_startedUp (s.advance t) (s.store.cutShort w) .restart
    have hd : s.restartDue = true := by simp [State.restartDue, h1, h2, h3, h4]
    refine ⟨_, ?_, g1, g2⟩
    show execRestartReset t w s = _
    unfold execRestartReset
    rw [event_powered hp]
    exact congrArg Host.Outcome.next (if_pos hd)
  · have hd : ¬ s.restartDue = true := by
      unfold State.restartDue
      rcases h with h | h | h | h
      · simp [h]
      · simp [h]
      · cases hh : s.store.holding with
        | none => exact absurd hh h
        | some x => simp
      · simp [h]
    show execRestartReset t w s = _
    unfold execRestartReset
    rw [event_powered hp]
    exact congrArg Host.Outcome.next (if_neg hd)

/-! ### Power loss (R186, R188) -/

/-- What a write of an image cut short leaves of its slot (R186). -/
theorem cutShort_image {k : Store} {i : Image} (w : Bool) :
    (k.saving = some (.a, i) → (k.cutShort w).imageA = if w then some i else none) ∧
    (k.saving = some (.b, i) → (k.cutShort w).imageB = if w then some i else none) := by
  obtain ⟨_, _, _, _, _, holding, _, _⟩ := k
  cases holding with
  | none => exact ⟨fun h => by cases h; rfl, fun h => by cases h; rfl⟩
  | some x =>
    obtain ⟨n, r⟩ := x
    cases n
    · exact ⟨fun h => by cases h; rfl, fun h => by cases h; rfl⟩
    · exact ⟨fun h => by cases h; rfl, fun h => by cases h; rfl⟩

/-- What a hold write cut short leaves of its slot (R188). -/
theorem cutShort_hold {k : Store} {r : HoldRecord} (w : Bool) :
    (k.holding = some (.a, r) → (k.cutShort w).holdA = none) ∧
    (k.holding = some (.b, r) → (k.cutShort w).holdB = none) := by
  obtain ⟨_, _, saving, _, _, _, _, _⟩ := k
  cases saving with
  | none => exact ⟨fun h => by cases h; rfl, fun h => by cases h; rfl⟩
  | some x =>
    obtain ⟨n, i⟩ := x
    cases n
    · exact ⟨fun h => by cases h; rfl, fun h => by cases h; rfl⟩
    · exact ⟨fun h => by cases h; rfl, fun h => by cases h; rfl⟩

/-- Settles O6: `Store.cutShort` ends both writes, and without power only the arms of power, lines and port act. -/
theorem powerLossStopsThePart : Obligations.PowerLossStopsThePart := by
  refine fun s => ⟨fun t w hp => ?_, fun w => ⟨rfl, rfl, fun i => (cutShort_image w).1, fun i => (cutShort_image w).2,
    fun r => (cutShort_hold w).1, fun r => (cutShort_hold w).2⟩, fun i hp hw h1 h2 h3 => ?_⟩
  · show execPowerLoss t w s = _
    unfold execPowerLoss
    rw [event_powered hp]; rfl
  · cases hc : i.cmd? with
    | some c =>
      obtain ⟨m, hm⟩ := permitted_of_command hc
      rw [exec_command hc hm]
      unfold State.command
      rw [hp]; rfl
    | none =>
      have hu : ∀ (known : Bool) f, known = true → s.unitEvent known f = .next s := fun known f hk => by
        unfold State.unitEvent; rw [hk]; exact event_unpowered hp f
      cases i with
      | frameArrival t f => show Host.Outcome.next _ = _; rw [hp]; rfl
      | frameSent t => show Host.Outcome.next _ = _; rw [hp]; rfl
      | portLinkChange t v => exact absurd rfl (h3 t v)
      | lineLevelChange t x l => exact absurd rfl (h2 t x l)
      | powerOn t => exact absurd rfl (h1 t)
      | cutDeadlineExpiry p => exact hu _ _ hw
      | meterPulse t n => exact hu _ _ hw
      | senseSampleEvent l => exact hu _ _ (Bool.and_eq_true_iff.1 hw).1
      | senseWindowEnd l => exact hu _ _ (Bool.and_eq_true_iff.1 hw).1
      | caseDeadlineExpiry e => exact hu _ _ hw
      | startTimerExpiry a => exact hu _ _ hw
      | moveTimerExpiry a => exact hu _ _ hw
      | trackingPollDue a => exact hu _ _ hw
      | idlePollDue a => exact hu _ _ hw
      | supplyAgeingExpiry => show execSupplyAgeingExpiry s = _; unfold execSupplyAgeingExpiry; exact event_unpowered hp _
      | measurementWindowExpiry => show execMeasurementWindowExpiry s = _; unfold execMeasurementWindowExpiry; exact event_unpowered hp _
      | jobPhaseDeadlineExpiry j => show execJobPhaseDeadlineExpiry j s = _; unfold execJobPhaseDeadlineExpiry; exact event_unpowered hp _
      | uncontainedRetryExpiry j => show execUncontainedRetryExpiry j s = _; unfold execUncontainedRetryExpiry; exact event_unpowered hp _
      | drainDeadlineExpiry j => show execDrainDeadlineExpiry j s = _; unfold execDrainDeadlineExpiry; exact event_unpowered hp _
      | simulateDeadlineExpiry j => show execSimulateDeadlineExpiry j s = _; unfold execSimulateDeadlineExpiry; exact event_unpowered hp _
      | lineDebounceExpiry l => show execLineDebounceExpiry l s = _; unfold execLineDebounceExpiry; exact event_unpowered hp _
      | valveReply t r => show execValveReply t r s = _; unfold execValveReply; exact event_unpowered hp _
      | valveReplyTimeout => show execValveReplyTimeout s = _; unfold execValveReplyTimeout; exact event_unpowered hp _
      | holdWriteEnd t b => show execHoldWriteEnd t b s = _; unfold execHoldWriteEnd; exact event_unpowered hp _
      | saveWriteEnd t b => show execSaveWriteEnd t b s = _; unfold execSaveWriteEnd; exact event_unpowered hp _
      | restartReset t b => show execRestartReset t b s = _; unfold execRestartReset; exact event_unpowered hp _
      | stopSent t => show execStopSent t s = _; unfold execStopSent; exact event_unpowered hp _
      | powerLoss t b => show execPowerLoss t b s = _; unfold execPowerLoss; exact event_unpowered hp _
      | _ => exact nomatch hc

end Sys2Proof.Machine

/-! ## The port (R169, R181–R183): what the link takes from a frame, and what the transmitter does with its queue -/

namespace Sys2Proof.Machine

-- One after another: side by side the proofs of the whole text take more memory than a check may.
set_option Elab.async false

/-! ### FRAME_ARRIVAL (R169) -/

/-- Each code of the command tables spells a command (R170). -/
theorem commandOf_of_code {n : Nat} (h : inRange 1 42 n = true) (c : Cmd) (b : List Byte) :
    ∃ i, commandOf n c b = some i ∧ i.code = n ∧ i.cmd? = some c := by
  obtain ⟨h1, h2⟩ : 1 ≤ n ∧ n ≤ 42 := by simpa [inRange] using h
  obtain ⟨n, rfl⟩ : ∃ m, n = m + 1 := ⟨n - 1, by omega⟩
  iterate 42 (rcases n with _ | n; exact ⟨_, rfl, rfl, rfl⟩)
  exact absurd h2 (by omega)

/-- A record of good format has a code of the command tables (R169). -/
theorem inRange_of_goodFormat {h : Header} (hb : badFormat h = false) : inRange 1 42 h.code = true := by
  simp only [badFormat, Bool.or_eq_false_iff, Bool.not_eq_false'] at hb
  exact hb.2

/-- A part with power and link judges a frame that arrives (R169). -/
theorem exec_frameArrival {s : State} (hp : s.powered = true) (hu : s.link.up = true) (t : Time) (f : RawFrame) :
    exec (.frameArrival t f) s = .next ((s.advance t).frameArrives t f) := by
  show Host.Outcome.next _ = _
  rw [if_pos (by rw [hp, hu]; rfl)]

/-- A record that the link judges: whole, addressed to the part, and not of the part's own kinds (R169). -/
theorem frameArrives_judged {s : State} {f : RawFrame} (hw : recordWhole f.payload = true) (ha : s.addressed f = true)
    (hk : fromPart (headerOf f.payload) = false) (t : Time) : s.frameArrives t f =
      if badFormat (headerOf f.payload)
      then (s.handReply (refusedAtArrival f.src (headerOf f.payload).code (headerOf f.payload).tag .format)).transmit
      else match commandOf (headerOf f.payload).code (frameCmd t f (headerOf f.payload)) (f.payload.drop 12) with
        | none => s
        | some i => (s.offer i (frameCmd t f (headerOf f.payload))).transmit := by
  unfold State.frameArrives
  rw [if_neg (by rw [hw, ha, hk]; exact Bool.false_ne_true)] <;> rfl

/-- Settles O7: the record is discarded, refused for its format, or offered to the queue as the command it spells. -/
theorem frameArrivalQueuesCommand : Obligations.FrameArrivalQueuesCommand := by
  rintro s t f h rfl hp hu
  rw [exec_frameArrival hp hu]
  refine ⟨fun x hw ha hk hx => ?_, fun hd => ?_⟩
  · rw [frameArrives_judged hw (show (s.advance t).addressed f = true from ha) hk]
    refine ⟨fun hb => by rw [if_pos hb], fun hb => ?_⟩
    obtain ⟨i, hi, hcode, hcmd⟩ :=
      commandOf_of_code (inRange_of_goodFormat hb) (frameCmd t f (headerOf f.payload)) (f.payload.drop 12)
    rw [hb, hi]
    refine ⟨i, hx.trans hi, hcode, hcmd, fun hl => ?_, fun hl => ?_⟩
    · rw [if_neg Bool.false_ne_true]; dsimp only
      rw [offer_room (s := s.advance t) hl]; rfl
    · rw [if_neg Bool.false_ne_true]; dsimp only
      rw [offer_full (s := s.advance t) hl, hcode]; rfl
  · unfold State.frameArrives; dsimp only
    rw [if_pos]
    rcases hd with e | e | e
    · simp [e]
    · simp [show (s.advance t).addressed f = false from e]
    · simp [e]

/-! ### The outbound queue (R182) -/

theorem indexWhere_eq_findIdx? {α : Type} (p : α → Bool) : ∀ (l : List α) (k : Nat),
    indexWhere p l k = (l.findIdx? p).map (· + k)
  | [], _ => rfl
  | a :: l, k => by
    unfold indexWhere
    rw [List.findIdx?_cons, indexWhere_eq_findIdx? p l (k + 1)]
    split
    · simp
    · simp [Option.map_map, Function.comp_def, Nat.add_assoc, Nat.add_comm 1 k]

/-- The entry at `k` is a waiting warning that a new entry replaces; the first entry is spared while its frame is being
sent (R182). -/
def Replaces (sending : Bool) (q : List OutEntry) (e : OutEntry) (k : Nat) : Prop :=
  ∃ x, q[k]? = some x ∧ x.replacedBy e = true ∧ (sending = true → 0 < k)

/-- The search for the entry to replace: over the entries that wait, from the index of the first of them (R182). -/
def replaceIndex (sending : Bool) (q : List OutEntry) (e : OutEntry) : Option Nat :=
  indexWhere (fun x => x.replacedBy e) (if sending then q.drop 1 else q) (if sending then 1 else 0)

theorem makeRoom_eq (b : Bool) (q : List OutEntry) (e : OutEntry) : makeRoom b q e = match replaceIndex b q e with
    | some i => some (q.set i e)
    | none =>
      if q.length < Config.outboundSize then some (q ++ [e])
      else if e.notice.assured then (dropNewest b q).map (· ++ [e]) else none := rfl

theorem replaceIndex_none {b : Bool} {q : List OutEntry} {e : OutEntry} (h : ∀ k, ¬ Replaces b q e k) :
    replaceIndex b q e = none := by
  unfold replaceIndex
  rw [indexWhere_eq_findIdx?, Option.map_eq_none_iff, List.findIdx?_eq_none_iff]
  intro x hx
  rw [← Bool.not_eq_true]
  intro hr
  obtain ⟨k, hk⟩ := List.getElem?_of_mem hx
  cases b with
  | true => exact h (k + 1) ⟨x, by simpa using hk, hr, fun _ => by omega⟩
  | false => exact h k ⟨x, hk, hr, fun h => (nomatch h)⟩

/-- The first entry that can be replaced is found (R182). -/
theorem replaceIndex_some {b : Bool} {q : List OutEntry} {e : OutEntry} {k : Nat} (h : Replaces b q e k)
    (hf : ∀ m, m < k → ¬ Replaces b q e m) : replaceIndex b q e = some k := by
  obtain ⟨x, hx, hr, hs⟩ := h
  unfold replaceIndex
  rw [indexWhere_eq_findIdx?, Option.map_eq_some_iff]
  have hlt : k < q.length := (List.getElem?_eq_some_iff.1 hx).1
  cases b with
  | false =>
    refine ⟨k, List.findIdx?_eq_some_iff_getElem.2 ⟨hlt, ?_, fun j hj hr' => ?_⟩, rfl⟩
    · rw [List.getElem?_eq_getElem hlt] at hx; cases hx; exact hr
    · exact hf j hj ⟨_, List.getElem?_eq_getElem (Nat.lt_trans hj hlt), hr', fun h => (nomatch h)⟩
  | true =>
    obtain ⟨n, rfl⟩ : ∃ n, k = n + 1 := ⟨k - 1, by have := hs rfl; omega⟩
    have hn : (q.drop 1)[n]? = some x := by rw [List.getElem?_drop, Nat.add_comm]; exact hx
    have hlt' : n < (q.drop 1).length := (List.getElem?_eq_some_iff.1 hn).1
    refine ⟨n, List.findIdx?_eq_some_iff_getElem.2 ⟨hlt', ?_, fun j hj hr' => ?_⟩, rfl⟩
    · rw [List.getElem?_eq_getElem hlt'] at hn; cases hn; exact hr
    · refine hf (j + 1) (by omega) ⟨(q.drop 1)[j]'(Nat.lt_trans hj hlt'), ?_, hr', fun _ => by omega⟩
      rw [← List.getElem?_eq_getElem, List.getElem?_drop, Nat.add_comm]

/-- The newest element that passes a test is dropped. -/
theorem dropLast?_split {α : Type} {p : α → Bool} {x : α} (a b : List α) (hx : p x = true) (hb : ∀ y ∈ b, p y = false) :
    dropLast? p (a ++ x :: b) = some (a ++ b) := by
  unfold dropLast?
  rw [if_pos (by simp [hx])]
  have hr : (a ++ x :: b).reverse = b.reverse ++ x :: a.reverse := by simp
  rw [hr, List.eraseP_append_right _ (by simpa using hb), List.eraseP_cons_of_pos hx]
  simp

/-- The newest entry that is not assured is dropped, wherever it stands among those that may go (R182). -/
theorem dropNewest_eq {b : Bool} {q : List OutEntry} {k : Nat} {x : OutEntry} (hk : q[k]? = some x)
    (hx : x.notice.assured = false) (hs : b = true → 0 < k)
    (hl : ∀ m y, k < m → q[m]? = some y → y.notice.assured = true) : dropNewest b q = some (q.eraseIdx k) := by
  have drop {r : List OutEntry} {n : Nat} (hn : r[n]? = some x)
      (hr : ∀ m y, n < m → r[m]? = some y → y.notice.assured = true) :
      dropLast? (fun z => !z.notice.assured) r = some (r.eraseIdx n) := by
    have hsplit : r = r.take n ++ x :: r.drop (n + 1) := by
      obtain ⟨hlt, rfl⟩ := List.getElem?_eq_some_iff.1 hn
      rw [List.getElem_cons_drop, List.take_append_drop]
    conv => lhs; rw [hsplit]
    rw [List.eraseIdx_eq_take_drop_succ]
    refine dropLast?_split _ _ (by rw [hx]; rfl) (fun y hy => ?_)
    obtain ⟨m, hm⟩ := List.getElem?_of_mem hy
    rw [List.getElem?_drop] at hm
    rw [hr _ y (by omega) hm]; rfl
  cases b with
  | false => cases q <;> exact drop hk hl
  | true =>
    obtain ⟨n, rfl⟩ : ∃ n, k = n + 1 := ⟨k - 1, by have := hs rfl; omega⟩
    cases q with
    | nil => exact nomatch hk
    | cons e r =>
      show (dropLast? (fun z => !z.notice.assured) r).map (e :: ·) = _
      rw [drop (n := n) hk (fun m y h hm => hl (m + 1) y (by omega) hm)]; rfl

/-! ### The numbers of the recipients (R181) -/

/-- An entry of the table counts on: its next notice number (R181). -/
def Requester.counted (r : Requester) : Requester := { r with number := nextNumber r.number }

/-- The number of one entry advances (R181). -/
def State.countOne (s : State) (i : Nat) : State := s.setRequester i ((s.requester i).map Requester.counted)

theorem countFor_eq (s : State) (is : List Nat) : s.countFor is = s.forEach is State.countOne := rfl

theorem countOne_requester (s : State) (i j : Nat) :
    (s.countOne i).requester j = if j = i then (s.requester i).map Requester.counted else s.requester j := by
  unfold State.countOne State.setRequester State.requester
  rw [List.getD_eq_getElem?_getD, List.getD_eq_getElem?_getD, List.getD_eq_getElem?_getD, List.getElem?_set]
  by_cases e : i = j
  · subst e
    rw [if_pos rfl, if_pos rfl]
    by_cases h : i < s.link.requesters.length
    · rw [if_pos h]; rfl
    · rw [if_neg h, List.getElem?_eq_none (Nat.not_lt.1 h)]; rfl
  · rw [if_neg e, if_neg (Ne.symm e)]

/-- Each of a list of different entries counts on by one, and no other (R181). -/
theorem countFor_requester {is : List Nat} (hn : is.Nodup) : ∀ (s : State) (j : Nat),
    (s.countFor is).requester j = if j ∈ is then (s.requester j).map Requester.counted else s.requester j := by
  induction is with
  | nil => intro s j; rfl
  | cons i is ih =>
    intro s j
    obtain ⟨hi, hn'⟩ := List.nodup_cons.1 hn
    show ((s.countOne i).countFor is).requester j = _
    rw [ih hn', countOne_requester]
    by_cases e : j = i
    · subst e; simp [hi]
    · simp [e]

/-- Counting writes the requester table alone (R181). -/
theorem countFor_link (is : List Nat) : ∀ s : State,
    s.countFor is = { s with link := { s.link with requesters := (s.countFor is).link.requesters } } := by
  induction is with
  | nil => intro s; rfl
  | cons i is ih =>
    intro s
    show (s.countOne i).countFor is = _
    rw [ih (s.countOne i)]; rfl

theorem enqueue_none {s : State} {e : OutEntry} {is : List Nat}
    (h : makeRoom s.link.sendingNotice s.link.outbound e = none) : s.enqueue e is = s := by
  unfold State.enqueue; rw [h]

theorem enqueue_some {s : State} {e : OutEntry} {is : List Nat} {q : List OutEntry}
    (h : makeRoom s.link.sendingNotice s.link.outbound e = some q) :
    s.enqueue e is = State.countFor { s with link.outbound := q } is := by
  unfold State.enqueue; rw [h]

theorem enqueue_outbound {s : State} {e : OutEntry} {is : List Nat} {q : List OutEntry}
    (h : makeRoom s.link.sendingNotice s.link.outbound e = some q) : (s.enqueue e is).link.outbound = q := by
  rw [enqueue_some h, countFor_link]

/-- A new entry writes the outbound queue and the requester table alone (R181, R182). -/
theorem enqueue_link (s : State) (e : OutEntry) (is : List Nat) : s.enqueue e is = { s with link := { s.link with
    outbound := (s.enqueue e is).link.outbound, requesters := (s.enqueue e is).link.requesters } } := by
  cases h : makeRoom s.link.sendingNotice s.link.outbound e with
  | none => rw [enqueue_none h]
  | some q => rw [enqueue_some h, countFor_link]

/-- An entry that stands in the queue has advanced the numbers of its requesters, and no others (R181). -/
theorem enqueue_requester {s : State} {e : OutEntry} {is : List Nat} (h : s.enqueue e is ≠ s) (hn : is.Nodup) (j : Nat) :
    (s.enqueue e is).requester j = if j ∈ is then (s.requester j).map Requester.counted else s.requester j := by
  cases hq : makeRoom s.link.sendingNotice s.link.outbound e with
  | none => exact absurd (enqueue_none hq) h
  | some q => rw [enqueue_some hq, countFor_requester hn]; rfl

/-- A held notice that its event has not overtaken is put into the queue for the entries of its recipients, if it has any
(R181). -/
theorem hand_entries {s : State} {h : HeldNotice} {is : List Nat} (hw : h.whom = .entries is)
    (ho : s.overtaken h.notice = false) : s.hand h = if s.recipients is = [] then s
      else s.enqueue { notice := h.notice, tag := h.tag, recipients := s.recipients is, served := 0 } is := by
  unfold State.hand
  rw [ho, hw, Bool.false_or]
  simp only [List.isEmpty_iff]; rfl

/-! ### FRAME_SENT and PORT_LINK_CHANGE (R183) -/

theorem exec_frameSent {s : State} (hp : s.powered = true) (t : Time) : exec (.frameSent t) s =
    .next (match s.link.sending with
      | none => s.advance t
      | some (.reply _) => State.transmit { s.advance t with link.sending := none }
      | some .notice => (State.noticeSent { s.advance t with link.sending := none }).transmit) := by
  show Host.Outcome.next _ = _
  rw [if_pos hp] <;> rfl

theorem exec_portLinkChange (s : State) (t : Time) (v : Bool) : exec (.portLinkChange t v) s =
    .next (if s.powered then if v then State.transmit { s.advance t with link.up := v }
      else State.unsend { s.advance t with link.up := v } else { s.advance t with link.up := v }) := rfl

/-- The sending of a notice other than a COMPLETION removes no record of a long command (R178). -/
theorem forgetLong_of_not_completion {s : State} {n : Notice} (h : ∀ k st b, n ≠ .completion k st b) : s.forgetLong n = s := by
  cases n with
  | completion k st b => exact absurd rfl (h k st b)
  | _ => rfl

theorem noticeSent_served {s : State} {e : OutEntry} {l : List OutEntry} (h : s.link.outbound = e :: l)
    (hl : e.served + 1 < e.recipients.length) :
    s.noticeSent = { s with link.outbound := { e with served := e.served + 1 } :: l } := by
  unfold State.noticeSent; rw [h]; exact if_pos hl

theorem noticeSent_done {s : State} {e : OutEntry} {l : List OutEntry} (h : s.link.outbound = e :: l)
    (hl : e.recipients.length ≤ e.served + 1) :
    s.noticeSent = State.forgetLong { s with link.outbound := l } e.notice := by
  unfold State.noticeSent; rw [h]; exact if_neg (Nat.not_lt.2 hl)

theorem replaces_iff {s : State} {q : List OutEntry} {e : OutEntry} {k : Nat} :
    Replaces s.link.sendingNotice q e k ↔ ∃ x, q[k]? = some x ∧ x.served = 0 ∧ (s.link.sending = some .notice → 0 < k) ∧
      e.notice.warned ≠ none ∧ x.notice.kind = e.notice.kind ∧ x.notice.warned = e.notice.warned := by
  simp only [Replaces, OutEntry.replacedBy, Link.sendingNotice, Bool.and_eq_true, decide_eq_true_eq, Option.isSome_iff_ne_none]
  constructor
  · rintro ⟨x, hq, ⟨⟨⟨h1, h2⟩, h3⟩, h4⟩, hs⟩; exact ⟨x, hq, h1, hs, h2, h3, h4⟩
  · rintro ⟨x, hq, h1, hs, h2, h3, h4⟩; exact ⟨x, hq, ⟨⟨⟨h1, h2⟩, h3⟩, h4⟩, hs⟩

/-- Settles O8: the queue by the cases of `makeRoom`, the numbers by `countFor`, and the transmitter by its definition. -/
theorem transmitterServesQueue : Obligations.TransmitterServesQueue := by
  refine ⟨?_, ?_, ?_, ?_⟩
  · rintro s e is _ P _ - rfl hlen rfl hP
    have hP' (k : Nat) : P k ↔ Replaces s.link.sendingNotice s.link.outbound e k := (hP k).trans replaces_iff.symm
    refine ⟨fun k hk hf => ?_, fun hnone => ⟨fun hl => ?_, fun k x hl ha hx hxa hs hlast => ?_, fun hl ha => ?_⟩, ?_,
      enqueue_link s e is⟩
    · refine enqueue_outbound ?_
      rw [makeRoom_eq, replaceIndex_some ((hP' k).1 hk) (fun m hm h => hf m hm ((hP' m).2 h))]
    · refine enqueue_outbound ?_
      rw [makeRoom_eq, replaceIndex_none (fun k h => hnone k ((hP' k).2 h))]
      exact if_pos hl
    · refine enqueue_outbound ?_
      rw [makeRoom_eq, replaceIndex_none (fun k h => hnone k ((hP' k).2 h))]
      dsimp only
      rw [if_neg (by rw [hl]; decide), if_pos ha, dropNewest_eq hx hxa (by simpa [Link.sendingNotice] using hs) hlast]
      rfl
    · refine enqueue_none ?_
      rw [makeRoom_eq, replaceIndex_none (fun k h => hnone k ((hP' k).2 h))]
      dsimp only
      rw [if_neg (by rw [hl]; decide), if_neg (by rw [ha]; exact Bool.false_ne_true)]
    · intro hu hn i
      rw [enqueue_requester hu hn]
      exact ⟨fun h => if_neg h, fun r h hr => by rw [if_pos h, hr]; rfl⟩
  · rintro s h is l hw ho rfl
    exact hand_entries hw ho
  · intro s t hp
    rw [exec_frameSent hp]
    refine ⟨fun h => by rw [h], fun f h => by rw [h], fun e l h hq => ?_⟩
    rw [h]; dsimp only
    have hq' : (({ s.advance t with link.sending := none } : State)).link.outbound = e :: l := hq
    refine ⟨fun hl => ?_, fun hl hn => ?_, fun k st b hl hn => ?_⟩
    · rw [noticeSent_served hq' hl]
    · rw [noticeSent_done hq' hl, forgetLong_of_not_completion hn]
    · rw [noticeSent_done hq' hl, hn]; rfl
  · intro s t
    simp only [exec_portLinkChange]
    refine ⟨fun hp => by rw [if_pos hp, if_pos trivial], fun f hp hf => ?_, fun hp hf => ?_, fun v hp => ?_⟩
    · rw [if_pos hp, if_neg Bool.false_ne_true]
      unfold State.unsend; dsimp only [State.advance]; rw [hf]
    · rw [if_pos hp, if_neg Bool.false_ne_true]
      unfold State.unsend; dsimp only [State.advance]
      split
      · rename_i h; congr
      · rename_i f h; exact absurd h (hf f)
      · rfl
    · rw [if_neg (by rw [hp]; exact Bool.false_ne_true)]

end Sys2Proof.Machine

/-! ## Flow and supply (chapter 2): requests and their stamps, cuts carried out, the supply record -/

namespace Sys2Proof.Machine

-- One after another: side by side the proofs of the whole text take more memory than a check may.
set_option Elab.async false

/-! ### How a command ends, whatever the command (R175, R176) -/

/-- A command that its block refuses changes nothing but its answer. -/
theorem exec_refused {s : State} {i : Instr} {c : Cmd} {r : Reason} {b : ReplyBody} (hc : i.cmd? = some c) (hr : s.AtRest)
    (ha : s.admits i c) (hb : blockOf i (s.taking i c) = (s.taking i c).refuses r b) :
    exec i s = .next (s.refused i c r b) := by
  obtain ⟨m, hm⟩ := permitted_of_command hc
  rw [exec_command hc hm, command_refused_by_block hr ha hm hb]

/-- A command that its block carries out is concluded from the state the block leaves. -/
theorem exec_concluded {s t : State} {i : Instr} {c : Cmd} {a : Answer} (hc : i.cmd? = some c) (ha : s.admits i c)
    (hb : blockOf i (s.taking i c) = (t, a)) : exec i s = .next (t.concluded i c a) := by
  obtain ⟨m, hm⟩ := permitted_of_command hc
  rw [exec_command hc hm, command_concluded ha hm hb]

/-- A command whose block leaves the part at rest is answered from the state the block leaves. -/
theorem exec_replied {s t : State} {i : Instr} {c : Cmd} {a : Answer} (hc : i.cmd? = some c) (ha : s.admits i c)
    (hb : blockOf i (s.taking i c) = (t, a)) (ht : t.AtRest) : exec i s = .next (t.replied i c a) := by
  obtain ⟨m, hm⟩ := permitted_of_command hc
  rw [exec_command hc hm, command_replied ha hm hb ht]

/-- The state in which the block of a command works is sound. -/
theorem taking_sound {s : State} (h : s.Orderly) (i : Instr) (c : Cmd) : (s.taking i c).Sound true true :=
  h.sound.of_same rfl rfl

/-- The state in which the block of a command works has the branches and the arbiter of the state before, and is sound with no
work of an event due. -/
theorem taking_facts {s : State} (h : s.Orderly) (i : Instr) (c : Cmd) : (s.taking i c).br = s.br ∧
    (s.taking i c).arb = s.arb ∧ (s.taking i c).Sound true true ∧ (s.taking i c).work = Work.idle :=
  ⟨rfl, rfl, taking_sound h i c, h.atRest.work⟩

/-- A block that leaves the part with the same `State.still` concludes with it (R31, R176). -/
theorem concluded_still {v u : State} (hw : v.work = Work.idle) (hv : v.Sound true true) (hu : u.still = v.still)
    (hs : v.Sound true true → u.Sound true true) (i : Instr) (c : Cmd) (a : Answer) : (u.concluded i c a).still = v.still :=
  ((State.Calm.refl hv).quiet hu hs).concluded hw i c a

/-- The same for a block that ends in a pass. -/
theorem pass_concluded_still {v : State} (hw : v.work = Work.idle) (hv : v.Sound true true) (l : List Position)
    (as : List AlertCause) (i : Instr) (c : Cmd) (a : Answer) : ((v.pass l as).concluded i c a).still = v.still :=
  concluded_still hw hv (pass_still v l as) (pass_sound _ _) i c a

/-- An event that leaves the part with the same `State.still` finishes with it (R31). -/
theorem finish_still_of {v u : State} (hw : v.work = Work.idle) (hv : v.Sound true true) (hu : u.still = v.still)
    (hs : v.Sound true true → u.Sound true true) : u.finish.still = v.still :=
  (((State.Calm.refl hv).quiet hu hs).finish (congrArg Work.after hw)).kept

/-- An event that names a unit the part has is taken under power. -/
theorem unitEvent_powered {s : State} {known : Bool} (hk : known = true) (h : s.powered = true) (f : State → State) :
    s.unitEvent known f = .next (f s) := by
  unfold State.unitEvent; rw [hk]; exact event_powered h f

/-! ### Stamps (R26) -/

/-- A branch is given the value of the stamp counter (R26). -/
def State.giveStamp (s : State) (p : Position) : State :=
  { s.modBr p (fun b => { b with stamp := some s.arb.nextStamp }) with arb.nextStamp := s.arb.nextStamp + 1 }

theorem renumber_eq (s : State) : s.renumber = s.forEach s.byStamp State.giveStamp := rfl

theorem giveStamp_br_ne (s : State) {p q : Position} (h : p ≠ q) : (s.giveStamp p).br q = s.br q := modBr_br_ne s _ h

theorem giveStamp_br_self {s : State} {p : Position} (h : p < s.branches.length) :
    (s.giveStamp p).br p = { s.br p with stamp := some s.arb.nextStamp } := modBr_br_self s p _ h

theorem giveStamp_length (s : State) (p : Position) : (s.giveStamp p).branches.length = s.branches.length :=
  modBr_branches_length s p _

/-- A branch record without its stamp. -/
def Branch.unstamped (b : Branch) : Branch := { b with stamp := none }

theorem giveStamp_unstamped (s : State) (p : Position) : State.Same Branch.unstamped s (s.giveStamp p) :=
  (State.Same.refl Branch.unstamped s).modBr p (fun b => { b with stamp := some s.arb.nextStamp }) (fun _ => rfl)

theorem takeStamp_below {s : State} (h : s.arb.nextStamp < 4294967295) (p : Position) : s.takeStamp p = s.giveStamp p := by
  unfold State.takeStamp
  rw [if_pos (show s.arb.nextStamp < Config.stampMax from h)]; rfl

theorem takeStamp_end {s : State} (h : 4294967295 ≤ s.arb.nextStamp) (p : Position) :
    s.takeStamp p = (State.forEach { s with arb.nextStamp := 1 } s.byStamp State.giveStamp).giveStamp p := by
  unfold State.takeStamp
  rw [if_neg (show ¬ s.arb.nextStamp < Config.stampMax from Nat.not_lt.2 h)]; rfl

/-- The taking of a stamp writes stamps alone of the branch records (R26). -/
theorem takeStamp_unstamped (s : State) (p : Position) : State.Same Branch.unstamped s (s.takeStamp p) := by
  rcases Nat.lt_or_ge s.arb.nextStamp 4294967295 with h | h
  · rw [takeStamp_below h]; exact giveStamp_unstamped s p
  · rw [takeStamp_end h]
    have h1 : State.Same Branch.unstamped s { s with arb.nextStamp := 1 } := rfl
    exact (h1.each _ giveStamp_unstamped).trans (giveStamp_unstamped _ p)

theorem takeStamp_bus (s : State) (p : Position) : (s.takeStamp p).bus = s.bus := by
  rcases Nat.lt_or_ge s.arb.nextStamp 4294967295 with h | h
  · rw [takeStamp_below h]; rfl
  · rw [takeStamp_end h]
    exact forEach_leaves State.bus State.giveStamp (fun _ _ => rfl) _ _

theorem takeStamp_link (s : State) (p : Position) : (s.takeStamp p).link = s.link := by
  rcases Nat.lt_or_ge s.arb.nextStamp 4294967295 with h | h
  · rw [takeStamp_below h]; rfl
  · rw [takeStamp_end h]
    exact forEach_leaves State.link State.giveStamp (fun _ _ => rfl) _ _

theorem takeStamp_work (s : State) (p : Position) : (s.takeStamp p).work = s.work := by
  rcases Nat.lt_or_ge s.arb.nextStamp 4294967295 with h | h
  · rw [takeStamp_below h]; rfl
  · rw [takeStamp_end h]
    exact forEach_leaves State.work State.giveStamp (fun _ _ => rfl) _ _

/-- Stamps given to different branches, in order, count up from the counter (R26). -/
theorem giveStamps (l : List Position) : ∀ s : State, l.Nodup → (∀ p ∈ l, p < s.branches.length) →
    (s.forEach l State.giveStamp).arb.nextStamp = s.arb.nextStamp + l.length ∧
    (∀ q, q ∉ l → (s.forEach l State.giveStamp).br q = s.br q) ∧
    (∀ k q, l[k]? = some q → ((s.forEach l State.giveStamp).br q).stamp = some (s.arb.nextStamp + k)) := by
  induction l with
  | nil => exact fun s _ _ => ⟨rfl, fun _ _ => rfl, fun k q h => (nomatch h)⟩
  | cons p l ih =>
    intro s hn hl
    obtain ⟨hp, hn'⟩ := List.nodup_cons.1 hn
    obtain ⟨hnext, hrest, hgiven⟩ := ih (s.giveStamp p) hn'
      (fun q hq => (giveStamp_length s p).symm ▸ hl q (List.mem_cons_of_mem _ hq))
    have e : s.forEach (p :: l) State.giveStamp = (s.giveStamp p).forEach l State.giveStamp := rfl
    have hc : (s.giveStamp p).arb.nextStamp = s.arb.nextStamp + 1 := rfl
    rw [e]
    refine ⟨?_, fun q hq => ?_, fun k q hk => ?_⟩
    · rw [hnext, hc, List.length_cons]; omega
    · rw [List.mem_cons, not_or] at hq
      rw [hrest q hq.2, giveStamp_br_ne s (Ne.symm hq.1)]
    · cases k with
      | zero =>
        cases hk
        rw [hrest p hp, giveStamp_br_self (hl p List.mem_cons_self)]; rfl
      | succ k =>
        rw [hgiven k q hk, hc]; congr 1; omega

theorem byStamp_nodup (s : State) : s.byStamp.Nodup :=
  (sortBy_perm _ _).nodup_iff.2 ((List.nodup_range.filter _).filter _)

theorem mem_byStamp {s : State} {q : Position} : q ∈ s.byStamp ↔ q < 24 ∧ (s.br q).state = .active ∧ (s.br q).stamp ≠ none := by
  simp only [State.byStamp, mem_sortBy, State.activePositions, State.positionsWhere, Config.positions,
    Option.isSome_iff_ne_none, List.mem_filter, List.mem_range, decide_eq_true_eq, and_assoc]

theorem byStamp_pairwise (s : State) :
    s.byStamp.Pairwise (fun q r => (s.br q).stamp.getD 0 ≤ (s.br r).stamp.getD 0) := by
  refine (sortBy_pairwise ?_ ?_ _).imp (fun h => of_decide_eq_true h)
  · intro a b c h k
    exact decide_eq_true (Nat.le_trans (of_decide_eq_true h) (of_decide_eq_true k))
  · intro a b
    exact (Nat.le_total _ _).imp (fun h => decide_eq_true h) (fun h => decide_eq_true h)

/-- Settles O12: below its end the counter gives its value; at its end the stamps are given anew from 1, in order, and the
branch gets the next. -/
theorem stampsKeepTheirOrder : Obligations.StampsKeepTheirOrder := by
  intro s p hz hp
  refine ⟨fun h => takeStamp_below h p, fun h => ?_⟩
  have hlen : ∀ q, q ∈ s.byStamp → q < s.branches.length := fun q hq => by rw [hz.branches]; exact (mem_byStamp.1 hq).1
  obtain ⟨hnext, -, hgiven⟩ := giveStamps s.byStamp { s with arb.nextStamp := 1 } (byStamp_nodup s) hlen
  have hpl : p < (State.forEach { s with arb.nextStamp := 1 } s.byStamp State.giveStamp).branches.length := by
    rw [forEach_leaves (fun t => t.branches.length) State.giveStamp giveStamp_length]
    exact hz.branches.symm ▸ hp
  rw [takeStamp_end h]
  refine ⟨?_, ?_, fun k q hk hq => ?_, fun q => mem_byStamp, byStamp_pairwise s⟩
  · rw [giveStamp_br_self hpl]
    exact congrArg some (hnext.trans (Nat.add_comm _ _))
  · show (State.forEach _ _ _).arb.nextStamp + 1 = _
    rw [hnext]
    show 1 + _ + 1 = _
    omega
  · rw [giveStamp_br_ne _ hq.symm, hgiven k q hk]
    exact congrArg some (Nat.add_comm 1 k)

/-! ### FLOW_REQUEST (R25) -/

/-- A request is written into the record of its branch (R25, R27). -/
def Branch.asking (flow : Nat) (urgent : Bool) (b : Branch) : Branch :=
  { b with request := flow, urgent := urgent && b.limits.urgentPermitted }

/-- The state in which a request is written: with a new stamp for a greater one (R26). -/
def State.stampedFor (s : State) (p : Position) (flow : Nat) : State :=
  if (s.br p).request < flow then s.takeStamp p else s

theorem writeRequest_eq (s : State) (p : Position) (flow : Nat) (urgent : Bool) :
    s.writeRequest p flow urgent = (s.stampedFor p flow).modBr p (Branch.asking flow urgent) := rfl

theorem stampedFor_unstamped (s : State) (p : Position) (flow : Nat) :
    State.Same Branch.unstamped s (s.stampedFor p flow) := by
  unfold State.stampedFor; split
  · exact takeStamp_unstamped s p
  · rfl

theorem writeRequest_br {s : State} {p : Position} (h : p < s.branches.length) (flow : Nat) (urgent : Bool) :
    (s.writeRequest p flow urgent).br p = Branch.asking flow urgent ((s.stampedFor p flow).br p) :=
  modBr_br_self _ p _ ((stampedFor_unstamped s p flow).length.symm ▸ h)

/-- The writing of a request leaves the bus, the link and the work of the event (R25). -/
theorem writeRequest_leaves (s : State) (p : Position) (flow : Nat) (urgent : Bool) :
    (s.writeRequest p flow urgent).bus = s.bus ∧ (s.writeRequest p flow urgent).link = s.link ∧
    (s.writeRequest p flow urgent).work = s.work := by
  rw [writeRequest_eq]
  show (s.stampedFor p flow).bus = _ ∧ (s.stampedFor p flow).link = _ ∧ (s.stampedFor p flow).work = _
  unfold State.stampedFor; split
  · exact ⟨takeStamp_bus s p, takeStamp_link s p, takeStamp_work s p⟩
  · exact ⟨rfl, rfl, rfl⟩

theorem flowRequestOn_range {s : State} {flow : Nat} (h : 600 < flow) (urgent : Bool) (p : Position) :
    flowRequestOn flow urgent p s = s.refuses .range .empty := if_pos h

theorem flowRequestOn_state {s : State} {flow : Nat} {p : Position} (h : flow ≤ 600) (hs : (s.br p).state ≠ .active)
    (urgent : Bool) : flowRequestOn flow urgent p s = s.refuses .branchState .empty :=
  (if_neg (Nat.not_lt.2 h)).trans (if_pos hs)

theorem flowRequestOn_active {s : State} {flow : Nat} {p : Position} (h : flow ≤ 600) (hs : (s.br p).state = .active)
    (urgent : Bool) : flowRequestOn flow urgent p s = ((s.writeRequest p flow urgent).pass [] [],
      answer (if urgent && !(s.br p).limits.urgentPermitted then .doneWarn else .done)
        (((s.writeRequest p flow urgent).pass [] []).flowBody p)) :=
  (if_neg (Nat.not_lt.2 h)).trans (if_neg (not_not_intro hs))

/-- What a state that agrees in `State.still` with a written request has of it (R25–R27). -/
theorem written_fields {w t : State} {p : Position} {flow : Nat} {urgent : Bool} (hp : p < w.branches.length)
    (h : t.still = (w.writeRequest p flow urgent).still) :
    (t.br p).request = flow ∧ (t.br p).urgent = (urgent && (w.br p).limits.urgentPermitted) ∧
    (flow ≤ (w.br p).request → (t.br p).stamp = (w.br p).stamp ∧ t.arb.nextStamp = w.arb.nextStamp) ∧
    ((w.br p).request < flow → w.arb.nextStamp < 4294967295 →
      (t.br p).stamp = some w.arb.nextStamp ∧ t.arb.nextStamp = w.arb.nextStamp + 1) := by
  have hbr := writeRequest_br hp flow urgent
  have hsame := stampedFor_unstamped w p flow
  have hstamp : (t.br p).stamp = ((w.stampedFor p flow).br p).stamp := by
    rw [br_field_of_still (f := Branch.stamp) h p (fun _ => rfl), hbr]; rfl
  have hnext : t.arb.nextStamp = (w.stampedFor p flow).arb.nextStamp := congrArg (fun x => x.arb.nextStamp) h
  refine ⟨?_, ?_, fun hle => ?_, fun hlt hn => ?_⟩
  · rw [br_field_of_still (f := Branch.request) h p (fun _ => rfl), hbr]; rfl
  · rw [br_field_of_still (f := Branch.urgent) h p (fun _ => rfl), hbr]
    exact congrArg (urgent && ·.urgentPermitted) (hsame.field p Branch.limits (fun _ => rfl))
  · have e : w.stampedFor p flow = w := if_neg (Nat.not_lt.2 hle)
    rw [hstamp, hnext, e]; exact ⟨rfl, rfl⟩
  · have e : w.stampedFor p flow = w.giveStamp p := (if_pos hlt).trans (takeStamp_below hn p)
    rw [hstamp, hnext, e, giveStamp_br_self hp]; exact ⟨rfl, rfl⟩

/-- The answer to a request carries the request (R25). -/
theorem written_flowBody {w : State} {p : Position} (hp : p < w.branches.length) (flow : Nat) (urgent : Bool) {u : State}
    (h : u.still = (w.writeRequest p flow urgent).still) :
    u.flowBody p = .flow flow (u.br p).target (u.br p).grant (u.br p).drive := by
  unfold State.flowBody; rw [(written_fields hp h).1]

/-- Settles O11: the block refuses or writes the request; its pass leaves the request, the flag and the stamps. -/
theorem flowRequestWritesRequest : Obligations.FlowRequestWritesRequest := by
  rintro s c flow urgent p i hi ho hadm hbound hp
  have hc : i.cmd? = some c := by rw [hi]; rfl
  have hrun : blockOf i (s.taking i c) = flowRequestOn flow urgent p (s.taking i c) := by
    rw [hi]; exact onBound_of_boundBranch hbound (flowRequestOn flow urgent)
  refine ⟨fun h => ?_, fun h hs => ?_, fun u h hs hu => ?_⟩
  · exact exec_refused hc ho.atRest hadm (by rw [hrun, flowRequestOn_range h])
  · exact exec_refused hc ho.atRest hadm (by rw [hrun, flowRequestOn_state (s := s.taking i c) h hs])
  have hexec {t : State} {a : Answer} := exec_concluded (t := t) (a := a) hc hadm
  obtain ⟨hbr, harb, hsound, hwork⟩ := taking_facts ho i c
  generalize s.taking i c = w at hrun hexec hbr harb hsound hwork hu ⊢
  have hlen : p < w.branches.length := lt_of_br_active (p := p) (by rw [hbr]; exact hs)
  obtain ⟨hbus, hlink, hwork'⟩ := writeRequest_leaves w p flow urgent
  have hstill := pass_concluded_still (hwork'.trans hwork) (hsound.of_same (congrArg Link.outbound hlink) hbus) [] [] i c
  rw [flowRequestOn_active h (by rw [hbr]; exact hs) urgent, hbr,
    written_flowBody hlen flow urgent (pass_still (w.writeRequest p flow urgent) [] [])] at hrun
  rw [← hbr, ← harb]
  rw [← hbr] at hrun
  subst hu
  obtain ⟨hreq, hurg, hkeep, hnew⟩ := written_fields hlen (hstill _)
  exact ⟨_, hexec hrun, rfl, hreq, hurg, hkeep, hnew, hstill _⟩

/-! ### Cuts carried out (R38, R39) -/

/-- Stage 5 alone over the branches with rise waiting leaves each branch its cut (R42). -/
theorem reexamine_cut (s : State) (q : Position) : (s.reexamine.br q).cut = (s.br q).cut := by
  have h1 (t : State) : (t.setRiseWaiting.br q).cut = (t.br q).cut :=
    ((State.Same.refl Branch.cut t).each _ (fun s p => (State.Same.refl Branch.cut s).modBr p
      (fun b => { b with riseWaiting := b.state = .active && b.drive < b.grant }) (fun _ => rfl))).br q
  unfold State.reexamine
  rw [h1]
  unfold State.rises; split
  · rfl
  · exact (riseRound_cut _ q _ _).trans (riseRound_cut _ q _ _)

/-- A branch whose drive has reached its grant keeps it when waiting rises are re-examined (R42). -/
theorem reexamine_drive {s : State} {q : Position} (h : (s.br q).grant ≤ (s.br q).drive) :
    (s.reexamine.br q).drive = (s.br q).drive := by
  have h1 (t : State) : (t.setRiseWaiting.br q).drive = (t.br q).drive :=
    ((State.Same.refl Branch.drive t).each _ (fun s p => (State.Same.refl Branch.drive s).modBr p
      (fun b => { b with riseWaiting := b.state = .active && b.drive < b.grant }) (fun _ => rfl))).br q
  unfold State.reexamine
  rw [h1, rises_br_ne (Or.inr (Or.inr (Or.inr h)))]

/-- The carrying out of a cut keeps what `State.still` keeps of the state before it (R38). -/
theorem carryCut_still (s : State) (p : Position) (k : PendingCut) : (s.carryCut p k).still = s.still := by
  unfold State.carryCut
  rw [reexamine_still, setDrive_still]
  exact modBr_still s p _ (fun _ => rfl)

theorem carryCut_sound {g m : Bool} {s : State} (p : Position) (k : PendingCut) (h : s.Sound g m) :
    (s.carryCut p k).Sound g m := reexamine_sound (setDrive_sound _ _ (modBr_sound _ _ h))

/-- A cut carried out is gone, and its branch is driven at the new drive when its grant is no higher (R38). -/
theorem carryCut_br {s : State} {p : Position} (hp : p < s.branches.length) (k : PendingCut) :
    ((s.carryCut p k).br p).cut = none ∧ ((s.carryCut p k).br p).overdue = (s.br p).overdue ∧
    ((s.br p).grant ≤ k.newDrive → ((s.carryCut p k).br p).drive = k.newDrive) := by
  have hp' : p < (s.modBr p (fun b => { b with cut := none })).branches.length :=
    (modBr_branches_length s p _).symm ▸ hp
  have hd := setDrive_drive k.newDrive hp'
  refine ⟨?_, br_field_of_still (f := Branch.overdue) (carryCut_still s p k) p (fun _ => rfl), fun hg => ?_⟩
  · unfold State.carryCut
    rw [reexamine_cut, setDrive_cut, modBr_br_self s p _ hp]
  · unfold State.carryCut
    rw [reexamine_drive, hd]
    rw [setDrive_grant, hd, modBr_br_self s p _ hp]; exact hg

theorem cutAckOn_none {s : State} {p : Position} (h : (s.br p).cut = none) : cutAckOn p s = (s, answer .late .empty) := by
  unfold cutAckOn; rw [h]

theorem cutAckOn_some {s : State} {p : Position} {k : PendingCut} (h : (s.br p).cut = some k) :
    cutAckOn p s = (s.carryCut p k, answer .done .empty) := by
  unfold cutAckOn; rw [h]

theorem cutDeadlineExpiry_none {s : State} {p : Position} (hp : p < 24) (hs : s.powered = true) (h : (s.br p).cut = none) :
    exec (.cutDeadlineExpiry p) s = .next s := by
  show execCutDeadlineExpiry p s = _
  unfold execCutDeadlineExpiry
  rw [unitEvent_powered (decide_eq_true (Nat.le_of_lt_succ hp)) hs, h]

theorem cutDeadlineExpiry_some {s : State} {p : Position} {k : PendingCut} (hp : p < 24) (hs : s.powered = true)
    (h : (s.br p).cut = some k) : exec (.cutDeadlineExpiry p) s = .next ((s.advance k.deadline).expireCut p k) := by
  show execCutDeadlineExpiry p s = _
  unfold execCutDeadlineExpiry
  rw [unitEvent_powered (decide_eq_true (Nat.le_of_lt_succ hp)) hs, h]

/-- Settles O14: both ways a cut is carried out end in `State.carryCut`. -/
theorem pendingCutsAreCarriedOut : Obligations.PendingCutsAreCarriedOut := by
  refine ⟨?_, ?_⟩
  · rintro s c p i hi ho hadm hbound hp
    have hc : i.cmd? = some c := by rw [hi]; rfl
    have hrun : blockOf i (s.taking i c) = cutAckOn p (s.taking i c) := by
      rw [hi]; exact onBound_of_boundBranch hbound cutAckOn
    have hlen : p < (s.taking i c).branches.length := ho.sized.branches.symm ▸ hp
    refine ⟨fun h => exec_replied hc hadm (hrun.trans (cutAckOn_none h)) (taking_atRest ho.atRest _ _), ?_⟩
    intro k u hk hu
    have hexec := exec_concluded hc hadm (hrun.trans (cutAckOn_some hk))
    obtain ⟨hbr, -, hsound, hwork⟩ := taking_facts ho i c
    generalize s.taking i c = w at hexec hbr hsound hwork hlen hu ⊢
    obtain ⟨hcut, hover, hdrive⟩ := carryCut_br hlen k
    have hstill := concluded_still hwork hsound (carryCut_still w p k) (carryCut_sound p k) i c (answer .done .empty)
    rw [hbr] at hover hdrive
    subst hu
    exact ⟨hcut, hover, hdrive, _, hexec, rfl, hstill⟩
  · intro s p ho hs hp
    have hlen : p < s.branches.length := ho.sized.branches.symm ▸ hp
    refine ⟨cutDeadlineExpiry_none hp hs, ?_⟩
    rintro k v u hk hv rfl
    have hexec : exec (.cutDeadlineExpiry p) s = .next (v.carryCut p k).finish := by
      rw [hv]; exact cutDeadlineExpiry_some hp hs hk
    have hbr : v.br p = { s.br p with overdue := min ((s.br p).overdue + 1) 255 } := by
      rw [hv]; exact modBr_br_self (s.advance k.deadline) p _ hlen
    have hvlen : p < v.branches.length := by
      rw [hv]; exact (modBr_branches_length (s.advance k.deadline) p _).symm ▸ hlen
    have hsound : v.Sound true true := by rw [hv]; exact modBr_sound _ _ (ho.sound.of_same rfl rfl)
    have hwork : v.work = Work.idle := by rw [hv]; exact ho.atRest.work
    obtain ⟨hcut, -, hdrive⟩ := carryCut_br hvlen k
    have hstill := finish_still_of hwork hsound (carryCut_still v p k) (carryCut_sound p k)
    rw [hbr] at hdrive
    refine ⟨hcut, hdrive, _, hexec, rfl, ?_, hstill⟩
    rw [br_field_of_still (f := Branch.overdue) hstill p (fun _ => rfl), hbr]

/-! ### The supply record (R23, R24) -/

theorem declareSupplyBlock_range {s : State} {n : Nat} (h : 16000 < n) : declareSupplyBlock n s = s.refuses .range .empty :=
  if_pos h

/-- After a declaration and its pass the supply in use is the one declared (R21, R23). -/
theorem declared_pass_inUse (s : State) (n : Nat) (as : List AlertCause) :
    ((s.declared n).pass [] as).supplyInUse = n ∧
    ((s.declared n).pass [] as).budget = n - s.pol.active.supply.reserve := by
  have hs := pass_still (s.declared n) [] as
  have ha : ((s.declared n).pass [] as).arb.supply = (s.declared n).arb.supply := congrArg (fun x => x.arb.supply) hs
  refine ⟨?_, budget_of_still hs⟩
  unfold State.supplyInUse
  rw [ha]; rfl

theorem declareSupplyBlock_declares {s : State} {n : Nat} (h : n ≤ 16000) : declareSupplyBlock n s =
    ((s.declared n).pass [] (if s.arb.supply.state = .stale then [.staleEnded] else []),
      answer .done (.supplyAnswer n (n - s.pol.active.supply.reserve)
        ((s.declared n).pass [] (if s.arb.supply.state = .stale then [.staleEnded] else [])).available)) := by
  obtain ⟨hs, hb⟩ := declared_pass_inUse s n (if s.arb.supply.state = .stale then [.staleEnded] else [])
  refine (if_neg (Nat.not_lt.2 h)).trans ?_
  dsimp only
  rw [hs, hb]

theorem exec_supplyAgeingExpiry {s : State} (h : s.powered = true) : exec .supplyAgeingExpiry s =
    .next (s.atDeadline (if s.arb.supply.state = .fresh then s.arb.supply.deadline else none) State.goStale) := by
  show execSupplyAgeingExpiry s = _
  unfold execSupplyAgeingExpiry
  rw [event_powered h]

/-- `State.still` keeps the supply record. -/
theorem supply_of_still {s t : State} (h : t.still = s.still) : t.arb.supply = s.arb.supply :=
  show t.still.arb.supply = s.still.arb.supply by rw [h]

/-- Settles O15: the record is written, one pass runs, and the end of the event leaves the record. -/
theorem supplyRecordAges : Obligations.SupplyRecordAges := by
  refine ⟨?_, ?_⟩
  · rintro s c n i hi ho hadm
    have hc : i.cmd? = some c := by rw [hi]; rfl
    have hrun : blockOf i (s.taking i c) = declareSupplyBlock n (s.taking i c) := by rw [hi]; rfl
    refine ⟨fun h => exec_refused hc ho.atRest hadm (hrun.trans (declareSupplyBlock_range h)), ?_⟩
    rintro now v u h rfl hv rfl
    have hv' : v = (s.taking i c).declared n := hv
    have hsound : v.Sound true true := by rw [hv']; exact (taking_sound ho i c).of_same rfl rfl
    have hwork : v.work = Work.idle := by rw [hv']; exact ho.atRest.work
    have hstill := pass_concluded_still hwork hsound [] (if s.arb.supply.state = .stale then [.staleEnded] else []) i c
    have hexec := exec_concluded hc hadm (hrun.trans (declareSupplyBlock_declares h))
    rw [← hv', show (s.taking i c).arb = s.arb from rfl, show (s.taking i c).pol = s.pol from rfl] at hexec
    clear hv hv' hrun
    exact ⟨_, hexec, rfl, supply_of_still (hstill _), hstill _⟩
  · intro s ho hs
    rw [exec_supplyAgeingExpiry hs]
    refine ⟨fun h => ?_, ?_⟩
    · rcases h with h | h
      · rw [if_neg h]; rfl
      · rw [h, ite_self]; rfl
    · rintro d v hf hd hv
      rw [if_pos hf, hd]
      have hsound : v.Sound true true := by rw [hv]; exact ho.sound.of_same rfl rfl
      have hwork : v.work = Work.idle := by rw [hv]; exact ho.atRest.work
      have hstill := finish_still_of hwork hsound (pass_still v [] [.staleEntered]) (pass_sound _ _)
      have hsup : (v.pass [] [.staleEntered]).finish.arb.supply = v.arb.supply := congrArg (fun x => x.arb.supply) hstill
      refine ⟨(v.pass [] [.staleEntered]).finish, ?_, rfl, ?_, ?_, hstill⟩
      · rw [hv]; rfl
      · rw [hsup, hv]
      · rw [hsup, hv]

end Sys2Proof.Machine

/-! ## Policy (chapter 3) and the stores (R186–R188): staging, the errors of an apply, saves and hold writes -/

namespace Sys2Proof.Machine

-- One after another: side by side the proofs of the whole text take more memory than a check may.
set_option Elab.async false

/-! ### Ranges and staging (R50–R53) -/

/-- The ordinal a STAGE command answers is that of the first field out of its range (R50). -/
theorem firstOut_eq_some_iff (l : List Bool) (n : Nat) : firstOut l = some n ↔ FirstOutOfRange l n := by
  unfold firstOut FirstOutOfRange
  rw [indexWhere_eq_findIdx?, Option.map_eq_some_iff]
  constructor
  · rintro ⟨k, hk, rfl⟩
    obtain ⟨hlt, hx, hf⟩ := List.findIdx?_eq_some_iff_getElem.1 hk
    refine ⟨Nat.le_add_left 1 k, ?_, fun j hj => ?_⟩
    · rw [Nat.add_sub_cancel, List.getElem?_eq_getElem hlt]; exact congrArg some (by simpa using hx)
    · rw [Nat.add_sub_cancel] at hj
      rw [List.getElem?_eq_getElem (Nat.lt_trans hj hlt)]; exact congrArg some (by simpa using hf j hj)
  · rintro ⟨h1, hn, hf⟩
    obtain ⟨hlt, hx⟩ := List.getElem?_eq_some_iff.1 hn
    refine ⟨n - 1, List.findIdx?_eq_some_iff_getElem.2 ⟨hlt, by simp [hx], fun j hj => ?_⟩, by omega⟩
    have := hf j hj
    rw [List.getElem?_eq_getElem (Nat.lt_trans hj hlt)] at this
    simpa using this

/-- Nothing is answered when every field is in its range (R50). -/
theorem firstOut_eq_none_iff (l : List Bool) : firstOut l = none ↔ ∀ b ∈ l, b = true := by
  unfold firstOut
  rw [indexWhere_eq_findIdx?, Option.map_eq_none_iff, List.findIdx?_eq_none_iff]
  simp

theorem stageBlock_index {ok : Bool} (h : ok = false) (l : List Bool) (f : Policy → Policy) (s : State) :
    stageBlock ok l f s = s.refuses .range .empty := by
  unfold stageBlock; rw [h]; rfl

theorem stageBlock_ordinal {ok : Bool} (h : ok = true) {l : List Bool} {n : Nat} (hn : FirstOutOfRange l n)
    (f : Policy → Policy) (s : State) : stageBlock ok l f s = s.refuses .range (.ordinal n) := by
  unfold stageBlock; rw [h, (firstOut_eq_some_iff l n).2 hn]; rfl

theorem stageBlock_stages {ok : Bool} (h : ok = true) {l : List Bool} (hl : ∀ b ∈ l, b = true) (f : Policy → Policy)
    (s : State) : stageBlock ok l f s = (s.stage f, answer .done .empty) := by
  unfold stageBlock; rw [h, (firstOut_eq_none_iff l).2 hl]; rfl

/-- Staging leaves the part at rest. -/
theorem stage_atRest {s : State} (h : s.AtRest) (f : Policy → Policy) : (s.stage f).AtRest :=
  ⟨h.reports, h.granted, h.work⟩

/-- A STAGE command in range is answered from the staged state (R50). -/
theorem exec_staged {s : State} {i : Instr} {c : Cmd} {ok : Bool} {l : List Bool} {f : Policy → Policy}
    (hc : i.cmd? = some c) (hr : s.AtRest) (ha : s.admits i c) (hb : blockOf i = stageBlock ok l f) (h : ok = true)
    (hl : ∀ b ∈ l, b = true) : exec i s = .next (((s.taking i c).stage f).replied i c (answer .done .empty)) :=
  exec_replied hc ha (by rw [hb, stageBlock_stages h hl]) (stage_atRest (taking_atRest hr i c) f)

theorem exec_stage_index {s : State} {i : Instr} {c : Cmd} {ok : Bool} {l : List Bool} {f : Policy → Policy}
    (hc : i.cmd? = some c) (hr : s.AtRest) (ha : s.admits i c) (hb : blockOf i = stageBlock ok l f) (h : ok = false) :
    exec i s = .next (s.refused i c .range .empty) :=
  exec_refused hc hr ha (by rw [hb, stageBlock_index h])

theorem exec_stage_ordinal {s : State} {i : Instr} {c : Cmd} {ok : Bool} {l : List Bool} {f : Policy → Policy} {n : Nat}
    (hc : i.cmd? = some c) (hr : s.AtRest) (ha : s.admits i c) (hb : blockOf i = stageBlock ok l f) (h : ok = true)
    (hn : FirstOutOfRange l n) : exec i s = .next (s.refused i c .range (.ordinal n)) :=
  exec_refused hc hr ha (by rw [hb, stageBlock_ordinal h hn])

theorem inRange_iff {lo hi n : Nat} : inRange lo hi n = true ↔ lo ≤ n ∧ n ≤ hi := by simp [inRange]

theorem inRange_false {lo hi n : Nat} : inRange lo hi n = false ↔ n < lo ∨ hi < n := by
  rw [← Bool.not_eq_true, inRange_iff]; omega

/-- Settles O23: every check of the group passes, and the record is the one of the group. -/
theorem stageBranchStages : Obligations.StageBranchStages := by
  rintro s c p g i rfl hr ha hp h1 h2 h3 h4 h5 h6 h7 h8 h9 h10 h11 h12 x hx1 hx2 hx3 hx4
  have hx : x = BranchGroup.policy g := by
    obtain ⟨occ, l⟩ := x
    dsimp only at hx1 hx2 hx3 hx4
    have he : l.entryRequest = g.entryRequest.getD g.ceiling := by
      cases e : g.entryRequest with
      | none => exact hx3 e
      | some n => exact hx4 n e
    rw [hx2, he, hx1]; rfl
  subst hx
  refine exec_staged rfl hr ha rfl (inRange_iff.2 ⟨Nat.zero_le p, hp⟩) (fun b hb => ?_)
  have h4' : g.entryRequest.all (fun r => decide (r ≤ 600)) = true := by
    cases e : g.entryRequest with
    | none => rfl
    | some n => exact decide_eq_true (h4 n e)
  rw [BranchGroup.checks_ranges] at hb
  simp only [h1, h2, h3, h4', h5, h6, h7, h8, h9, h10, h11, h12, List.mem_cons, List.not_mem_nil, decide_true, and_self,
    or_false, or_self] at hb
  exact hb

/-- Settles O24: every check of the group passes; a channel class writes the record of its code. -/
theorem sharedGroupsStage : Obligations.SharedGroupsStage := by
  intro s c hr
  refine ⟨?_, ?_, ?_, ?_⟩
  · rintro z e i rfl ha hz he
    refine exec_staged rfl hr ha rfl (inRange_iff.2 ⟨Nat.zero_le z, hz⟩) (fun b hb => ?_)
    cases e with
    | none => exact nomatch hb
    | some x =>
      obtain ⟨h1, h2⟩ := he x.1 x.2 rfl
      rw [extentChecks_ranges] at hb
      simpa [h1, h2] using hb
  · rintro n w k i x rfl ha hn h1 h2 h3 h4 rfl
    refine (exec_staged rfl hr ha rfl (inRange_iff.2 ⟨Nat.zero_le n, hn⟩) (fun b hb => ?_)).trans ?_
    · simpa [inRange_iff.2 ⟨h1, h2⟩, inRange_iff.2 ⟨h3, h4⟩] using hb
    · match n, hn with
      | 0, _ => rfl
      | 1, _ => rfl
      | 2, _ => rfl
      | n + 3, h => exact absurd h (by omega)
  · rintro g i rfl ha h1 h2 h3 h4 h5 h6 h7 h8 h9 h10 h11 h12 h13 h14 h15 h16
    refine exec_staged rfl hr ha rfl rfl (fun b hb => ?_)
    rw [timingChecks_ranges] at hb
    simp only [h1, h2, h3, h4, h5, h6, h7, h8, h9, h10, h11, h12, h13, h14, h15, h16, decide_true, and_self] at hb
    exact List.eq_of_mem_replicate (n := 10) hb
  · rintro g i rfl ha h1 h2 h3 h4 h5 h6
    refine exec_staged rfl hr ha rfl rfl (fun b hb => ?_)
    rw [SupplyGroup.checks_ranges] at hb
    simp only [h1, h2, h3, h4, h5, h6, List.mem_cons, List.not_mem_nil, decide_true, and_self, or_false, or_self] at hb
    exact hb

/-- Settles O25: the index is checked first, and then the fields in the order of `FirstOutOfRange`. -/
theorem stageRangesRefuse : Obligations.StageRangesRefuse := by
  refine ⟨firstOut_eq_some_iff, fun s c hr => ⟨?_, ?_, ?_, ?_, ?_⟩⟩
  · rintro p g i rfl ha
    refine ⟨fun h => exec_stage_index rfl hr ha rfl (inRange_false.2 (Or.inr h)), fun n h hn => ?_⟩
    exact exec_stage_ordinal rfl hr ha rfl (inRange_iff.2 ⟨Nat.zero_le p, h⟩) (BranchGroup.checks_ranges g ▸ hn)
  · rintro z e i rfl ha
    refine ⟨fun h => exec_stage_index rfl hr ha rfl (inRange_false.2 (Or.inr h)), ?_⟩
    rintro a b hz rfl
    have hok := inRange_iff.2 ⟨Nat.zero_le z, hz⟩
    refine ⟨fun h => exec_stage_ordinal rfl hr ha rfl hok ?_, fun h1 h2 => exec_stage_ordinal rfl hr ha rfl hok ?_⟩
    · rw [extentChecks_ranges]
      exact ⟨Nat.le_refl 1, congrArg some (decide_eq_false (Nat.not_le.2 h)), fun k hk => (nomatch hk)⟩
    · rw [extentChecks_ranges]
      refine ⟨by decide, congrArg some (decide_eq_false (Nat.not_le.2 h2)), fun k hk => ?_⟩
      obtain rfl : k = 0 := by omega
      exact congrArg some (decide_eq_true h1)
  · rintro k w n i rfl ha
    refine ⟨fun h => exec_stage_index rfl hr ha rfl (inRange_false.2 (Or.inr h)), fun hk hw => ?_, fun hk h1 h2 hn => ?_⟩
    · refine exec_stage_ordinal rfl hr ha rfl (inRange_iff.2 ⟨Nat.zero_le k, hk⟩) ⟨Nat.le_refl 1, congrArg some ?_, fun j hj => (nomatch hj)⟩
      exact inRange_false.2 (by omega)
    · refine exec_stage_ordinal rfl hr ha rfl (inRange_iff.2 ⟨Nat.zero_le k, hk⟩) ⟨by decide, congrArg some ?_, fun j hj => ?_⟩
      · exact inRange_false.2 (by omega)
      · obtain rfl : j = 0 := by omega
        exact congrArg some (inRange_iff.2 ⟨h1, h2⟩)
  · rintro g n i rfl ha hn
    exact exec_stage_ordinal rfl hr ha rfl rfl (timingChecks_ranges g ▸ hn)
  · rintro g n i rfl ha hn
    exact exec_stage_ordinal rfl hr ha rfl rfl (SupplyGroup.checks_ranges g ▸ hn)

/-! ### The errors of a policy (R56) -/

theorem BranchPolicy.error_eq_none_iff (b : BranchPolicy) :
    b.error = none ↔ b.limits.floor ≤ b.limits.ceiling ∧ b.limits.p0 + 100 ≤ b.limits.pfull := by
  unfold BranchPolicy.error
  split
  · exact ⟨fun h => (nomatch h), fun h => by omega⟩
  · split
    · exact ⟨fun h => (nomatch h), fun h => by omega⟩
    · exact ⟨fun _ => by omega, fun _ => rfl⟩

/-- A lower-numbered zone shares a position with an extent (R56). -/
theorem any_overlaps_iff {l : List (Option (Nat × Nat))} {z a b : Nat} :
    ((l.take z).any (fun x => match x with
      | none => false
      | some d => overlaps d (a, b)) = true) ↔ ∃ y d e, y < z ∧ l.getD y none = some (d, e) ∧ d ≤ b ∧ a ≤ e := by
  rw [List.any_eq_true]
  constructor
  · rintro ⟨x, hx, h⟩
    obtain ⟨y, hy⟩ := List.getElem?_of_mem hx
    rw [List.getElem?_take] at hy
    split at hy
    · rename_i hyz
      cases x with
      | none => exact nomatch h
      | some x =>
        obtain ⟨h1, h2⟩ : x.1 ≤ b ∧ a ≤ x.2 := by simpa [overlaps] using h
        exact ⟨y, x.1, x.2, hyz, by rw [List.getD_eq_getElem?_getD, hy]; rfl, h1, h2⟩
    · exact nomatch hy
  · rintro ⟨y, d, e, hy, hd, h1, h2⟩
    refine ⟨some (d, e), ?_, by simp [overlaps, h1, h2]⟩
    rw [List.getD_eq_getElem?_getD] at hd
    refine List.mem_of_getElem? (i := y) ?_
    rw [List.getElem?_take, if_pos hy]
    cases hl : l[y]? with
    | none => rw [hl] at hd; exact nomatch hd
    | some x => rw [hl] at hd; exact congrArg some hd

theorem zoneError_eq_none_iff (l : List (Option (Nat × Nat))) (z : Nat) : zoneError l z = none ↔
    ∀ a b, l.getD z none = some (a, b) →
      a ≤ b ∧ ∀ y d e, y < z → l.getD y none = some (d, e) → e < a ∨ b < d := by
  unfold zoneError
  cases hz : l.getD z none with
  | none => exact ⟨fun _ a b h => (nomatch h), fun _ => rfl⟩
  | some x =>
    obtain ⟨a, b⟩ := x
    dsimp only
    split
    · rename_i h
      exact ⟨fun h => (nomatch h), fun k => absurd (k a b rfl).1 (Nat.not_le.2 h)⟩
    · rename_i hle
      split
      · rename_i h
        obtain ⟨y, d, e, hy, hd, h1, h2⟩ := any_overlaps_iff.1 h
        refine ⟨fun h => (nomatch h), fun k => ?_⟩
        have := (k a b rfl).2 y d e hy hd
        omega
      · rename_i h
        refine ⟨fun _ a' b' hab => ?_, fun _ => rfl⟩
        cases hab
        refine ⟨Nat.not_lt.1 hle, fun y d e hy hd => ?_⟩
        refine Classical.byContradiction (fun hc => ?_)
        exact h (any_overlaps_iff.2 ⟨y, d, e, hy, hd, by omega, by omega⟩)

/-- A policy has no error when its branch groups and then its zones have none (R56). -/
theorem Policy.error_eq_none_iff (q : Policy) : q.error = none ↔
    (∀ p, p < 24 → (q.branches.getD p BranchPolicy.factory).error = none) ∧ (∀ z, z < 8 → zoneError q.zones z = none) := by
  have hb : (Config.positions.findSome? (fun n => ((q.branches.getD n BranchPolicy.factory).error).map (fun e => (e, n))) = none)
      ↔ ∀ p, p < 24 → (q.branches.getD p BranchPolicy.factory).error = none := by
    simp [List.findSome?_eq_none_iff, Config.positions]
  have hz : (Config.zones.findSome? (fun z => (zoneError q.zones z).map (fun e => (e, z))) = none)
      ↔ ∀ z, z < 8 → zoneError q.zones z = none := by
    simp [List.findSome?_eq_none_iff, Config.zones]
  unfold Policy.error
  split
  · rename_i x hx
    exact ⟨fun h => (nomatch h), fun h => (nomatch hx.symm.trans (hb.2 h.1))⟩
  · rename_i hx
    exact ⟨fun h => ⟨hb.1 hx, hz.1 h⟩, fun h => hz.2 h.2⟩

theorem applyPolicyBlock_isolating {s : State} (h : s.jobs.any Job.beforeHold = true) :
    applyPolicyBlock s = s.refuses .isolating .empty := if_pos h

theorem applyPolicyBlock_error {s : State} {e : ApplyCode} {n : Nat} (h : s.jobs.any Job.beforeHold = false)
    (he : s.pol.staged.error = some (e, n)) : applyPolicyBlock s =
      ({ s with pol.applied := applyRecord s.now .refused [(e, some n)] [] },
        refuse .range (.applyCode (some e) (some n))) := by
  unfold applyPolicyBlock
  rw [h, if_neg Bool.false_ne_true, he]

/-- Settles O26: the errors are searched branch by branch and then zone by zone, and the first is kept and answered. -/
theorem applyRefusesErrors : Obligations.ApplyRefusesErrors := by
  refine ⟨fun q => ?_, ?_⟩
  · simp only [Policy.error_eq_none_iff, BranchPolicy.error_eq_none_iff, zoneError_eq_none_iff]
    refine and_congr_right (fun _ => ⟨fun h z a b hz => h z hz a b, fun h z hz a b => h z a b hz⟩)
  · rintro s c i hi hr ha
    have hc : i.cmd? = some c := by rw [hi]; rfl
    have hb : blockOf i = applyPolicyBlock := by rw [hi]; rfl
    refine ⟨fun h => exec_refused hc hr ha (by rw [hb]; exact applyPolicyBlock_isolating h), fun e n h he => ?_⟩
    have hrun := applyPolicyBlock_error (s := s.taking i c) h he
    exact exec_replied hc ha (by rw [hb]; exact hrun) ⟨hr.reports, hr.granted, hr.work⟩

/-! ### Saves (R187) -/

theorem saveBlock_busy {s : State} (h : s.longInFlight .save = true) (c : Cmd) : saveBlock c s = s.refuses .busy .empty :=
  if_pos h

theorem saveBlock_begins {s : State} (h : s.longInFlight .save = false) (c : Cmd) : saveBlock c s =
    (State.recordLong { s with store.saving := some (s.store.imageSlot, s.snapshot) } .save c, answer .pending .empty) := by
  unfold saveBlock; rw [h]; rfl

/-- After a RESTART has been taken nothing is completed (R178). -/
theorem complete_restarting {s : State} (h : s.link.restarting = true) (k : LongKind) (st : Status) (b : CompletionBody) :
    s.complete k st b = s := by
  have e : s.openLong k = none := if_pos h
  unfold State.complete; rw [e]

theorem exec_saveWriteEnd_none {s : State} (hp : s.powered = true) (h : s.store.saving = none) (t : Time) (ok : Bool) :
    exec (.saveWriteEnd t ok) s = .next (s.advance t) := by
  show execSaveWriteEnd t ok s = _
  unfold execSaveWriteEnd
  rw [event_powered hp, h]

theorem exec_saveWriteEnd_some {s : State} (hp : s.powered = true) {n : SlotName} {img : Image}
    (h : s.store.saving = some (n, img)) (t : Time) (ok : Bool) :
    exec (.saveWriteEnd t ok) s = .next ((s.advance t).saveEnded n img ok).finish := by
  show execSaveWriteEnd t ok s = _
  unfold execSaveWriteEnd
  rw [event_powered hp, h]

/-- The end of a save in a part that restarts writes its slot alone (R178, R187). -/
theorem saveEnded_restarting {s : State} (hr : s.AtRest) (hl : s.link.restarting = true) (n : SlotName) (img : Image) (ok : Bool) :
    (s.saveEnded n img ok).finish = State.transmit { s with
      store := { (s.store.setImage n (if ok then some img else none)) with saving := none } } := by
  unfold State.saveEnded
  dsimp only
  rw [complete_restarting (by exact hl), complete_restarting (by exact hl), ite_self]
  exact finish_atRest ⟨hr.reports, hr.granted, hr.work⟩

/-- Settles O29: the snapshot is taken by its definition; the end of a write goes by the slot and its outcome. -/
theorem saveWritesImage : Obligations.SaveWritesImage := by
  intro s hr
  refine ⟨?_, fun t ok hp h => exec_saveWriteEnd_none hp h t ok, fun t img hp h => ?_, fun t img hp h => ?_,
    fun t ok img hp hl => ⟨fun h => ?_, fun h => ?_⟩⟩
  · rintro c i hi ha
    have hc : i.cmd? = some c := by rw [hi]; rfl
    have hb : blockOf i = saveBlock c := by rw [hi]; rfl
    refine ⟨fun h => exec_refused hc hr ha (by rw [hb]; exact saveBlock_busy (s := s.taking i c) h c), ?_⟩
    rintro img h rfl
    refine ⟨rfl, rfl, rfl, fun hn => ?_, fun k hk => ?_, ?_⟩
    · unfold State.snapshot; dsimp only; rw [hn]
    · unfold State.snapshot; dsimp only; rw [hk]; rfl
    · have hrun := saveBlock_begins (s := s.taking i c) h c
      exact exec_replied hc ha (by rw [hb]; exact hrun) ⟨hr.reports, hr.granted, hr.work⟩
  · exact ⟨exec_saveWriteEnd_some hp h t true, exec_saveWriteEnd_some hp h t false⟩
  · exact ⟨exec_saveWriteEnd_some hp h t true, exec_saveWriteEnd_some hp h t false⟩
  · rw [exec_saveWriteEnd_some hp h]
    exact congrArg _ (saveEnded_restarting (s := s.advance t) ⟨hr.reports, hr.granted, hr.work⟩ hl .a img ok)
  · rw [exec_saveWriteEnd_some hp h]
    exact congrArg _ (saveEnded_restarting (s := s.advance t) ⟨hr.reports, hr.granted, hr.work⟩ hl .b img ok)

/-! ### Hold writes (R188) -/

/-- The slot that is current holds a record (R186). -/
theorem currentSlot_valid {a b : Option Nat} : (currentSlot a b = some .a → a ≠ none) ∧ (currentSlot a b = some .b → b ≠ none) := by
  refine ⟨fun h => ?_, fun h => ?_⟩
  · rintro rfl
    cases b <;> exact absurd h (by unfold currentSlot; simp)
  · rintro rfl
    cases a <;> exact absurd h (by unfold currentSlot; simp)

/-- A hold write goes to the slot that is not current, to slot A where none is valid (R186, R188). -/
theorem holdSlot_not_current (k : Store) : (k.hold = none → k.holdSlot = .a) ∧
    ∀ r, k.hold = some r → (k.holdSlot = .a → k.holdB = some r) ∧ (k.holdSlot = .b → k.holdA = some r) := by
  have hv := @currentSlot_valid (k.holdA.map (fun i => i.sequence)) (k.holdB.map (fun i => i.sequence))
  unfold Store.hold Store.holdSlot
  generalize currentSlot (k.holdA.map (fun i => i.sequence)) (k.holdB.map (fun i => i.sequence)) = c at hv
  cases c with
  | none => exact ⟨fun _ => rfl, fun r h => (nomatch h)⟩
  | some n =>
    cases n with
    | a => exact ⟨fun h => hv.1 rfl (congrArg (Option.map _) (show k.holdA = none from h)) |>.elim, fun r h => ⟨fun e => (nomatch e), fun _ => h⟩⟩
    | b => exact ⟨fun h => hv.2 rfl (congrArg (Option.map _) (show k.holdB = none from h)) |>.elim, fun r h => ⟨fun _ => h, fun e => (nomatch e)⟩⟩

/-- The record a hold write carries: the sets as they stand, with the number after that of the current record (R188). -/
theorem requestedRecord_fields (s : State) : s.requestedRecord.latched = s.branches.map (fun b => b.latched) ∧
    s.requestedRecord.maint = s.branches.map (fun b => b.maint) ∧ s.requestedRecord.trunk = s.store.trunkLatch ∧
    (s.store.hold = none → s.requestedRecord.sequence = 1) ∧
    (∀ k, s.store.hold = some k → s.requestedRecord.sequence = (if k.sequence = 65535 then 1 else k.sequence + 1)) := by
  refine ⟨rfl, rfl, rfl, fun h => ?_, fun k h => ?_⟩
  · unfold State.requestedRecord; dsimp only; rw [h]
  · unfold State.requestedRecord; dsimp only; rw [h]; rfl

/-- What a begun write carries and where it goes, read in the state in which it stands (R188). -/
theorem beginHoldWrite_holding (s : State) {x : SlotName} {y : HoldRecord} (h : s.beginHoldWrite.store.holding = some (x, y)) :
    (y.latched = s.branches.map (fun b => b.latched) ∧ y.maint = s.branches.map (fun b => b.maint) ∧
      y.trunk = s.store.trunkLatch) ∧
    (s.beginHoldWrite.store.hold = none → x = .a ∧ y.sequence = 1) ∧
    (∀ k, s.beginHoldWrite.store.hold = some k → y.sequence = (if k.sequence = 65535 then 1 else k.sequence + 1) ∧
      (x = .a → s.beginHoldWrite.store.holdB = some k) ∧ (x = .b → s.beginHoldWrite.store.holdA = some k)) := by
  obtain ⟨rfl, rfl⟩ : s.store.holdSlot = x ∧ s.requestedRecord = y := by simpa [State.beginHoldWrite] using h
  obtain ⟨h1, h2, h3, h4, h5⟩ := requestedRecord_fields s
  obtain ⟨hn, hk⟩ := holdSlot_not_current s.store
  exact ⟨⟨h1, h2, h3⟩, fun e => ⟨hn e, h4 e⟩, fun k e => ⟨h5 k e, hk k e⟩⟩

theorem exec_holdWriteEnd_none {s : State} (hp : s.powered = true) (h : s.store.holding = none) (t : Time) (ok : Bool) :
    exec (.holdWriteEnd t ok) s = .next (s.advance t) := by
  show execHoldWriteEnd t ok s = _
  unfold execHoldWriteEnd
  rw [event_powered hp, h]

theorem exec_holdWriteEnd_some {s : State} (hp : s.powered = true) {n : SlotName} {r : HoldRecord}
    (h : s.store.holding = some (n, r)) (t : Time) (ok : Bool) : exec (.holdWriteEnd t ok) s =
      .next (if ok then (s.advance t).holdWritten n r else (s.advance t).holdFailed n) := by
  show execHoldWriteEnd t ok s = _
  unfold execHoldWriteEnd
  rw [event_powered hp, h]

/-- The store after a hold write that passed its check, before a further one begins (R188). -/
def State.holdStored (s : State) (n : SlotName) (r : HoldRecord) : State :=
  { s with store := { (s.store.setHold n (some r)) with holding := none, furtherDue := false } }

theorem holdWritten_further {s : State} (h : s.store.furtherDue = true) (n : SlotName) (r : HoldRecord) :
    s.holdWritten n r = (s.holdStored n r).beginHoldWrite := by
  unfold State.holdWritten; dsimp only
  rw [if_pos (by cases n <;> exact h)]; rfl

theorem holdWritten_last {s : State} (h : s.store.furtherDue = false) (n : SlotName) (r : HoldRecord) :
    s.holdWritten n r = s.holdStored n r := by
  unfold State.holdWritten; dsimp only
  rw [if_neg (by cases n <;> exact Bool.eq_false_iff.1 h)]
  unfold State.holdStored; cases n <;> rw [← h] <;> rfl

/-- Settles O30: both ends of a write are a store written and, where a write follows, `State.beginHoldWrite` from there. -/
theorem holdWriteEnds : Obligations.HoldWriteEnds := by
  intro s t hp
  refine ⟨fun ok h => exec_holdWriteEnd_none hp h t ok, fun n r h => ?_⟩
  refine ⟨_, _, exec_holdWriteEnd_some hp h t true, exec_holdWriteEnd_some hp h t false, ?_⟩
  rw [if_pos rfl, if_neg Bool.false_ne_true]
  have hv : (s.advance t).holdFailed n = State.beginHoldWrite { s.advance t with store := s.store.setHold n none } := rfl
  have hset (o : Option HoldRecord) : (s.store.setHold n o).trunkLatch = s.store.trunkLatch := by cases n <;> rfl
  rw [hv]
  cases hf : s.store.furtherDue with
  | false =>
    rw [holdWritten_last (s := s.advance t) hf]
    refine ⟨fun e => ?_, fun e => ?_, ?_, ?_, fun _ => rfl, fun x y e => ?_, fun w x y e hxy => ?_, fun e => (nomatch e),
      fun e => (nomatch e), ?_, ?_⟩
    · subst e; exact ⟨rfl, rfl, rfl, rfl⟩
    · subst e; exact ⟨rfl, rfl, rfl, rfl⟩
    · cases n <;> rfl
    · rw [← hf]; cases n <;> rfl
    · have e' := e.resolve_left (fun x => (nomatch x.1))
      obtain ⟨h1, h2, h3⟩ := (beginHoldWrite_holding _ e').1
      exact ⟨h1, h2, h3.trans (hset _)⟩
    · obtain rfl := e.resolve_left (fun x => (nomatch x.2))
      exact (beginHoldWrite_holding _ hxy).2
    · rfl
    · rfl
  | true =>
    rw [holdWritten_further (s := s.advance t) hf]
    refine ⟨fun e => ?_, fun e => ?_, ?_, ?_, fun e => (nomatch e), fun x y e => ?_, fun w x y e hxy => ?_, fun _ e => (nomatch e),
      fun e => (nomatch e), ?_, ?_⟩
    · subst e; exact ⟨rfl, rfl, rfl, rfl⟩
    · subst e; exact ⟨rfl, rfl, rfl, rfl⟩
    · cases n <;> rfl
    · rw [← hf]; cases n <;> rfl
    · rcases e with ⟨-, e⟩ | e
      · obtain ⟨h1, h2, h3⟩ := (beginHoldWrite_holding _ e).1
        exact ⟨h1, h2, h3.trans (hset _)⟩
      · obtain ⟨h1, h2, h3⟩ := (beginHoldWrite_holding _ e).1
        exact ⟨h1, h2, h3.trans (hset _)⟩
    · rcases e with ⟨rfl, -⟩ | rfl
      · exact (beginHoldWrite_holding _ hxy).2
      · exact (beginHoldWrite_holding _ hxy).2
    · rfl
    · rfl

end Sys2Proof.Machine

/-! ## Requesters, reads, meters and discrete lines -/

namespace Sys2Proof.Machine

-- One after another: side by side the proofs of the whole text take more memory than a check may.
set_option Elab.async false

/-! ### What an answer leaves (R176) -/

/-- The transmitter writes the frame it sends and the replies that wait, and nothing else (R183). -/
theorem transmit_leaves {α : Type} (f : State → α) (s : State)
    (hf : ∀ (s : State) r q, f { s with link.replies := r, link.sending := q } = f s := by exact fun _ _ _ => rfl) :
    f s.transmit = f s := by
  unfold State.transmit; repeat' split
  · exact hf s _ _
  · rfl
  · exact hf s s.link.replies _
  · rfl

/-- An answer writes the replies that wait and the frame being sent, and nothing else (R176, R183). -/
theorem replied_leaves {α : Type} (f : State → α) (s : State) (i : Instr) (c : Cmd) (a : Answer)
    (hf : ∀ (s : State) r q, f { s with link.replies := r, link.sending := q } = f s := by exact fun _ _ _ => rfl) :
    f (s.replied i c a) = f s := by
  unfold State.replied State.reply
  rw [transmit_leaves f _ hf]
  split
  · exact hf s _ s.link.sending
  · rfl

/-- An answer of one record, to a command that is always answered. -/
theorem reply_always_answer (s : State) (c : Cmd) (n : Nat) (st : Status) (b : ReplyBody) :
    s.reply .always c n (answer st b) = { s with
      link.replies := s.link.replies ++ [{ dest := c.src, code := n, tag := c.tag, status := st, reason := .none, first := true
                                           more := false, body := b, ofTaken := true }] } := by
  simp [State.reply, replyFrames, answer]

/-! ### IDENTIFY (R169, R185) -/

/-- Settles O43: any station may issue IDENTIFY, and its block only answers. -/
theorem identifyAnswersAnyStation : Obligations.IdentifyAnswersAnyStation := by
  refine ⟨fun s f he hd hc => ?_, ?_⟩
  · simp [State.addressed, he, hd, hc, Config.protocolType, Config.broadcast]
  · rintro s c i rfl hr ht hl
    have hlink : s.linkCheck .anyStation c = none := by simp [State.linkCheck, State.exempt, hl]
    have ha : s.admits (.identify c) c := admits_of_linkCheck ht rfl hlink
    refine (exec_replied rfl ha (t := s.taking (.identify c) c)
      (a := answer .done (.identity ((s.taking (.identify c) c).identity c))) rfl (taking_atRest hr _ c)).trans ?_
    refine congrArg (fun x => Host.Outcome.next (State.transmit x)) ?_
    exact reply_always_answer _ c 26 .done _

/-! ### BIND_REQUESTER and UNBIND_REQUESTER (R172, R173) -/

theorem bindBlock_range {s : State} {addr : Addr} {role : Nat} {br : Option Nat} {mask : Option (BitVec 16)}
    (h : s.bindRole addr role br mask = none) : bindBlock addr role br mask s = s.refuses .range .empty := by
  unfold bindBlock; rw [h]

theorem bindBlock_clash {s : State} {addr : Addr} {role k : Nat} {br : Option Nat} {mask : Option (BitVec 16)} {r : Role}
    (h : s.bindRole addr role br mask = some r) (hc : s.clash addr r br = some k) :
    bindBlock addr role br mask s = s.refuses .busy (.entry k) := by
  unfold bindBlock; rw [h]; dsimp only; rw [hc]

theorem bindBlock_full {s : State} {addr : Addr} {role : Nat} {br : Option Nat} {mask : Option (BitVec 16)} {r : Role}
    (h : s.bindRole addr role br mask = some r) (hc : s.clash addr r br = none) (he : (s.entryOf addr).or s.emptyEntry = none) :
    bindBlock addr role br mask s = s.refuses .busy .noEntry := by
  unfold bindBlock; rw [h]; dsimp only; rw [hc]; dsimp only; rw [he]

theorem bindBlock_binds {s : State} {addr : Addr} {role k : Nat} {br : Option Nat} {mask : Option (BitVec 16)} {r : Role}
    (h : s.bindRole addr role br mask = some r) (hc : s.clash addr r br = none)
    (he : (s.entryOf addr).or s.emptyEntry = some k) :
    bindBlock addr role br mask s = (s.bindEntry k addr r br (mask.getD fullMask), answer .done (.entry k)) := by
  unfold bindBlock; rw [h]; dsimp only; rw [hc]; dsimp only; rw [he]

theorem indexWhere_lt {α : Type} {p : α → Bool} {l : List α} {k : Nat} (h : indexWhere p l 0 = some k) : k < l.length := by
  rw [indexWhere_eq_findIdx?, Option.map_eq_some_iff] at h
  obtain ⟨j, hj, rfl⟩ := h
  exact (List.findIdx?_eq_some_iff_getElem.1 hj).1

/-- A binding goes to an entry of the table (R172). -/
theorem bindEntry_lt {s : State} {addr : Addr} {k : Nat} (h : (s.entryOf addr).or s.emptyEntry = some k) :
    k < s.link.requesters.length := by
  rcases Option.or_eq_some_iff.1 h with h | ⟨-, h⟩
  · exact indexWhere_lt h
  · exact indexWhere_lt h

/-- The branch a binding names is a position of the part (R172). -/
theorem bindRole_branch {s : State} {addr : Addr} {role p : Nat} {mask : Option (BitVec 16)} {r : Role}
    (h : s.bindRole addr role (some p) mask = some r) : p < 24 := by
  unfold State.bindRole at h
  split at h
  · exact nomatch h
  · dsimp only at h
    split at h
    · rename_i hok
      simp only [Bool.and_eq_true, decide_eq_true_eq] at hok
      omega
    · exact nomatch h

theorem setBound_leaves {α : Type} (f : State → α) (s : State) (o : Option Position) (i : Option Nat)
    (hf : ∀ (s : State) p g, f (s.modBr p g) = f s := by exact fun _ _ _ => rfl) : f (s.setBound o i) = f s := by
  unfold State.setBound; split
  · rfl
  · exact hf _ _ _

theorem setBound_br_ne {s : State} {o : Option Position} {p : Position} (h : o ≠ some p) (i : Option Nat) :
    (s.setBound o i).br p = s.br p := by
  unfold State.setBound; split
  · rfl
  · exact modBr_br_ne s _ (fun e => h (congrArg some e))

theorem setBound_br_self {s : State} {p : Position} (h : p < s.branches.length) (i : Option Nat) :
    ((s.setBound (some p) i).br p).boundTo = i := by
  unfold State.setBound
  rw [modBr_br_self s p _ h]

theorem setBound_length (s : State) (o : Option Position) (i : Option Nat) :
    (s.setBound o i).branches.length = s.branches.length := by
  unfold State.setBound; split
  · rfl
  · exact modBr_branches_length s _ _

theorem setRequester_self {s : State} {k : Nat} (h : k < s.link.requesters.length) (r : Option Requester) :
    (s.setRequester k r).requester k = r := by
  unfold State.requester State.setRequester
  simp [List.getD_eq_getElem?_getD, h]

theorem setRequester_ne {s : State} {k m : Nat} (h : m ≠ k) (r : Option Requester) :
    (s.setRequester k r).requester m = s.requester m := by
  unfold State.requester State.setRequester
  simp [List.getD_eq_getElem?_getD, List.getElem?_set_ne (Ne.symm h)]

/-- What a binding writes leaves alone but the requester table and the bound requester fields (R172). -/
theorem bindEntry_leaves {α : Type} (f : State → α) (s : State) (k : Nat) (addr : Addr) (r : Role) (br : Option Nat)
    (m : BitVec 16) (hf : ∀ (s : State) p g, f (s.modBr p g) = f s := by exact fun _ _ _ => rfl)
    (hr : ∀ (s : State) k r, f (s.setRequester k r) = f s := by exact fun _ _ _ => rfl) :
    f (s.bindEntry k addr r br m) = f s := by
  unfold State.bindEntry; dsimp only
  rw [setBound_leaves f _ _ _ hf, setBound_leaves f _ _ _ hf, hr]

theorem bindEntry_requesters (s : State) (k : Nat) (addr : Addr) (r : Role) (br : Option Nat) (m : BitVec 16) :
    (s.bindEntry k addr r br m).link.requesters = s.link.requesters.set k (some
      { addr := addr, role := r, branch := br, mask := m
        telemetry := ((s.requester k).map (fun q => q.telemetry)).getD .off
        number := ((s.requester k).map (fun q => q.number)).getD 0 }) := by
  unfold State.bindEntry; dsimp only
  rw [setBound_leaves (fun s => s.link.requesters), setBound_leaves (fun s => s.link.requesters)]; rfl

/-- The bound requester fields after a binding: the branch named, the branch left, and every other (R6, R172). -/
theorem bindEntry_br {s : State} (h : s.branches.length = 24) (k : Nat) (addr : Addr) (r : Role) (br : Option Nat)
    (m : BitVec 16) {p : Position} :
    (br = some p → p < 24 → ((s.bindEntry k addr r br m).br p).boundTo = some k) ∧
    (∀ q, s.requester k = some q → q.branch = some p → br ≠ some p → p < 24 →
      ((s.bindEntry k addr r br m).br p).boundTo = none) ∧
    (br ≠ some p → (∀ q, s.requester k = some q → q.branch ≠ some p) → (s.bindEntry k addr r br m).br p = s.br p) := by
  unfold State.bindEntry; dsimp only
  refine ⟨fun hb hp => ?_, fun q hq hb hne hp => ?_, fun hne hold => ?_⟩
  · subst hb
    exact setBound_br_self (by rw [setBound_length]; exact h.symm ▸ hp) _
  · rw [setBound_br_ne hne, hq, Option.bind_some, hb]
    exact setBound_br_self (show p < s.branches.length from h.symm ▸ hp) _
  · have hold' : (s.requester k).bind (fun q => q.branch) ≠ some p := by
      cases e : s.requester k with
      | none => exact fun h => (nomatch h)
      | some q => exact hold q e
    rw [setBound_br_ne hne, setBound_br_ne hold']; rfl

theorem bindEntry_atRest {s : State} (h : s.AtRest) (k : Nat) (addr : Addr) (r : Role) (br : Option Nat) (m : BitVec 16) :
    (s.bindEntry k addr r br m).AtRest := by
  have hb := bindEntry_leaves State.bus s k addr r br m
  exact ⟨hb.symm ▸ h.reports, hb.symm ▸ h.granted, (bindEntry_leaves State.work s k addr r br m).trans h.work⟩

theorem unbindBlock_range {s : State} {n : Nat} (h : 31 < n) : unbindBlock n s = s.refuses .range .empty := if_pos h

theorem unbindBlock_empty {s : State} {n : Nat} (h : n ≤ 31) (hr : s.requester n = none) :
    unbindBlock n s = s.refuses .notFound .empty := by
  unfold unbindBlock; rw [if_neg (Nat.not_lt.2 h), hr]

theorem unbindBlock_unbinds {s : State} {n : Nat} {r : Requester} (h : n ≤ 31) (hr : s.requester n = some r) :
    unbindBlock n s = ((s.setRequester n none).setBound r.branch none, answer .done .empty) := by
  unfold unbindBlock; rw [if_neg (Nat.not_lt.2 h), hr]

theorem unbound_atRest {s : State} (h : s.AtRest) (n : Nat) (o : Option Position) :
    ((s.setRequester n none).setBound o none).AtRest := by
  have hb := setBound_leaves State.bus (s.setRequester n none) o none
  exact ⟨hb.symm ▸ h.reports, hb.symm ▸ h.granted, (setBound_leaves State.work (s.setRequester n none) o none).trans h.work⟩

/-- Settles O44: the blocks by their checks; a binding writes one entry, and the branches named and left. -/
theorem bindAndUnbindRequester : Obligations.BindAndUnbindRequester := by
  intro s c ho
  refine ⟨?_, ?_⟩
  · intro addr role br mask i hi ha
    have hc : i.cmd? = some c := by rw [hi]; rfl
    have hb : blockOf i = bindBlock addr role br mask := by rw [hi]; rfl
    refine ⟨fun h => ?_, fun r k h hk => ?_, fun r h hk he hn => ?_, fun r k h hk he => ?_⟩
    · exact exec_refused hc ho.atRest ha (by rw [hb]; exact bindBlock_range (s := s.taking i c) h)
    · exact exec_refused hc ho.atRest ha (by rw [hb]; exact bindBlock_clash (s := s.taking i c) h hk)
    · refine exec_refused hc ho.atRest ha ?_
      rw [hb]; exact bindBlock_full (s := s.taking i c) h hk (show (s.entryOf addr).or s.emptyEntry = none by rw [he, hn]; rfl)
    · have hrun := bindBlock_binds (s := s.taking i c) h hk he
      rw [← hb] at hrun
      have hexec := exec_replied hc ha hrun (bindEntry_atRest (taking_atRest ho.atRest i c) k addr r br _)
      have hlt : k < (s.taking i c).link.requesters.length := bindEntry_lt he
      have hlen : (s.taking i c).branches.length = 24 := ho.sized.branches
      have hreqs : (s.taking i c).requester = s.requester := rfl
      have hbrs : (s.taking i c).br = s.br := rfl
      have hfields : (s.taking i c).bus = s.bus ∧ (s.taking i c).arb = s.arb ∧ (s.taking i c).pol = s.pol ∧
        (s.taking i c).store = s.store := ⟨rfl, rfl, rfl, rfl⟩
      generalize s.taking i c = w at hexec hlt hlen hreqs hbrs hfields ⊢
      have hreq (m : Nat) : ((w.bindEntry k addr r br (mask.getD fullMask)).replied i c (answer .done (.entry k))).requester m =
          (w.setRequester k (some { addr := addr, role := r, branch := br, mask := mask.getD fullMask
                                    telemetry := ((w.requester k).map (fun q => q.telemetry)).getD .off
                                    number := ((w.requester k).map (fun q => q.number)).getD 0 })).requester m := by
        rw [replied_leaves (fun s => s.requester m)]
        exact congrArg (List.getD · m none) (bindEntry_requesters w k addr r br (mask.getD fullMask))
      have hbr (p : Position) := bindEntry_br hlen k addr r br (mask.getD fullMask) (p := p)
      rw [hreqs, hbrs] at hbr
      refine ⟨_, hexec, rfl, ⟨_, (hreq k).trans (setRequester_self hlt _), rfl, rfl, rfl, rfl⟩, fun m hm => ?_,
        fun p hp => ?_, fun q p hq hqb hne hp => ?_, fun p hne hold => ?_, ?_, ?_, ?_, ?_⟩
      · rw [hreq m, setRequester_ne hm, hreqs]
      · rw [replied_leaves (fun s => (s.br p).boundTo)]
        exact (hbr p).1 hp (by subst hp; exact bindRole_branch h)
      · rw [replied_leaves (fun s => (s.br p).boundTo)]
        exact (hbr p).2.1 q hq hqb hne hp
      · rw [replied_leaves (fun s => s.br p)]
        exact (hbr p).2.2 hne hold
      · rw [replied_leaves State.bus, bindEntry_leaves State.bus]; exact hfields.1
      · rw [replied_leaves State.arb, bindEntry_leaves State.arb]; exact hfields.2.1
      · rw [replied_leaves State.pol, bindEntry_leaves State.pol]; exact hfields.2.2.1
      · rw [replied_leaves State.store, bindEntry_leaves State.store]; exact hfields.2.2.2
  · intro n i hi ha
    have hc : i.cmd? = some c := by rw [hi]; rfl
    have hb : blockOf i = unbindBlock n := by rw [hi]; rfl
    refine ⟨fun h => ?_, fun h hr => ?_, fun r h hr => ?_⟩
    · exact exec_refused hc ho.atRest ha (by rw [hb]; exact unbindBlock_range h)
    · exact exec_refused hc ho.atRest ha (by rw [hb]; exact unbindBlock_empty (s := s.taking i c) h hr)
    · exact exec_replied hc ha (by rw [hb]; exact unbindBlock_unbinds (s := s.taking i c) h hr)
        (unbound_atRest (taking_atRest ho.atRest i c) n r.branch)

/-! ### SET_NOTICES and SET_TELEMETRY (R180, R184) -/

/-- The sender's entry is changed where the table holds it. -/
theorem modSender_eq {s : State} {c : Cmd} {k : Nat} {r : Requester} (he : s.entryOf c.src = some k)
    (hr : s.requester k = some r) (f : Requester → Requester) : s.modSender c f = s.setRequester k (some (f r)) := by
  unfold State.modSender; rw [he]; dsimp only; rw [hr]; rfl

theorem setNoticesBlock_range {m : BitVec 16} (h : m.getLsbD 15 = true) (c : Cmd) (s : State) :
    setNoticesBlock c m s = s.refuses .range .empty := if_pos h

theorem setNoticesBlock_sets {s : State} {c : Cmd} {k : Nat} {r : Requester} (he : s.entryOf c.src = some k)
    (hr : s.requester k = some r) {m : BitVec 16} (h : m.getLsbD 15 = false) :
    setNoticesBlock c m s = (s.setRequester k (some { r with mask := m }), answer .done (.mask m)) := by
  unfold setNoticesBlock
  rw [if_neg (by rw [show maskBad m = m.getLsbD 15 from rfl, h]; exact Bool.false_ne_true), modSender_eq he hr]

theorem setTelemetryBlock_range {mode n : Nat} (h : telemetryOf mode n = none) (c : Cmd) (s : State) :
    setTelemetryBlock c mode n s = s.refuses .range .empty := by
  unfold setTelemetryBlock; rw [h]

theorem setTelemetryBlock_sets {s : State} {c : Cmd} {k mode n : Nat} {r : Requester} {asked : Telemetry}
    (he : s.entryOf c.src = some k) (hr : s.requester k = some r) (h : telemetryOf mode n = some asked) :
    setTelemetryBlock c mode n s = (s.setRequester k (some { r with telemetry := (r.telemetry.judge asked).1 }),
      answer (r.telemetry.judge asked).2 .empty) := by
  have hs : s.sender c = some r := by unfold State.sender; rw [he]; exact hr
  unfold setTelemetryBlock; rw [h]; dsimp only; rw [hs]; dsimp only; rw [modSender_eq he hr]

/-- A mode that is not known, or a count out of its range, asks for nothing (R184). -/
theorem telemetryOf_none {mode n : Nat} (h : 3 < mode ∨ (mode = 3 ∧ (n = 0 ∨ 255 < n))) : telemetryOf mode n = none := by
  rcases h with h | ⟨rfl, h⟩
  · obtain ⟨k, rfl⟩ : ∃ k, mode = k + 4 := ⟨mode - 4, by omega⟩
    rfl
  · have hr : inRange 1 255 n = false := inRange_false.2 (by omega)
    show (if inRange 1 255 n then _ else _) = _
    rw [hr]; rfl

theorem telemetryOf_counted {n : Nat} (h1 : 1 ≤ n) (h2 : n ≤ 255) : telemetryOf 3 n = some (.counted n) :=
  if_pos (inRange_iff.2 ⟨h1, h2⟩)

theorem setRequester_atRest {s : State} (h : s.AtRest) (k : Nat) (r : Option Requester) : (s.setRequester k r).AtRest :=
  ⟨h.reports, h.granted, h.work⟩

/-- Settles O45: both blocks write the sender's entry; the mode held and the mode asked for are judged case by case. -/
theorem setNoticesAndTelemetry : Obligations.SetNoticesAndTelemetry := by
  intro s c k r hr he hk
  refine ⟨fun mask i hi ha => ?_, fun mode n i hi ha => ?_⟩
  · have hc : i.cmd? = some c := by rw [hi]; rfl
    have hb : blockOf i = setNoticesBlock c mask := by rw [hi]; rfl
    refine ⟨fun h => exec_refused hc hr ha (by rw [hb]; exact setNoticesBlock_range h c _), fun h => ?_⟩
    exact exec_replied hc ha (by rw [hb]; exact setNoticesBlock_sets (s := s.taking i c) he hk h)
      (setRequester_atRest (taking_atRest hr i c) k _)
  · have hc : i.cmd? = some c := by rw [hi]; rfl
    have hb : blockOf i = setTelemetryBlock c mode n := by rw [hi]; rfl
    refine ⟨fun h => exec_refused hc hr ha (by rw [hb]; exact setTelemetryBlock_range (telemetryOf_none h) c _),
      fun x st h => ?_⟩
    have sets {asked : Telemetry} (ht : telemetryOf mode n = some asked) (hj : r.telemetry.judge asked = (x, st)) :
        exec i s = .next (((s.taking i c).setRequester k (some { r with telemetry := x })).replied i c (answer st .empty)) := by
      refine exec_replied hc ha ?_ (setRequester_atRest (taking_atRest hr i c) k _)
      have hrun := setTelemetryBlock_sets (s := s.taking i c) he hk ht
      rw [hj] at hrun
      rw [hb]; exact hrun
    rcases h with ⟨rfl, rfl, rfl⟩ | ⟨rfl, rfl, rfl⟩ | ⟨rfl, hh, rfl, rfl⟩ | ⟨rfl, hh, rfl, rfl⟩ | ⟨rfl, h1, h2, hh, rfl, rfl⟩ |
      ⟨rfl, h1, h2, hh, rfl, rfl⟩
    · exact sets rfl (by cases r.telemetry <;> rfl)
    · exact sets rfl (by cases r.telemetry <;> rfl)
    · exact sets rfl (by rcases hh with e | e <;> rw [e] <;> rfl)
    · exact sets rfl (by rcases hh with e | ⟨m, e⟩ <;> rw [e] <;> rfl)
    · exact sets (telemetryOf_counted h1 h2) (by rcases hh with e | ⟨m, e⟩ <;> rw [e] <;> rfl)
    · exact sets (telemetryOf_counted h1 h2) (by rcases hh with e | e <;> rw [e] <;> rfl)

/-! ### RESTART and the reads (R177, R192) -/

/-- Settles O46: the mark of a RESTART stands through its answer, and shuts the link. -/
theorem restartShutsTheLink : Obligations.RestartShutsTheLink := by
  rintro s c i hi hr ha
  have hc : i.cmd? = some c := by rw [hi]; rfl
  have hb : blockOf i = restartBlock := by rw [hi]; rfl
  refine ⟨_, exec_replied hc ha (t := { s.taking i c with link.restarting := true }) (by rw [hb]; rfl)
    ⟨hr.reports, hr.granted, hr.work⟩, rfl, ?_⟩
  unfold State.linkReady
  rw [replied_leaves (fun s => s.link.restarting)]
  simp

/-- A read is answered and changes nothing else (R177). -/
theorem exec_read {s : State} {i : Instr} {c : Cmd} {a : Answer} (hc : i.cmd? = some c) (hr : s.AtRest) (ha : s.admits i c)
    (hb : blockOf i (s.taking i c) = (s.taking i c, a)) : exec i s = .next ((s.taking i c).replied i c a) :=
  exec_replied hc ha hb (taking_atRest hr i c)

theorem readAnswer_list {α : Type} (l : List α) (f : List α → ReplyBody) :
    readAnswer (if l.isEmpty then [] else [f l]) = answer .done (if l = [] then .empty else f l) := by
  cases l <;> rfl

/-- Settles O47: every block of a read leaves the state and answers from it. -/
theorem readsChangeNothing : Obligations.ReadsChangeNothing := by
  intro s c hr
  refine ⟨?_, ?_, ?_, ?_, ?_, ?_, ?_, ?_, ?_, ?_, ?_, ?_, ?_⟩
  · rintro i u rfl ha rfl; exact exec_read rfl hr ha rfl
  · rintro i u rfl ha rfl; exact exec_read rfl hr ha rfl
  · rintro i u rfl ha rfl
    refine (exec_read rfl hr ha rfl).trans ?_
    rw [readAnswer_list]
    unfold State.pendingView
    simp only [List.map_eq_nil_iff]
  · rintro i u rfl ha rfl; exact exec_read rfl hr ha rfl
  · rintro i u rfl ha rfl; exact exec_read rfl hr ha rfl
  · rintro i n rfl ha hn
    obtain ⟨k, rfl⟩ : ∃ k, n = k + 2 := ⟨n - 2, by omega⟩
    exact exec_refused rfl hr ha rfl
  · rintro i u rfl ha rfl; exact exec_read rfl hr ha rfl
  · rintro i u rfl ha rfl; exact exec_read rfl hr ha rfl
  · rintro i u rfl ha rfl; exact exec_read rfl hr ha rfl
  · rintro i u rfl ha rfl
    refine (exec_read rfl hr ha rfl).trans ?_
    rw [readAnswer_list]
  · rintro i u rfl ha rfl; exact exec_read rfl hr ha rfl
  · rintro i u rfl ha rfl; exact exec_read rfl hr ha rfl
  · rintro i u rfl ha rfl; exact exec_read rfl hr ha rfl

/-! ### Meter pulses (R94) -/

/-- Settles O49: meters 0–23 are the supply meters, 24–47 the return meters. -/
theorem meterPulseCounts : Obligations.MeterPulseCounts := by
  intro s t p hs hp
  constructor
  · show execMeterPulse t p s = _
    unfold execMeterPulse
    rw [unitEvent_powered (decide_eq_true (Nat.le_trans (Nat.le_of_lt hp) (by decide))) hs, if_pos hp]; rfl
  · show execMeterPulse t (p + 24) s = _
    unfold execMeterPulse
    rw [unitEvent_powered (decide_eq_true (Nat.add_le_add_right (Nat.le_of_lt_succ hp) 24)) hs,
      if_neg (Nat.not_lt.2 (Nat.le_add_left 24 p)), Nat.add_sub_cancel]; rfl

/-! ### Discrete lines (R147, R172) -/

theorem exec_lineDebounceExpiry {s : State} (h : s.powered = true) (n : LineName) : exec (.lineDebounceExpiry n) s =
    .next (match n with
      | .hall => s.atDeadline s.hall.deadline State.hallSettled
      | .commissioning => s.atDeadline s.commissioning.deadline (fun s => { s with commissioning := s.commissioning.settle })) := by
  show execLineDebounceExpiry n s = _
  unfold execLineDebounceExpiry
  rw [event_powered h] <;> rfl

/-- The hall line settles with an asserting edge under its enable, which makes a RACK request (R147). -/
theorem hallSettled_edge {s : State} (he : s.pol.active.supply.hallEnable = true)
    (hd : s.hall.debounced ≠ s.pol.active.supply.hallPolarity) (hl : s.hall.level = s.pol.active.supply.hallPolarity) :
    s.hallSettled = (State.takeRack { s with hall := s.hall.settle } .hallLine []).finish := by
  unfold State.hallSettled; dsimp only
  rw [if_pos]
  simp [State.hallAsserted, Pin.settle, he, hd, hl]

theorem hallSettled_quiet {s : State} (h : s.pol.active.supply.hallEnable = false ∨
    s.hall.debounced = s.pol.active.supply.hallPolarity ∨ s.hall.level ≠ s.pol.active.supply.hallPolarity) :
    s.hallSettled = { s with hall := s.hall.settle } := by
  unfold State.hallSettled; dsimp only
  rw [if_neg]
  rcases h with h | h | h
  · simp [h]
  · simp [State.hallAsserted, h]
  · simp [State.hallAsserted, Pin.settle, h]

/-- Settles O56: a level is recorded by `Pin.change` and taken by `Pin.settle`. -/
theorem linesDebounce : Obligations.LinesDebounce := by
  intro s t l w hw
  have hchange (x : Pin) : x.change (max s.now t) l s.powered = w x := by
    rw [hw]; unfold Pin.change; dsimp only
    simp only [Bool.and_eq_true, decide_eq_true_eq]
    rfl
  refine ⟨?_, ?_, fun d hs hd => ?_, fun hs hd => ?_, fun hs hd => ?_, fun d v hs hd hv => ?_⟩
  · rw [← hchange]; rfl
  · rw [← hchange]; rfl
  · rw [exec_lineDebounceExpiry hs]; dsimp only; rw [hd]; rfl
  · rw [exec_lineDebounceExpiry hs]; dsimp only; rw [hd]; rfl
  · rw [exec_lineDebounceExpiry hs]; dsimp only; rw [hd]; rfl
  · have hexec : exec (.lineDebounceExpiry .hall) s = .next (s.advance d).hallSettled := by
      rw [exec_lineDebounceExpiry hs]; dsimp only; rw [hd]; rfl
    rw [hexec, hv]
    exact ⟨fun h1 h2 h3 => congrArg _ (hallSettled_edge (s := s.advance d) h1 h2 h3),
      fun h => congrArg _ (hallSettled_quiet (s := s.advance d) h)⟩

end Sys2Proof.Machine

/-! ## The valve bus (chapter 4), channels masked (R121, R122) and drills started (R124) -/

namespace Sys2Proof.Machine

-- One after another: side by side the proofs of the whole text take more memory than a check may.
set_option Elab.async false

/-! ### The end of an event after which nothing follows the pass (R31, R176) -/

/-- A block that leaves the part with the same `State.still` concludes with it; notices of the event may wait. -/
theorem concluded_still_of {v u : State} (hw : v.work.after = []) (hv : v.Sound true true) (hu : u.still = v.still)
    (hs : v.Sound true true → u.Sound true true) (i : Instr) (c : Cmd) (a : Answer) : (u.concluded i c a).still = v.still :=
  ((((State.Calm.refl hv).quiet hu hs).quiet (reply_still u i.answering c i.code a) (reply_sound _ _ _ _)).finish hw).kept

/-- The end of an event goes onward from where its work began. -/
theorem finish_frozen {b s : State} {g : Bool} (h : State.Onward g b s) : s.finish.frozen = b.frozen := h.finish.1.kept

/-- A block that goes onward concludes onward. -/
theorem concluded_frozen {b s : State} {g : Bool} (h : State.Onward g b s) (i : Instr) (c : Cmd) (a : Answer) :
    (s.concluded i c a).frozen = b.frozen :=
  finish_frozen (h.quiet (reply_still _ _ _ _ _) (reply_sound _ _ _ _))

/-! ### Flow control and the reports of its moves (R104) -/

theorem branchOf_supplyOf {p : Position} (h : p < 24) : branchOf (supplyOf p) = some p := if_pos h

theorem branchOf_returnOf {p : Position} (h : p < 24) : branchOf (returnOf p) = some p := by
  unfold branchOf returnOf
  rw [if_neg (Nat.not_lt.2 (Nat.le_add_left 24 p)), if_pos (Nat.add_lt_add_right h 24), Nat.add_sub_cancel]

/-- The actuators of a branch are its own (R66). -/
theorem branchOf_own {a : ActuatorNo} {p : Position} (h : p < 24) (ha : a = supplyOf p ∨ a = returnOf p) : branchOf a = some p := by
  rcases ha with rfl | rfl
  · exact branchOf_supplyOf h
  · exact branchOf_returnOf h

theorem returnOf_ne_supplyOf (p : Position) : returnOf p ≠ supplyOf p := by
  unfold returnOf supplyOf
  exact Nat.ne_of_gt (Nat.lt_add_of_pos_right (by decide))

/-- What flow control does with a report, for an actuator of a branch (R104). -/
theorem flowReport_eq {a : ActuatorNo} {p : Position} (h : branchOf a = some p) (s : State) (k : ReportKind) :
    s.flowReport a k = match k with
      | .complete => s
      | .failed _ => s.markFault p .valveFault none
      | .superseded => s
      | .aborted => match s.flowTarget p a with
          | some t => if (s.act a).reservedBy = 0 then s.placeFlow a t else s
          | none => s
      | .refusedReserved => s
      | .drift => match (s.act a).target with
          | some t => (s.markFault p .valveFault none).placeFlow a t
          | none => s.markFault p .valveFault none
      | .noReply => s.markFault p .valveFault none := by
  unfold State.flowReport; rw [h] <;> rfl

/-- After ABORTED flow control sends an actuator again where its branch has a place for it, unless a job has reserved it. -/
theorem flowReport_aborted {a : ActuatorNo} {p : Position} (h : branchOf a = some p) {s : State} {t : Nat}
    (ht : s.flowTarget p a = some t) (hr : (s.act a).reservedBy = 0) : s.flowReport a .aborted = s.placeFlow a t := by
  rw [flowReport_eq h]; dsimp only; rw [ht]; exact if_pos hr

theorem flowReport_aborted_none {a : ActuatorNo} {p : Position} (h : branchOf a = some p) {s : State}
    (ht : s.flowTarget p a = none) : s.flowReport a .aborted = s := by
  rw [flowReport_eq h]; dsimp only; rw [ht]

theorem flowReport_aborted_reserved {a : ActuatorNo} {p : Position} (h : branchOf a = some p) {s : State}
    (hr : (s.act a).reservedBy ≠ 0) : s.flowReport a .aborted = s := by
  rw [flowReport_eq h]; dsimp only; split
  · exact if_neg hr
  · rfl

/-- VALVE_FAULT is marked on the branch, and neither arbiter nor bus is touched (R5). -/
theorem markFault_valve {s : State} {p : Position} (h : p < s.branches.length) :
    ((s.markFault p .valveFault none).br p).valveFault = true ∧ (s.markFault p .valveFault none).arb = s.arb ∧
    (s.markFault p .valveFault none).bus = s.bus := by
  unfold State.markFault; dsimp only; split
  · rename_i hv; exact ⟨hv, rfl, rfl⟩
  · refine ⟨?_, rfl, rfl⟩
    exact congrArg Branch.valveFault (modBr_br_self s p _ h)

/-- Settles O55: the table of R104, row by row. -/
theorem flowControlActsOnReports : Obligations.FlowControlActsOnReports := by
  intro s p a hp ha
  have h := branchOf_own hp ha
  refine ⟨flowReport_eq h s .complete, flowReport_eq h s .superseded, flowReport_eq h s .refusedReserved,
    fun f => flowReport_eq h s (.failed f), flowReport_eq h s .noReply, fun q hq => ?_, flowReport_aborted_reserved h,
    fun hr => ⟨fun q hs ha' hq => ?_, fun hs ha' => ?_, fun hs => ?_, fun hs => ?_⟩,
    fun hz => markFault_valve (hz.branches.symm ▸ hp)⟩
  · rw [flowReport_eq h]; dsimp only; rw [hq]
  · refine flowReport_aborted h ?_ hr
    unfold State.flowTarget; rw [hs]; exact (if_pos ha').trans hq
  · refine flowReport_aborted h ?_ hr
    unfold State.flowTarget; rw [hs]; exact if_neg (fun e => returnOf_ne_supplyOf p (ha'.symm.trans e))
  · refine flowReport_aborted h ?_ hr
    unfold State.flowTarget
    rcases hs with e | e <;> rw [e]
  · refine flowReport_aborted_none h ?_
    unfold State.flowTarget
    rcases hs with e | e | e <;> rw [e]

/-! ### Replies (R67, R69) -/

theorem recheckValveFault_bus (s : State) (a : ActuatorNo) : (s.recheckValveFault a).bus = s.bus := by
  unfold State.recheckValveFault; repeat' split
  all_goals rfl

/-- A valid reply is written into the shadow (R67). -/
theorem hear_act {s : State} {a : ActuatorNo} (h : a < s.bus.actuators.length) (q : Nat) (f : ActuatorFlags) :
    (s.hear a q f).act a = { s.act a with
      present := true, position := some q, flags := f, target := some ((s.act a).target.getD q)
      fault := if (s.act a).fault = .noReply then .none else (s.act a).fault } := by
  have e (t : State) : (t.recheckValveFault a).act a = t.act a := by
    unfold State.act; rw [recheckValveFault_bus]
  unfold State.hear
  rw [e, modAct_act_self s a _ h]

theorem exec_valveReply {s : State} (h : s.powered = true) (t : Time) (r : ValveReply) : exec (.valveReply t r) s =
    .next (match s.bus.line with
      | .busy x => (s.advance t).replyArrives r x
      | .free => s.advance t
      | .stopping => s.advance t) := by
  show execValveReply t r s = _
  unfold execValveReply
  rw [event_powered h] <;> rfl

theorem exec_valveReplyTimeout {s : State} (h : s.powered = true) : exec .valveReplyTimeout s =
    .next (match s.bus.line with
      | .busy x => (s.advance (x.sentAt + Config.replyWait)).attemptFailed x
      | .free => s
      | .stopping => s) := by
  show execValveReplyTimeout s = _
  unfold execValveReplyTimeout
  rw [event_powered h] <;> rfl

theorem replyArrives_valid {s : State} {r : ValveReply} {x : Transaction} (hc : r.checkOk = true) (ha : r.actuator = x.actuator) :
    s.replyArrives r x = ((s.hear x.actuator r.position r.flags).answered x r.position r.flags).finishLine :=
  if_pos (by simp [ValidReply, hc, ha])

theorem replyArrives_invalid {s : State} {r : ValveReply} {x : Transaction} (h : r.checkOk = false ∨ r.actuator ≠ x.actuator) :
    s.replyArrives r x = s.attemptFailed x :=
  if_neg (by rcases h with e | e <;> simp [ValidReply, e])

/-- The first attempt that fails is sent again at once (R69). -/
theorem attemptFailed_again {s : State} (hr : s.AtRest) {x : Transaction} (h : x.attempt = 1) :
    s.attemptFailed x = State.transmit { s.modAct x.actuator (fun y => { y with lastTx := some s.now }) with
      bus.line := .busy { x with attempt := 2, sentAt := s.now } } := by
  have hbusy : (s.sendRequest x.actuator x.request 2).AtRest := ⟨hr.reports, Or.inl (fun e => (nomatch e)), hr.work⟩
  unfold State.attemptFailed
  rw [if_pos h, finish_atRest hbusy]; rfl

theorem attemptFailed_lost {s : State} {x : Transaction} (h : x.attempt ≠ 1) :
    s.attemptFailed x = ((s.unheard x.actuator).unanswered x).finishLine := if_neg h

/-- Settles O57: a reply is heard, or the attempt has failed; so has it where the reply stays out. -/
theorem repliesUpdateShadows : Obligations.RepliesUpdateShadows := by
  intro s t r ho hs
  refine ⟨fun hline => ⟨?_, ?_⟩, fun x hx hlt => ⟨fun hc ha => ?_, fun h again hagain => ?_, fun h lost hlost => ?_⟩⟩
  · rw [exec_valveReply hs]
    cases e : s.bus.line with
    | busy x => exact absurd e (hline x)
    | free => rfl
    | stopping => rfl
  · rw [exec_valveReplyTimeout hs]
    cases e : s.bus.line with
    | busy x => exact absurd e (hline x)
    | free => rfl
    | stopping => rfl
  · have hact := hear_act (s := s.advance t) (a := x.actuator)
      (show x.actuator < s.bus.actuators.length from ho.sized.actuators.symm ▸ hlt) r.position r.flags
    rw [exec_valveReply hs, hx, hact]; dsimp only
    exact ⟨rfl, rfl, rfl, congrArg _ (replyArrives_valid hc ha)⟩
  · have rest (d : Time) : (s.advance d).AtRest := ⟨ho.atRest.reports, ho.atRest.granted, ho.atRest.work⟩
    refine ⟨fun hbad => ?_, ?_⟩
    · rw [exec_valveReply hs, hx, hagain]; dsimp only
      rw [replyArrives_invalid hbad, attemptFailed_again (rest t) h]; rfl
    · rw [exec_valveReplyTimeout hs, hx, hagain]; dsimp only
      rw [attemptFailed_again (rest _) h]; rfl
  · refine ⟨fun hbad => ?_, ?_⟩
    · rw [exec_valveReply hs, hx, hlost]; dsimp only
      rw [replyArrives_invalid hbad, attemptFailed_lost h]; rfl
    · rw [exec_valveReplyTimeout hs, hx, hlost]; dsimp only
      rw [attemptFailed_lost h]; rfl

/-! ### Timers and polls (R76–R79, R83) -/

theorem report_act (s : State) (c : Client) (b : ActuatorNo) (k : ReportKind) (a : ActuatorNo) :
    (s.report c b k).act a = s.act a := by
  unfold State.report; split <;> rfl

/-- A move that fails leaves its actuator IDLE with its fault code, and its commanded target (R77, R78). -/
theorem failMove_act {s : State} {a : ActuatorNo} {m : Move} (hm : (s.act a).move = some m) (h : a < s.bus.actuators.length)
    (f : FaultCode) : (s.failMove a f).act a = { s.act a with fault := f, moving := false, move := none } := by
  have h1 := modAct_act_self s a (fun x => { x with fault := f }) h
  have hlen : a < (s.modAct a (fun x => { x with fault := f })).bus.actuators.length := by
    simpa [State.modAct] using h
  unfold State.failMove
  rw [if_pos (by rw [hm]; rfl)]
  unfold State.endMove
  rw [h1]; dsimp only; rw [hm]; dsimp only
  rw [report_act]
  exact (modAct_act_self _ a _ hlen).trans (by rw [h1])

section

variable {s : State} {a : ActuatorNo}

theorem exec_startTimerExpiry (ha : a < 50) (h : s.powered = true) : exec (.startTimerExpiry a) s =
    .next (match (s.act a).move with
      | none => s
      | some m => s.atDeadline m.startTimer (fun s => (s.startTimerOut a m).finish)) := by
  show execStartTimerExpiry a s = _
  unfold execStartTimerExpiry
  rw [unitEvent_powered (decide_eq_true (Nat.le_of_lt_succ ha)) h] <;> rfl

theorem exec_moveTimerExpiry (ha : a < 50) (h : s.powered = true) : exec (.moveTimerExpiry a) s =
    .next (match (s.act a).move with
      | none => s
      | some m => ((s.advance m.moveTimer).failMove a .stall).finish) := by
  show execMoveTimerExpiry a s = _
  unfold execMoveTimerExpiry
  rw [unitEvent_powered (decide_eq_true (Nat.le_of_lt_succ ha)) h] <;> rfl

theorem exec_trackingPollDue (ha : a < 50) (h : s.powered = true) {x : Time} (hx : (s.act a).lastTx = some x) :
    exec (.trackingPollDue a) s = .next ((s.advance (x + 100)).trackingDue a).finish := by
  show execTrackingPollDue a s = _
  unfold execTrackingPollDue
  rw [unitEvent_powered (decide_eq_true (Nat.le_of_lt_succ ha)) h, hx]; rfl

theorem exec_idlePollDue (ha : a < 50) (h : s.powered = true) {x : Time} (hx : (s.act a).lastTx = some x) :
    exec (.idlePollDue a) s = .next ((s.advance (x + 5000)).idleDue a).finish := by
  show execIdlePollDue a s = _
  unfold execIdlePollDue
  rw [unitEvent_powered (decide_eq_true (Nat.le_of_lt_succ ha)) h, hx]; rfl

theorem exec_stopSent (h : s.powered = true) (hl : s.bus.line = .stopping) (t : Time) :
    exec (.stopSent t) s = .next (s.advance t).stopGone := by
  show execStopSent t s = _
  unfold execStopSent
  rw [event_powered h, if_pos hl]

theorem stopGone_eq {k : Clearing} (h : s.bus.clearing = some k) : s.stopGone =
    State.finish { s with bus.line := .free, bus.clearing := if k.polls.isEmpty then none else some k } := by
  unfold State.stopGone; rw [h]

theorem trackingDue_waits (hm : (s.act a).moving = true) (hv : (s.act a).move ≠ none) (ht : s.bus.trackDue.contains a = false)
    (hl : s.lineOn a = false) : s.trackingDue a = { s with bus.trackDue := s.bus.trackDue ++ [a] } := by
  unfold State.trackingDue
  rw [if_pos (by rw [hm, ht, hl, Option.isSome_iff_ne_none.2 hv]; rfl)]

theorem idleDue_polls (hm : (s.act a).moving = false) (hv : (s.act a).move = none) (hc : s.bus.clearing = none)
    (hl : s.lineOn a = false) : s.idleDue a = s.placePoll a false := by
  unfold State.idleDue; rw [hc]
  rw [if_neg (by simp [hm, hv, hl])]

end

/-- Settles O58: a start timer by the mark of the move, a move timer by `failMove`, the polls and the STOP by their rules. -/
theorem valveTimersEndMoves : Obligations.ValveTimersEndMoves := by
  intro s a ho hs ha
  have hlen : a < s.bus.actuators.length := ho.sized.actuators.symm ▸ ha
  have rest (d : Time) : (s.advance d).AtRest := ⟨ho.atRest.reports, ho.atRest.granted, ho.atRest.work⟩
  have onward (d : Time) : State.Onward true (s.advance d) (s.advance d) :=
    State.Onward.refl (m := true) (ho.sound.of_same rfl rfl)
  refine ⟨fun h => ⟨?_, ?_⟩, fun m hm => ⟨fun d hd hst => ?_, fun d u hd hst hu => ?_, fun u hu => ?_⟩,
    fun x hx => ⟨fun h1 h2 h3 h4 => ?_, fun h1 h2 h3 h4 => ?_⟩, fun t k hl hk hp => ?_, fun t k hl hk hp => ?_⟩
  · rw [exec_startTimerExpiry ha hs, h]
  · rw [exec_moveTimerExpiry ha hs, h]
  · rw [exec_startTimerExpiry ha hs, hm]; dsimp only
    rw [hd]
    show Host.Outcome.next (State.finish (State.startTimerOut _ _ _)) = _
    unfold State.startTimerOut
    rw [if_pos hst]
    exact congrArg _ (finish_atRest ⟨ho.atRest.reports, ho.atRest.granted, ho.atRest.work⟩)
  · have hact := failMove_act (s := s.advance d) hm hlen .missedStart
    rw [← hu] at hact
    rw [hact]
    refine ⟨rfl, rfl, rfl, rfl, u.finish, ?_, rfl, ?_⟩
    · rw [exec_startTimerExpiry ha hs, hm]; dsimp only
      rw [hd, hu]
      show Host.Outcome.next (State.finish (State.startTimerOut _ _ _)) = _
      unfold State.startTimerOut
      rw [if_neg (by rw [hst]; exact Bool.false_ne_true)]
    · rw [hu]; exact finish_frozen ((onward d).failMove a .missedStart)
  · have hact := failMove_act (s := s.advance m.moveTimer) hm hlen .stall
    rw [← hu] at hact
    rw [hact]
    refine ⟨rfl, rfl, rfl, rfl, u.finish, ?_, rfl, ?_⟩
    · rw [exec_moveTimerExpiry ha hs, hm, hu]
    · rw [hu]; exact finish_frozen ((onward _).failMove a .stall)
  · rw [exec_trackingPollDue ha hs hx]
    exact congrArg (fun x => Host.Outcome.next (State.finish x)) (trackingDue_waits (s := s.advance (x + 100)) h1 h2 h3 h4)
  · rw [exec_idlePollDue ha hs hx]
    exact congrArg (fun x => Host.Outcome.next (State.finish x)) (idleDue_polls (s := s.advance (x + 5000)) h1 h2 h3 h4)
  · rw [exec_stopSent hs hl, stopGone_eq (s := s.advance t) hk, if_neg (by simpa using hp), ← hk]; rfl
  · rw [exec_stopSent hs hl, stopGone_eq (s := s.advance t) hk, if_pos (by rw [hp]; rfl)]

/-! ### Masking and unmasking (R121, R122) -/

theorem maskBlock_range {ch : ChannelNo} (h : 33 < ch) (s : State) : maskBlock ch s = s.refuses .range .empty := if_pos h

theorem maskBlock_isolating {s : State} {ch : ChannelNo} (h : ch ≤ 33) (he : s.inOpenEvidence ch = true) :
    maskBlock ch s = s.refuses .isolating .empty := (if_neg (Nat.not_lt.2 h)).trans (if_pos he)

theorem maskBlock_again {s : State} {ch : ChannelNo} (h : ch ≤ 33) (he : s.inOpenEvidence ch = false)
    (hm : (s.chan ch).state = .masked) : maskBlock ch s = (s, answer .doneWarn .empty) :=
  (if_neg (Nat.not_lt.2 h)).trans ((if_neg (by rw [he]; exact Bool.false_ne_true)).trans (if_pos hm))

theorem maskBlock_masks {s : State} {ch : ChannelNo} (h : ch ≤ 33) (he : s.inOpenEvidence ch = false)
    (hm : (s.chan ch).state ≠ .masked) : maskBlock ch s = (s.maskChannel ch, answer .done .empty) :=
  (if_neg (Nat.not_lt.2 h)).trans ((if_neg (by rw [he]; exact Bool.false_ne_true)).trans (if_neg hm))

theorem unmaskBlock_range {ch : ChannelNo} (h : 33 < ch) (s : State) : unmaskBlock ch s = s.refuses .range .empty := if_pos h

theorem unmaskBlock_again {s : State} {ch : ChannelNo} (h : ch ≤ 33) (hm : (s.chan ch).state ≠ .masked) :
    unmaskBlock ch s = (s, answer .doneWarn .empty) := (if_neg (Nat.not_lt.2 h)).trans (if_pos hm)

theorem unmaskBlock_unmasks {s : State} {ch : ChannelNo} (h : ch ≤ 33) (hm : (s.chan ch).state = .masked) :
    unmaskBlock ch s = (s.unmaskChannel ch, answer .done .empty) :=
  (if_neg (Nat.not_lt.2 h)).trans (if_neg (not_not_intro hm))

/-- The guards are derived from what the work of an event does not touch (R8). -/
theorem deriveGuards_work (w : Work) (ps : List Position) :
    ∀ s : State, State.deriveGuards { s with work := w } ps = { s.deriveGuards ps with work := w } := by
  unfold State.deriveGuards
  induction ps with
  | nil => exact fun s => rfl
  | cons p ps ih => exact fun s => ih (s.deriveGuard p)

theorem deriveGuards_after (s : State) (ps : List Position) : (s.deriveGuards ps).work.after = s.work.after :=
  forEach_leaves (fun s => s.work.after) State.deriveGuard (fun _ _ => rfl) ps s

theorem deriveGuards_sound {g m : Bool} {s : State} (ps : List Position) (h : s.Sound g m) : (s.deriveGuards ps).Sound g m :=
  forEach_sound _ h (fun _ _ h => modBr_sound _ _ h)

/-- After a channel change the guards are derived anew, and the pass that may follow leaves what `State.still` keeps (R9,
R123). -/
theorem rederive_still (s : State) (cs : List ChannelNo) : (s.rederive cs).still = (s.deriveGuards (s.watchedBy cs)).still := by
  unfold State.rederive; dsimp only; split
  · exact pass_still _ _ _
  · rfl

theorem rederive_sound {g m : Bool} {s : State} (cs : List ChannelNo) (h : s.Sound g m) : (s.rederive cs).Sound g m := by
  unfold State.rederive; dsimp only; split
  · exact pass_sound _ _ (deriveGuards_sound _ h)
  · exact deriveGuards_sound _ h

/-- The end of an event that changed a channel, told of it and derived the guards (R120, R123). -/
theorem rederive_concluded {v : State} (hv : v.Sound true true) (hw : v.work.after = []) (n : Notice) (ch : ChannelNo)
    (i : Instr) (c : Cmd) (a : Answer) :
    (((v.notify n).rederive [ch]).concluded i c a).still = (v.deriveGuards (v.watchedBy [ch])).still := by
  have hstill : ((v.notify n).rederive [ch]).still = (v.deriveGuards (v.watchedBy [ch])).still := by
    rw [rederive_still]
    refine (congrArg State.still (deriveGuards_work (v.notify n).work _ v)).trans (still_work _ _ ?_)
    exact (deriveGuards_after v _).symm
  have hwork : (v.deriveGuards (v.watchedBy [ch])).work.after = [] := (deriveGuards_after v _).trans hw
  exact concluded_still_of hwork (deriveGuards_sound _ hv) hstill (fun _ => rederive_sound _ (notify_sound n hv)) i c a

/-- Settles O37: masking and unmasking write the channel and the mask set, and derive the guards of what the channel
watches. -/
theorem maskAndUnmaskChannel : Obligations.MaskAndUnmaskChannel := by
  intro s c ch ho
  refine ⟨fun i hi ha => ?_, fun i hi ha => ?_⟩
  · have hc : i.cmd? = some c := by rw [hi]; rfl
    have hb : blockOf i = maskBlock ch := by rw [hi]; rfl
    refine ⟨fun h => exec_refused hc ho.atRest ha (by rw [hb, maskBlock_range h]),
      fun h he => exec_refused hc ho.atRest ha (by rw [hb]; exact maskBlock_isolating (s := s.taking i c) h he),
      fun h he hm => exec_read hc ho.atRest ha (by rw [hb]; exact maskBlock_again (s := s.taking i c) h he hm),
      fun v h he hm hv => ?_⟩
    have hexec := exec_concluded hc ha ((congrFun hb _).trans (maskBlock_masks (s := s.taking i c) h he hm))
    refine ⟨_, hexec, rfl, ?_⟩
    have hsound : v.Sound true true := by rw [hv]; exact (taking_sound ho i c).of_same rfl rfl
    have hwork : v.work.after = [] := by rw [hv]; exact congrArg Work.after ho.atRest.work
    obtain ⟨n, hn⟩ : ∃ n, (s.taking i c).maskChannel ch = (v.notify n).rederive [ch] := by rw [hv]; exact ⟨_, rfl⟩
    rw [hn]
    exact rederive_concluded hsound hwork n ch i c _
  · have hc : i.cmd? = some c := by rw [hi]; rfl
    have hb : blockOf i = unmaskBlock ch := by rw [hi]; rfl
    refine ⟨fun h => exec_refused hc ho.atRest ha (by rw [hb, unmaskBlock_range h]),
      fun h hm => exec_read hc ho.atRest ha (by rw [hb]; exact unmaskBlock_again (s := s.taking i c) h hm),
      fun v h hm hv => ?_⟩
    have hexec := exec_concluded hc ha ((congrFun hb _).trans (unmaskBlock_unmasks (s := s.taking i c) h hm))
    refine ⟨_, hexec, rfl, ?_⟩
    have hsound : v.Sound true true := by rw [hv]; exact (taking_sound ho i c).of_same rfl rfl
    have hwork : v.work.after = [] := by rw [hv]; exact congrArg Work.after ho.atRest.work
    obtain ⟨n, hn⟩ : ∃ n, (s.taking i c).unmaskChannel ch = (v.notify n).rederive [ch] := by rw [hv]; exact ⟨_, rfl⟩
    rw [hn]
    exact rederive_concluded hsound hwork n ch i c _

/-! ### START_DRILL (R124) -/

theorem startDrillBlock_range {ch : ChannelNo} {n : Nat} (h : 33 < ch ∨ n = 0 ∨ 60 < n) (s : State) :
    startDrillBlock ch n s = s.refuses .range .empty := by
  refine if_pos ?_
  rw [Bool.or_eq_true, Bool.not_eq_true', decide_eq_true_eq, inRange_false]
  exact h.imp_right (Or.imp_left (fun e => by rw [e]; exact Nat.one_pos))

/-- With channel and count in range, START_DRILL goes by the state of the channel (R124). -/
theorem startDrillBlock_state {s : State} {ch : ChannelNo} {n : Nat} (h : ch ≤ 33) (h1 : 1 ≤ n) (h2 : n ≤ 60) :
    startDrillBlock ch n s = match (s.chan ch).state with
      | .suspect => s.refuses .wetStill .empty
      | .wet => s.refuses .wetStill .empty
      | .fault => s.refuses .branchState .empty
      | .masked => s.refuses .branchState .empty
      | .dry =>
        if s.drillJob.isSome || s.injectionOpen then s.refuses .busy .empty
        else (s.modChan ch (fun x => { x with injected := n, injectPending := true }), answer .done (.drillStart s.toInjection)) := by
  refine if_neg ?_
  rw [Bool.or_eq_true, Bool.not_eq_true', decide_eq_true_eq, inRange_false]
  rintro (e | e | e)
  · exact Nat.not_lt.2 h e
  · exact Nat.not_lt.2 h1 e
  · exact Nat.not_lt.2 h2 e

/-- Settles O38: the refusals by the state of the channel; from DRY the injection waits on its channel. -/
theorem startDrillInjects : Obligations.StartDrillInjects := by
  rintro s c ch n i hi hr ha
  have hc : i.cmd? = some c := by rw [hi]; rfl
  have hb : blockOf i = startDrillBlock ch n := by rw [hi]; rfl
  refine ⟨fun h => exec_refused hc hr ha (by rw [hb, startDrillBlock_range h]), fun h h1 h2 => ?_⟩
  have hrun := (congrFun hb (s.taking i c)).trans (startDrillBlock_state h h1 h2)
  refine ⟨fun hst => ?_, fun hst => ?_, fun hst hbusy => ?_, fun hst hj hi' => ?_⟩
  · refine exec_refused hc hr ha (hrun.trans ?_)
    rcases hst with e | e <;> rw [show ((s.taking i c).chan ch).state = _ from e]
  · refine exec_refused hc hr ha (hrun.trans ?_)
    rcases hst with e | e <;> rw [show ((s.taking i c).chan ch).state = _ from e]
  · refine exec_refused hc hr ha (hrun.trans ?_)
    rw [show ((s.taking i c).chan ch).state = _ from hst]
    refine if_pos ?_
    rw [Bool.or_eq_true, Option.isSome_iff_ne_none]; exact hbusy
  · refine exec_replied hc ha (hrun.trans ?_) ⟨hr.reports, hr.granted, hr.work⟩
    rw [show ((s.taking i c).chan ch).state = _ from hst]
    refine if_neg ?_
    rw [Bool.or_eq_true, Option.isSome_iff_ne_none, not_or]
    exact ⟨not_not_intro hj, by rw [show (s.taking i c).injectionOpen = _ from hi']; exact Bool.false_ne_true⟩

end Sys2Proof.Machine

/-! ## BUS_CLEAR (R82) and the releases (R17, R162, R163) -/

namespace Sys2Proof.Machine

-- One after another: side by side the proofs of the whole text take more memory than a check may.
set_option Elab.async false

/-! ### What the states of actuators and branches are after a change of all of them -/

/-- What every shadow of a changed table has, the shadow read has, in the table or beyond it. -/
theorem act_of_map {s t : State} {f : Actuator → Actuator} (h : t.bus.actuators = s.bus.actuators.map f)
    {P : Actuator → Prop} (hf : ∀ x, P (f x)) (h0 : P Actuator.reset) (a : ActuatorNo) : P (t.act a) := by
  unfold State.act
  rw [h, List.getD_eq_getElem?_getD, List.getElem?_map]
  cases s.bus.actuators[a]? with
  | none => exact h0
  | some x => exact hf x

/-- What every branch of a changed table has, the branch read has, in the table or beyond it. -/
theorem br_of_map {s t : State} {f : Branch → Branch} (h : t.branches = s.branches.map f)
    {P : Branch → Prop} (hf : ∀ x, P (f x)) (h0 : P Branch.reset) (p : Position) : P (t.br p) := by
  unfold State.br
  rw [h, List.getD_eq_getElem?_getD, List.getElem?_map]
  cases s.branches[p]? with
  | none => exact h0
  | some x => exact hf x

/-- States whose shadows agree under a view agree under it shadow by shadow. -/
theorem act_view {β : Type} (g : Actuator → β) {s t : State} (h : t.bus.actuators.map g = s.bus.actuators.map g)
    (a : ActuatorNo) : g (t.act a) = g (s.act a) := by
  have read (u : State) : g (u.act a) = (u.bus.actuators.map g).getD a (g Actuator.reset) := by
    unfold State.act
    rw [List.getD_eq_getElem?_getD, List.getD_eq_getElem?_getD, List.getElem?_map, Option.getD_map]
  rw [read, read, h]

/-- `State.still` keeps the reservation of an actuator. -/
theorem act_reservedBy_of_still {s t : State} (h : t.still = s.still) (a : ActuatorNo) :
    (t.act a).reservedBy = (s.act a).reservedBy :=
  show (t.act a).still.reservedBy = (s.act a).still.reservedBy from congrArg Actuator.reservedBy (act_view Actuator.still (congrArg (fun x => x.bus.actuators) h) a)

/-! ### BUS_CLEAR (R82) -/

theorem busClearBlock_busy {s : State} (h : s.bus.clearing ≠ none) : busClearBlock s = s.refuses .busy .empty :=
  if_pos (Option.isSome_iff_ne_none.2 h)

theorem busClearBlock_clears {s : State} (h : s.bus.clearing = none) :
    busClearBlock s = (s.busClear, answer .done (.clearCount s.clearList.length)) :=
  if_neg (by rw [h]; exact Bool.false_ne_true)

/-- The clients have been told what a bus clear drops (R82, steps 1 to 3). -/
def State.toldOfClear (s : State) : State :=
  (s.forEach (s.bus.isoQ ++ s.bus.flowQ ++ s.bus.svcQ) (fun s c => s.abortReport c.client c.actuator)).forEach
    (Config.actuators.filterMap (fun a => (s.act a).move.map (fun m => (m.client, a)))) (fun s x => s.abortReport x.1 x.2)

theorem clearBus_eq (s : State) : s.clearBus = { s.toldOfClear with
    bus.isoQ := [], bus.flowQ := [], bus.svcQ := [], bus.trackDue := []
    bus.actuators := s.toldOfClear.bus.actuators.map (fun x => { x with move := none, fault := .none })
    bus.clearing := some { stopSent := false, polls := s.clearList }
    branches := s.toldOfClear.branches.map (fun b => { b with valveFault := false }) } := rfl

theorem abortReport_pollQ (s : State) (c : Client) (a : ActuatorNo) : (s.abortReport c a).bus.pollQ = s.bus.pollQ := by
  unfold State.abortReport State.report; repeat' split
  all_goals rfl

theorem toldOfClear_pollQ (s : State) : s.toldOfClear.bus.pollQ = s.bus.pollQ := by
  unfold State.toldOfClear
  rw [forEach_leaves (fun t => t.bus.pollQ) _ (fun t x => abortReport_pollQ t _ _),
    forEach_leaves (fun t => t.bus.pollQ) _ (fun t x => abortReport_pollQ t _ _)]

namespace State.Onward

variable {g : Bool} {b s : State}

theorem abortReport (c : Client) (a : ActuatorNo) (h : Onward g b s) : Onward g b (s.abortReport c a) := by
  unfold State.abortReport; split
  · exact report _ _ _ h
  · exact h

theorem toldOfClear (h : Onward g b s) : Onward g b s.toldOfClear :=
  each _ (each _ h (fun _ _ h => abortReport _ _ h)) (fun _ _ h => abortReport _ _ h)

/-- What a bus clear drops at once is no part of `State.frozen`. -/
theorem clearBus (h : Onward false b s) : Onward false b s.clearBus := by
  have h1 := toldOfClear h
  rw [clearBus_eq]
  generalize s.toldOfClear = u at h1 ⊢
  have h2 := mapActs (fun x => { x with move := none, fault := .none }) (fun _ => rfl) h1
  refine ⟨Eq.trans ?_ h2.kept, ⟨h1.sound.out, (fun e => nomatch e), fun e => nomatch e⟩⟩
  simp only [State.frozen, State.freeze, State.still, List.map_map]
  rfl

theorem clearVerify (h : Onward g b s) : Onward g b s.clearVerify := by
  unfold State.clearVerify; split
  · exact endVerify _ _ _ h
  · exact h

theorem clearService (h : Onward g b s) : Onward g b s.clearService := by
  unfold State.clearService; split
  · exact h
  · dsimp only; split
    · exact clearDraw _ (endService _ _ h)
    · exact endService _ _ h

theorem busClear (h : Onward false b s) : Onward false b s.busClear := by
  have h1 := clearService (clearVerify (clearBus h))
  unfold State.busClear; dsimp only; split
  · exact askDrawPass h1
  · exact h1

end State.Onward

/-- Settles O36: the fields of `clearBus`, and the whole clear goes onward. -/
theorem busClearDropsMoves : Obligations.BusClearDropsMoves := by
  intro s c i hi ho ha
  have hc : i.cmd? = some c := by rw [hi]; rfl
  have hb : blockOf i = busClearBlock := by rw [hi]; rfl
  refine ⟨fun h => exec_refused hc ho.atRest ha (by rw [hb]; exact busClearBlock_busy (s := s.taking i c) h), fun v h hv => ?_⟩
  have hexec := exec_concluded hc ha ((congrFun hb _).trans (busClearBlock_clears (s := s.taking i c) h))
  have hsound : (s.taking i c).Sound false true :=
    ⟨(taking_sound ho i c).out, (fun e => nomatch e), (taking_sound ho i c).mild⟩
  have hv' := hv.trans (clearBus_eq _)
  refine ⟨by rw [hv'], by rw [hv'], by rw [hv'], by rw [hv'], ?_, by rw [hv']; rfl, fun a _ => ?_, fun p _ => ?_,
    _, hexec, rfl, ?_⟩
  · rw [hv']; exact toldOfClear_pollQ _
  · exact act_of_map (congrArg (fun x => x.bus.actuators) hv') (P := fun x => x.move = none ∧ x.fault = .none)
      (fun _ => ⟨rfl, rfl⟩) ⟨rfl, rfl⟩ a
  · exact br_of_map (congrArg State.branches hv') (P := fun x => x.valveFault = false) (fun _ => rfl) rfl p
  · exact concluded_frozen (State.Onward.refl hsound).busClear i c _

end Sys2Proof.Machine

/-! ## The releases (R17, R162, R163) -/

namespace Sys2Proof.Machine

-- One after another: side by side the proofs of the whole text take more memory than a check may.
set_option Elab.async false

/-! ### A job that may leave the table (R164) -/

/-- What reads neither the slots nor the shadows does not see an empty job leave the table. -/
theorem removeIfEmpty_leaves {β : Type} (f : State → β)
    (hf : ∀ (s : State) l m, f { s with iso.slots := l, bus.actuators := m } = f s) (s : State) (i : JobId) :
    f (s.removeIfEmpty i) = f s := by
  unfold State.removeIfEmpty; repeat' split
  · rfl
  · exact hf s _ _
  · rfl

/-- No job is new after an empty one has left. -/
theorem removeIfEmpty_jobs {s : State} {i : JobId} {k : Job} (h : k ∈ (s.removeIfEmpty i).jobs) : k ∈ s.jobs := by
  unfold State.removeIfEmpty at h; split at h
  · exact h
  · split at h
    · have h' : k ∈ (s.dropJob i).jobs := h
      rw [dropJob_jobs] at h'
      exact (List.mem_filter.1 h').1
    · exact h

/-- What is not reserved stays so when an empty job leaves. -/
theorem removeIfEmpty_unreserved {s : State} {a : ActuatorNo} (h : (s.act a).reservedBy = 0) (i : JobId) :
    ((s.removeIfEmpty i).act a).reservedBy = 0 := by
  unfold State.removeIfEmpty; repeat' split
  · exact h
  · unfold State.act at h ⊢
    rw [List.getD_eq_getElem?_getD] at h ⊢
    show ((Option.getD (List.map _ s.bus.actuators)[a]? Actuator.reset).reservedBy) = 0
    rw [List.getElem?_map]
    cases e : s.bus.actuators[a]? with
    | none => rfl
    | some x =>
      rw [e] at h
      dsimp only [Option.map, Option.getD] at h ⊢
      split
      · rfl
      · exact h
  · exact h

/-- A property that a change gives the job it changes, that job has. -/
theorem modJob_job?_of {s : State} {i : JobId} {f : Job → Job} {P : Job → Prop} (hf : ∀ j, P (f j)) {k : Job}
    (hk : k ∈ (s.modJob i f).jobs) (hi : k.id = i) : P k := by
  rw [modJob_jobs] at hk
  obtain ⟨j, _, rfl⟩ := List.mem_map.1 hk
  by_cases e : j.id = i
  · rw [if_pos e]; exact hf j
  · rw [if_neg e] at hi; exact absurd hi e

/-- What reads nothing of the store does not see a hold write asked for. -/
theorem holdIfChanged_leaves {β : Type} (f : State → β) (hf : ∀ (s : State) k, f { s with store := k } = f s) (s x : State) :
    f (s.holdIfChanged x) = f s := by
  unfold State.holdIfChanged State.askHoldWrite; repeat' split
  · exact hf s _
  · exact hf s _
  · rfl

theorem holdIfChanged_trunkLatch (s x : State) : (s.holdIfChanged x).store.trunkLatch = s.store.trunkLatch := by
  unfold State.holdIfChanged State.askHoldWrite; repeat' split
  all_goals rfl

theorem unreserve_act {s : State} {a : ActuatorNo} (h : a < s.bus.actuators.length) : ((s.unreserve a).act a).reservedBy = 0 := by
  unfold State.unreserve; rw [modAct_act_self s a _ h]

/-- A dropped reservation stays dropped when another is. -/
theorem unreserve_keeps {s : State} {a b : ActuatorNo} (h : (s.act a).reservedBy = 0) : ((s.unreserve b).act a).reservedBy = 0 := by
  by_cases e : b = a
  · subst e
    by_cases hl : b < s.bus.actuators.length
    · exact unreserve_act hl
    · unfold State.act
      rw [List.getD_eq_getElem?_getD, List.getElem?_eq_none (by simpa [State.unreserve, State.modAct] using hl)]; rfl
  · unfold State.unreserve; rw [modAct_act_ne s _ e]; exact h

/-! ### RELEASE_TRUNK (R163) -/

/-- RELEASE_TRUNK finds the rack job. -/
theorem releaseTrunkBlock_of {s : State} {j : Job} (h : s.rackJob = some j) : releaseTrunkBlock s =
    if j.trunk.isNone then s.refuses .notFound .empty
    else if j.phase ≠ .hold then s.refuses .isolating .empty
    else match s.wetCause j (j.targets.map (fun t => t.pos)) with
      | some w => s.refuses .wetStill (.wet w)
      | none => match j.targets.find? (fun t => t.supply ≠ .ok) with
        | some t => s.refuses .branchState (.position t.pos)
        | none => (s.releaseTrunk j, answer .done .empty) := by
  unfold releaseTrunkBlock; rw [h] <;> rfl

theorem releaseTrunkBlock_none {s : State} (h : s.rackJob = none) : releaseTrunkBlock s = s.refuses .notFound .empty := by
  unfold releaseTrunkBlock; rw [h]

/-- RELEASE_TRUNK with a trunk held, in HOLD. -/
theorem releaseTrunkBlock_hold {s : State} {j : Job} (h : s.rackJob = some j) (ht : j.trunk ≠ none) (hp : j.phase = .hold) :
    releaseTrunkBlock s = match s.wetCause j (j.targets.map (fun t => t.pos)) with
      | some w => s.refuses .wetStill (.wet w)
      | none => match j.targets.find? (fun t => t.supply ≠ .ok) with
        | some t => s.refuses .branchState (.position t.pos)
        | none => (s.releaseTrunk j, answer .done .empty) := by
  rw [releaseTrunkBlock_of h]
  exact (if_neg (by rw [Option.isNone_iff_eq_none]; exact ht)).trans (if_neg (not_not_intro hp))

/-- A job gives up its trunk, and the trunk's reservations are dropped (R163). -/
def State.trunkDropped (s : State) (i : JobId) : State :=
  ((s.modJob i (fun j => { j with trunk := none })).unreserve 48).unreserve 49

theorem trunkDropped_leaves {β : Type} (f : State → β) (hf : ∀ (s : State) x m,
      f { s with iso := x, bus.actuators := m } = f s) (s : State) (i : JobId) : f (s.trunkDropped i) = f s :=
  hf s (s.trunkDropped i).iso (s.trunkDropped i).bus.actuators

theorem trunkDropped_slots (s : State) (i : JobId) :
    (s.trunkDropped i).iso.slots = (s.modJob i (fun j => { j with trunk := none })).iso.slots := rfl

/-- The trunk latch is given up, with its hold write (R163). -/
def State.trunkUnlatched (s : State) : State := State.holdIfChanged { s with store.trunkLatch := false } s

/-- The trunk is given up: no latch, no trunk in the job, no reservation, and nothing on the bus has moved yet (R163). -/
def State.trunkFreed (s : State) (i : JobId) : State := s.trunkUnlatched.trunkDropped i

theorem releaseTrunk_eq (s : State) (j : Job) : s.releaseTrunk j =
    (((s.trunkFreed j.id).placeIso 49 1000 .trunkOpening).placeIso 48 1000 .trunkOpening).removeIfEmpty j.id := rfl

/-- The line is not granted while it is not free, and the ISO queue is not touched by the giving up. -/
theorem trunkFreed_leaves {β : Type} (f : State → β) (hf : ∀ (s : State) k x m,
      f { s with store := k, iso := x, bus.actuators := m } = f s) (s : State) (i : JobId) :
    f (s.trunkFreed i) = f s := by
  have hstore (s : State) k : f { s with store := k } = f s := hf s k s.iso s.bus.actuators
  unfold State.trunkFreed State.trunkUnlatched
  rw [trunkDropped_leaves f (fun s x m => hf s s.store x m), holdIfChanged_leaves f hstore]
  exact hstore s _

theorem trunkFreed_latch (s : State) (i : JobId) : (s.trunkFreed i).store.trunkLatch = false := by
  unfold State.trunkFreed State.trunkUnlatched
  rw [trunkDropped_leaves (fun s => s.store.trunkLatch) (fun _ _ _ => rfl), holdIfChanged_trunkLatch]

theorem trunkFreed_onward {g : Bool} {b s : State} (i : JobId) (h : State.Onward g b s) : State.Onward g b (s.trunkFreed i) :=
  State.Onward.unreserve 49 (State.Onward.unreserve 48 (State.Onward.modJob i _
    (State.Onward.holdIfChanged s (h.store { s.store with trunkLatch := false } rfl rfl rfl rfl rfl))))

theorem trunkFreed_unreserved {s : State} (h : s.bus.actuators.length = 50) (i : JobId) :
    ((s.trunkFreed i).act 48).reservedBy = 0 ∧ ((s.trunkFreed i).act 49).reservedBy = 0 := by
  have hlen : s.trunkUnlatched.bus.actuators.length = 50 :=
    (holdIfChanged_leaves (fun s => s.bus.actuators.length) (fun _ _ => rfl) _ s).trans h
  refine ⟨unreserve_keeps (unreserve_act ?_), unreserve_act ?_⟩
  · exact Nat.lt_of_lt_of_eq (by decide) hlen.symm
  · exact Nat.lt_of_lt_of_eq (by decide) ((modAct_actuators_length ..).trans hlen).symm

/-- A claim for an actuator with none waiting joins the end of the ISO queue while the line is not free (R70). -/
theorem placeIso_waits {s : State} {a : ActuatorNo} (hl : s.bus.line ≠ .free) (h : ∀ x ∈ s.bus.isoQ, x.actuator ≠ a) (t : Nat)
    (c : Client) : (s.placeIso a t c).bus.isoQ = s.bus.isoQ ++ [{ actuator := a, target := t, client := c, madeAt := s.now }] ∧
      (s.placeIso a t c).bus.line = s.bus.line ∧ (s.placeIso a t c).now = s.now := by
  have hq : coalesce { actuator := a, target := t, client := c, madeAt := s.now } s.bus.isoQ =
      s.bus.isoQ ++ [{ actuator := a, target := t, client := c, madeAt := s.now }] := by
    unfold coalesce
    refine if_neg (fun e => ?_)
    obtain ⟨x, hx, hxa⟩ := List.any_eq_true.1 e
    exact h x hx (of_decide_eq_true hxa)
  have e : s.placeIso a t c = { s with bus.isoQ :=
      (coalesce { actuator := a, target := t, client := c, madeAt := s.now } s.bus.isoQ) } := grantLine_busy hl
  rw [e, hq]
  exact ⟨rfl, rfl, rfl⟩

/-- `State.still` keeps the store. -/
theorem store_of_still {s t : State} (h : t.still = s.still) : t.store = s.store :=
  show t.still.store = s.still.store by rw [h]

/-- The trunk is released (R163). -/
theorem releaseTrunk_facts {s : State} (h : s.bus.actuators.length = 50) (j : Job) :
    (s.releaseTrunk j).store.trunkLatch = false ∧
    (∀ k, (s.releaseTrunk j).job? j.id = some k → k.trunk = none) ∧
    ((s.releaseTrunk j).act 48).reservedBy = 0 ∧ ((s.releaseTrunk j).act 49).reservedBy = 0 := by
  have hstill : (((s.trunkFreed j.id).placeIso 49 1000 .trunkOpening).placeIso 48 1000 .trunkOpening).still =
      (s.trunkFreed j.id).still := (placeIso_still _ _ _ _).trans (placeIso_still _ _ _ _)
  obtain ⟨h48, h49⟩ := trunkFreed_unreserved h j.id
  rw [releaseTrunk_eq]
  refine ⟨?_, fun k hk => ?_, removeIfEmpty_unreserved ?_ _, removeIfEmpty_unreserved ?_ _⟩
  · rw [removeIfEmpty_leaves (fun s => s.store.trunkLatch) (fun _ _ _ => rfl)]
    rw [store_of_still hstill]; exact trunkFreed_latch s j.id
  · obtain ⟨hk1, hk2⟩ := job?_some hk
    have hk3 := removeIfEmpty_jobs hk1
    have hslots := slots_of_still hstill
    have hk4 : k ∈ (s.trunkUnlatched.modJob j.id (fun j => { j with trunk := none })).jobs := by
      unfold State.jobs at hk3 ⊢; rwa [hslots, State.trunkFreed, trunkDropped_slots] at hk3
    exact modJob_job?_of (s := s.trunkUnlatched) (P := fun j => j.trunk = none)
      (f := fun j => { j with trunk := none }) (fun _ => rfl) hk4 hk2
  · exact (act_reservedBy_of_still hstill 48).trans h48
  · exact (act_reservedBy_of_still hstill 49).trans h49

/-- The claims that open the trunk wait behind the others while the line is not free (R163). -/
theorem releaseTrunk_isoQ {s : State} (j : Job) (hl : s.bus.line ≠ .free)
    (hq : ∀ x, x ∈ s.bus.isoQ → x.actuator ≠ 48 ∧ x.actuator ≠ 49) :
    (s.releaseTrunk j).bus.isoQ = s.bus.isoQ ++
      [{ actuator := 49, target := 1000, client := .trunkOpening, madeAt := s.now },
       { actuator := 48, target := 1000, client := .trunkOpening, madeAt := s.now }] := by
  have e1 : (s.trunkFreed j.id).bus.isoQ = s.bus.isoQ := trunkFreed_leaves (fun s => s.bus.isoQ) (fun _ _ _ _ => rfl) s _
  have e2 : (s.trunkFreed j.id).bus.line = s.bus.line := trunkFreed_leaves (fun s => s.bus.line) (fun _ _ _ _ => rfl) s _
  have e3 : (s.trunkFreed j.id).now = s.now := trunkFreed_leaves (fun s => s.now) (fun _ _ _ _ => rfl) s _
  obtain ⟨q1, l1, n1⟩ := placeIso_waits (s := s.trunkFreed j.id) (a := 49) (e2.symm ▸ hl)
    (fun x hx => (hq x (e1 ▸ hx)).2) 1000 .trunkOpening
  have hq1 : ∀ x ∈ ((s.trunkFreed j.id).placeIso 49 1000 .trunkOpening).bus.isoQ, x.actuator ≠ 48 := by
    rw [q1, e1]
    intro x hx
    rcases List.mem_append.1 hx with hx | hx
    · exact (hq x hx).1
    · rw [List.mem_singleton.1 hx]; exact (by decide : (49 : Nat) ≠ 48)
  obtain ⟨q2, _, _⟩ := placeIso_waits (a := 48) (by rw [l1, e2]; exact hl) hq1 1000 .trunkOpening
  rw [releaseTrunk_eq, removeIfEmpty_leaves (fun s => s.bus.isoQ) (fun _ _ _ => rfl), q2, q1, n1, e1, e3, List.append_assoc]
  rfl

theorem State.Onward.releaseTrunk {g : Bool} {b s : State} (j : Job) (h : State.Onward g b s) :
    State.Onward g b (s.releaseTrunk j) :=
  State.Onward.removeIfEmpty _ (State.Onward.placeIso _ _ _ (State.Onward.placeIso _ _ _ (trunkFreed_onward _ h)))

/-- Settles O42: the refusals by the rack job, its phase, its evidence and its targets; then the trunk is given up and its
opening claimed. -/
theorem releaseTrunkOpensTrunk : Obligations.ReleaseTrunkOpensTrunk := by
  intro s c i hi ho ha
  have hc : i.cmd? = some c := by rw [hi]; rfl
  have hb : blockOf i = releaseTrunkBlock := by rw [hi]; rfl
  have hrun := congrFun hb (s.taking i c)
  have hwet (j : Job) (ps : List Position) : (s.taking i c).wetCause j ps = s.wetCause j ps := rfl
  refine ⟨fun h => exec_refused hc ho.atRest ha (hrun.trans (releaseTrunkBlock_none h)), fun j hj => ?_⟩
  have hj' : (s.taking i c).rackJob = some j := hj
  refine ⟨fun h => exec_refused hc ho.atRest ha (hrun.trans ?_), fun h hp => exec_refused hc ho.atRest ha (hrun.trans ?_),
    fun w h hp hw => exec_refused hc ho.atRest ha (hrun.trans ?_), fun h hp hw => ⟨fun x hx => ?_, fun u hall hu => ?_⟩⟩
  · rw [releaseTrunkBlock_of hj', if_pos (by rw [h]; rfl)]
  · rw [releaseTrunkBlock_of hj', if_neg (by rw [Option.isNone_iff_eq_none]; exact h), if_pos hp]
  · rw [releaseTrunkBlock_hold hj' h hp, hwet, hw]
  · refine exec_refused hc ho.atRest ha (hrun.trans ?_)
    rw [releaseTrunkBlock_hold hj' h hp, hwet, hw]; dsimp only; rw [hx]
  · have hfind : j.targets.find? (fun t => t.supply ≠ .ok) = none :=
      List.find?_eq_none.2 (fun x hx => by simpa using hall x hx)
    have hdone : releaseTrunkBlock (s.taking i c) = ((s.taking i c).releaseTrunk j, answer .done .empty) := by
      rw [releaseTrunkBlock_hold hj' h hp, hwet, hw]; dsimp only; rw [hfind]
    have hexec := exec_concluded hc ha (hrun.trans hdone)
    have hlen : (s.taking i c).bus.actuators.length = 50 := ho.sized.actuators
    obtain ⟨h1, h2, h3, h4⟩ := releaseTrunk_facts hlen j
    obtain ⟨w48, w49⟩ := trunkFreed_unreserved hlen j.id
    refine ⟨hu ▸ h1, hu ▸ h2, hu ▸ h3, hu ▸ h4, ⟨(s.taking i c).trunkFreed j.id, ?_, ?_, w48, w49, hu⟩, fun hl hq => ?_,
      _, hexec.trans (by rw [hu]), rfl, ?_⟩
    · exact trunkFreed_leaves (fun s => s.bus.isoQ) (fun _ _ _ _ => rfl) _ _
    · exact trunkFreed_leaves (fun s => s.bus.line) (fun _ _ _ _ => rfl) _ _
    · rw [hu]; exact releaseTrunk_isoQ j hl hq
    · rw [hu]; exact concluded_frozen ((State.Onward.refl (taking_sound ho i c)).releaseTrunk j) i c _

end Sys2Proof.Machine

/-! ## RELEASE_ISOLATION (R17, R162) and WARN_ACK (R149, R150, R167) -/

namespace Sys2Proof.Machine

-- One after another: side by side the proofs of the whole text take more memory than a check may.
set_option Elab.async false

/-! ### A branch that is shut (R11, R100) -/

theorem shutBranch_branches (s : State) (p : Position) : (s.shutBranch p).branches =
    ((s.setDrive p 0).modBr p (fun b => { b with controlTarget := some 0 })).branches := shutValves_branches _ p

theorem setDrive_length (s : State) (p : Position) (d : Nat) : (s.setDrive p d).branches.length = s.branches.length :=
  length_of_still (setDrive_still s p d)

/-- A branch that is shut has drive 0 and control target 0, and its pending cut is as it was. -/
theorem shutBranch_br {s : State} {p : Position} (h : p < s.branches.length) :
    ((s.shutBranch p).br p).drive = 0 ∧ ((s.shutBranch p).br p).controlTarget = some 0 ∧
    ((s.shutBranch p).br p).cut = (s.br p).cut := by
  have hlen : p < (s.setDrive p 0).branches.length := (setDrive_length s p 0).symm ▸ h
  rw [br_congr (shutBranch_branches s p), modBr_br_self _ p _ hlen]
  exact ⟨setDrive_drive 0 h, rfl, setDrive_cut s p 0⟩

/-- The other branches are as they were. -/
theorem shutBranch_br_ne (s : State) {p q : Position} (h : q ≠ p) : (s.shutBranch p).br q = s.br q := by
  rw [br_congr (shutBranch_branches s p), modBr_br_ne _ _ h.symm, setDrive_br_ne s 0 h]

/-! ### RELEASE_ISOLATION (R162) -/

theorem releaseIsolationBlock_range {p : Position} (h : 23 < p) (s : State) :
    releaseIsolationBlock p s = s.refuses .range .empty := if_pos h

theorem releaseIsolationBlock_state {s : State} {p : Position} (h : p ≤ 23) (h1 : (s.br p).state ≠ .isolated)
    (h2 : (s.br p).state ≠ .isolating) : releaseIsolationBlock p s = s.refuses .branchState .empty :=
  (if_neg (Nat.not_lt.2 h)).trans (if_pos (by simp [h1, h2]))

/-- RELEASE_ISOLATION of a branch of a job. -/
theorem releaseIsolationBlock_of {s : State} {p : Position} (h : p ≤ 23)
    (hs : (s.br p).state = .isolated ∨ (s.br p).state = .isolating) :
    releaseIsolationBlock p s = match s.job? (s.br p).job with
      | none => s.refuses .isolating .empty
      | some j =>
        if j.phase ≠ .hold then s.refuses .isolating .empty
        else match s.wetCause j [p] with
          | some w => s.refuses .wetStill (.wet w)
          | none => ((((s.releaseBranch p).pass [] []).removeTarget j.id p).removeIfEmpty j.id, answer .done .empty) :=
  (if_neg (Nat.not_lt.2 h)).trans (if_neg (by rcases hs with e | e <;> simp [e]))

/-- The branch as the release leaves it before its valves are closed. -/
def State.branchFreed (s : State) (p : Position) : State :=
  (((s.modBr p (fun b => { b with state := .maintenance, job := 0, latched := false, maint := true })).holdIfChanged
    s).unreserve (supplyOf p)).unreserve (returnOf p)

theorem releaseBranch_eq (s : State) (p : Position) : s.releaseBranch p = (s.branchFreed p).shutBranch p := rfl

theorem branchFreed_branches (s : State) (p : Position) : (s.branchFreed p).branches =
    (s.modBr p (fun b => { b with state := .maintenance, job := 0, latched := false, maint := true })).branches :=
  holdIfChanged_leaves State.branches (fun _ _ => rfl) _ s

theorem branchFreed_unreserved {s : State} {p : Position} (h : s.bus.actuators.length = 50) (hp : p < 24) :
    ((s.branchFreed p).act (supplyOf p)).reservedBy = 0 ∧ ((s.branchFreed p).act (returnOf p)).reservedBy = 0 := by
  have hlen : ((s.modBr p (fun b => { b with state := .maintenance, job := 0, latched := false, maint := true })).holdIfChanged
      s).bus.actuators.length = 50 := (holdIfChanged_leaves (fun s => s.bus.actuators.length) (fun _ _ => rfl) _ s).trans h
  refine ⟨unreserve_keeps (unreserve_act ?_), unreserve_act ?_⟩
  · rw [hlen]; exact Nat.lt_trans hp (by decide)
  · refine Nat.lt_of_lt_of_eq (m := 50) ?_ ((modAct_actuators_length ..).trans hlen).symm
    exact Nat.lt_trans (Nat.add_lt_add_right hp 24) (by decide)

/-- The branch is in MAINTENANCE with its flag, free of job, latch and reservation, and not driven (R17). -/
theorem releaseBranch_facts {s : State} {p : Position} (hlen : p < s.branches.length)
    (hacts : s.bus.actuators.length = 50) (hp : p < 24) :
    ((s.releaseBranch p).br p).state = .maintenance ∧ ((s.releaseBranch p).br p).job = 0 ∧
    ((s.releaseBranch p).br p).latched = false ∧ ((s.releaseBranch p).br p).maint = true ∧
    ((s.releaseBranch p).br p).drive = 0 ∧ ((s.releaseBranch p).act (supplyOf p)).reservedBy = 0 ∧
    ((s.releaseBranch p).act (returnOf p)).reservedBy = 0 := by
  have hstill : (s.releaseBranch p).still = (s.branchFreed p).still := shutBranch_still _ p
  have hbr : (s.branchFreed p).br p =
      { s.br p with state := .maintenance, job := 0, latched := false, maint := true } :=
    (br_congr (branchFreed_branches s p) p).trans (modBr_br_self s p _ hlen)
  have field {γ : Type} (f : Branch → γ) (e : ∀ b, f b.still = f b) : f ((s.releaseBranch p).br p) =
      f { s.br p with state := .maintenance, job := 0, latched := false, maint := true } :=
    (br_field_of_still hstill p e).trans (congrArg f hbr)
  have hdrive : ((s.releaseBranch p).br p).drive = 0 :=
    (shutBranch_br (s := s.branchFreed p) (by rw [branchFreed_branches]; simpa using hlen)).1
  obtain ⟨r1, r2⟩ := branchFreed_unreserved hacts hp
  exact ⟨field Branch.state (fun _ => rfl), field Branch.job (fun _ => rfl), field Branch.latched (fun _ => rfl),
    field Branch.maint (fun _ => rfl), hdrive, (act_reservedBy_of_still hstill _).trans r1,
    (act_reservedBy_of_still hstill _).trans r2⟩

theorem State.Onward.releaseBranch {g : Bool} {b s : State} (p : Position) (h : State.Onward g b s) :
    State.Onward g b (s.releaseBranch p) :=
  State.Onward.shutBranch p (State.Onward.unreserve _ (State.Onward.unreserve _ (State.Onward.holdIfChanged s
    (h.modBr p (fun b => { b with state := .maintenance, job := 0, latched := false, maint := true }) (fun _ => rfl)))))

/-- A target that leaves a job is none of the job's. -/
theorem removeTarget_hasTarget {s : State} {i : JobId} {p : Position} {k : Job}
    (h : ((s.removeTarget i p).removeIfEmpty i).job? i = some k) : k.hasTarget p = false := by
  obtain ⟨hk, hi⟩ := job?_some h
  refine modJob_job?_of (s := s) (P := fun j => j.hasTarget p = false)
    (f := fun j => { j with targets := j.targets.filter (fun t => t.pos ≠ p) }) (fun j => ?_) (removeIfEmpty_jobs hk) hi
  unfold Job.hasTarget
  refine List.any_eq_false.2 (fun t ht => ?_)
  simpa using (List.mem_filter.1 ht).2

/-- Settles O41: the refusals by state, job, phase and evidence; then the branch is freed and leaves its job. -/
theorem releaseIsolationFreesBranch : Obligations.ReleaseIsolationFreesBranch := by
  intro s c p i hi ho ha
  have hc : i.cmd? = some c := by rw [hi]; rfl
  have hb : blockOf i = releaseIsolationBlock p := by rw [hi]; rfl
  have hrun := congrFun hb (s.taking i c)
  have hwet (j : Job) (ps : List Position) : (s.taking i c).wetCause j ps = s.wetCause j ps := rfl
  refine ⟨fun h => exec_refused hc ho.atRest ha (hrun.trans (releaseIsolationBlock_range h _)),
    fun h h1 h2 => exec_refused hc ho.atRest ha (hrun.trans (releaseIsolationBlock_state h h1 h2)), fun h hs => ?_⟩
  have hof := releaseIsolationBlock_of (s := s.taking i c) h hs
  refine ⟨fun hj => exec_refused hc ho.atRest ha (hrun.trans (hof.trans ?_)), fun j hj => ?_⟩
  · rw [show (s.taking i c).job? ((s.taking i c).br p).job = none from hj]
  · have hj' : (s.taking i c).job? ((s.taking i c).br p).job = some j := hj
    rw [hj'] at hof; dsimp only at hof
    refine ⟨fun hp => exec_refused hc ho.atRest ha (hrun.trans (hof.trans (if_pos hp))),
      fun w hp hw => exec_refused hc ho.atRest ha (hrun.trans (hof.trans ((if_neg (not_not_intro hp)).trans ?_))),
      fun v u hp hw hv hu => ?_⟩
    · rw [hwet, hw]
    · have hdone : releaseIsolationBlock p (s.taking i c) =
          (((((s.taking i c).releaseBranch p).pass [] []).removeTarget j.id p).removeIfEmpty j.id, answer .done .empty) := by
        refine hof.trans ((if_neg (not_not_intro hp)).trans ?_)
        rw [hwet, hw]
      have hexec := exec_concluded hc ha (hrun.trans hdone)
      have hp24 : p < 24 := Nat.lt_of_le_of_lt h (by decide)
      have hlen : p < (s.taking i c).branches.length := Nat.lt_of_lt_of_eq hp24 ho.sized.branches.symm
      have hacts : (s.taking i c).bus.actuators.length = 50 := ho.sized.actuators
      have hsound := taking_sound ho i c
      generalize s.taking i c = w at hlen hacts hv hexec hsound ⊢
      obtain ⟨f1, f2, f3, f4, f5, f6, f7⟩ := releaseBranch_facts hlen hacts hp24
      rw [← hv] at hexec f1 f2 f3 f4 f5 f6 f7
      rw [← hu] at hexec
      have hstate : (u.br p).state = ((v.pass [] []).br p).state := by
        rw [hu]
        exact congrArg Branch.state (br_congr (removeIfEmpty_leaves State.branches (fun _ _ _ => rfl) _ _) p)
      have hstay : ((v.pass [] []).br p).state = (v.br p).state := br_state_of_still (pass_still _ _ _) p
      refine ⟨f1, f2, f3, f4, f5, f6, f7, hstate.trans (hstay.trans f1),
        fun k hk => removeTarget_hasTarget (s := v.pass [] []) (hu ▸ hk), _, hexec, rfl, ?_⟩
      have hv' : State.Onward true w v := hv ▸ (State.Onward.refl hsound).releaseBranch p
      have hu' : State.Onward true w u := by
        rw [hu]; exact State.Onward.removeIfEmpty _ (State.Onward.modJob _ _ (State.Onward.pass _ _ hv'))
      exact concluded_frozen hu' i c _

/-! ### WARN_ACK (R150) -/

theorem warnAckOn_none {s : State} {p : Position} (h : ∀ j ∈ s.jobs, j.hasTarget p = false) :
    warnAckOn p s = (s, answer .late .empty) := by
  have e : s.jobs.find? (fun j => j.hasTarget p) = none := List.find?_eq_none.2 (fun j hj => by rw [h j hj]; decide)
  unfold warnAckOn; rw [e]

/-- WARN_ACK finds the warning of the branch. -/
theorem warnAckOn_of {s : State} {p : Position} {j : Job} {x : Target} (hj : s.jobs.find? (fun j => j.hasTarget p) = some j)
    (hx : j.targets.find? (fun t => t.pos = p) = some x) : warnAckOn p s = match x.warning with
      | .acked => (s, answer (if j.phase = .simulate then .late else .doneWarn) .empty)
      | .expired => (s, answer .late .empty)
      | .opened => if j.phase = .notify then (s.ackWarning j p true, answer .done .empty) else (s, answer .late .empty)
      | .none => if j.phase = .notify then (s.ackWarning j p false, answer .done .empty) else (s, answer .late .empty) := by
  unfold warnAckOn; rw [hj]; dsimp only; rw [hx] <;> rfl

/-- The warning of a branch is ACKED, with the latency of a drill (R150, R167). -/
def State.acked (s : State) (j : Job) (p : Position) : State :=
  State.recordAck (s.modJob j.id (fun j => j.modTarget p (fun t => { t with warning := .acked }))) j p

theorem ackWarning_eq (s : State) (j : Job) (p : Position) (o : Bool) : s.ackWarning j p o =
    match (s.acked j p).job? j.id with
    | none => s.acked j p
    | some k => if o && !k.warningOpen then (s.acked j p).endNotify k.id else s.acked j p := rfl

/-- An acknowledgement of a warning that was not open ends nothing. -/
theorem ackWarning_closed (s : State) (j : Job) (p : Position) : s.ackWarning j p false = s.acked j p := by
  rw [ackWarning_eq]
  cases (s.acked j p).job? j.id <;> rfl

theorem ackWarning_opened {s : State} {j k : Job} {p : Position} (h : (s.acked j p).job? j.id = some k) :
    s.ackWarning j p true = if k.warningOpen then s.acked j p else (s.acked j p).endNotify j.id := by
  rw [ackWarning_eq, h]; dsimp only
  rw [(job?_some h).2]
  cases k.warningOpen <;> rfl

theorem acked_onward {g : Bool} {b s : State} (j : Job) (p : Position) (h : State.Onward g b s) :
    State.Onward g b (s.acked j p) := by
  have h1 := h.modJob j.id (fun j => j.modTarget p (fun t => { t with warning := .acked }))
  unfold State.acked State.recordAck; split
  · exact h1.iso _ rfl
  · exact h1

theorem acked_atRest {s : State} (h : s.AtRest) (j : Job) (p : Position) : (s.acked j p).AtRest := by
  unfold State.acked State.recordAck; split
  · exact ⟨h.reports, h.granted, h.work⟩
  · exact ⟨h.reports, h.granted, h.work⟩

/-- Settles O40: the answer by warning and phase, and the end of NOTIFY with the last open warning. -/
theorem warnAckAnswersByWarning : Obligations.WarnAckAnswersByWarning := by
  intro s c p i hi ho ha hbound
  have hc : i.cmd? = some c := by rw [hi]; rfl
  have hb : blockOf i (s.taking i c) = warnAckOn p (s.taking i c) := by
    rw [hi]; exact onBound_of_boundBranch hbound warnAckOn
  refine ⟨fun h => exec_read hc ho.atRest ha (hb.trans (warnAckOn_none h)), fun j x hj hx => ?_⟩
  have hof := hb.trans (warnAckOn_of (s := s.taking i c) hj hx)
  refine ⟨fun hw hp => ?_, fun hw hp => ?_, fun hw => ?_, fun hw hp => ?_, fun v hv => ⟨fun hw hp => ?_, fun k hw hp hk => ?_⟩⟩
  · rw [hw] at hof
    refine exec_read hc ho.atRest ha (hof.trans ?_)
    dsimp only; rw [if_neg hp]
  · rw [hw] at hof
    refine exec_read hc ho.atRest ha (hof.trans ?_)
    dsimp only; rw [if_pos hp]
  · rw [hw] at hof
    exact exec_read hc ho.atRest ha hof
  · rw [hw] at hof
    exact exec_read hc ho.atRest ha (hof.trans (if_neg hp))
  · rw [hw] at hof
    have hdone := hof.trans ((if_pos hp).trans (congrArg (fun t => (t, answer .done .empty)) (ackWarning_closed _ j p)))
    have hrest := acked_atRest (taking_atRest ho.atRest i c) j p
    rw [hv]; exact exec_replied hc ha hdone hrest
  · rw [hw] at hof
    have hv' : v = (s.taking i c).acked j p := hv
    have hk' : ((s.taking i c).acked j p).job? j.id = some k := by rw [← hv']; exact hk
    have hdone := hof.trans ((if_pos hp).trans (congrArg (fun t => (t, answer .done .empty)) (ackWarning_opened hk')))
    refine ⟨fun hopen => ?_, fun hshut => ?_⟩
    · rw [if_pos hopen] at hdone
      rw [hv]; exact exec_replied hc ha hdone (acked_atRest (taking_atRest ho.atRest i c) j p)
    · rw [if_neg (by rw [hshut]; exact Bool.false_ne_true)] at hdone
      have hexec := exec_concluded hc ha hdone
      refine ⟨_, hexec.trans (by rw [hv]; rfl), rfl, ?_⟩
      rw [hv]
      exact concluded_frozen ((acked_onward j p (State.Onward.refl (taking_sound ho i c))).endNotify j.id) i c _

end Sys2Proof.Machine

/-! ## CANCEL_DRILL (R127, R140, R168) -/

namespace Sys2Proof.Machine

-- One after another: side by side the proofs of the whole text take more memory than a check may.
set_option Elab.async false

/-! ### The end of an event that made notices alone (R31, R181) -/

/-- No report waits, nothing waits at a free line, and no pass is due: what remains of the event is its notices. -/
structure State.Noticed (s : State) : Prop where
  reports : s.bus.reports = []
  granted : s.bus.Granted
  due : s.work.due = false
  after : s.work.after = []

theorem State.AtRest.noticed {s : State} (h : s.AtRest) : s.Noticed :=
  ⟨h.reports, h.granted, by rw [h.work]; rfl, by rw [h.work]; rfl⟩

/-- With no pass due and nothing after it, no pass is run. -/
theorem runPass_noticed {s : State} (h : s.Noticed) : s.runPass = s := by
  unfold State.runPass
  rw [if_neg (by rw [h.due]; exact Bool.false_ne_true)]
  dsimp only
  rw [h.after]
  show ({ s with work.after := [] } : State) = s
  rw [← h.after]

theorem settle_noticed {s : State} (h : s.Noticed) : s.settle = s := by
  unfold State.settle
  rw [deliver_none h.reports, runPass_noticed h, deliver_none h.reports]

theorem finish_noticed {s : State} (h : s.Noticed) : s.finish = s.flush.transmit := by
  unfold State.finish
  rw [settle_noticed h, grantLine_idle h.granted, settle_noticed h]

/-- What reads nothing of the link and of the work of an event does not see notices handed over. -/
theorem flush_leaves {α : Type} (f : State → α) (s : State)
    (hf : ∀ (s : State) l w, f { s with link := l, work := w } = f s) : f s.flush = f s := by
  have hlink (s : State) l : f { s with link := l } = f s := hf s l s.work
  have hhand (s : State) (h : HeldNotice) : f (s.hand h) = f s := by
    unfold State.hand; split
    · rfl
    · rw [enqueue_link]; exact hlink s _
  have hall := forEach_leaves f State.hand hhand s.work.held s
  exact (hf _ (s.forEach s.work.held State.hand).link Work.idle).trans hall

/-- What reads nothing of the link and of the work of an event does not see the end of an event that made notices alone. -/
theorem concluded_noticed_leaves {α : Type} (f : State → α) {s : State} (h : s.Noticed) (i : Instr) (c : Cmd) (a : Answer)
    (hf : ∀ (s : State) l w, f { s with link := l, work := w } = f s := by exact fun _ _ _ => rfl) :
    f (s.concluded i c a) = f s := by
  have hreply : (s.reply i.answering c i.code a).Noticed ∧ f (s.reply i.answering c i.code a) = f s := by
    unfold State.reply; split
    · exact ⟨⟨h.reports, h.granted, h.due, h.after⟩, hf s _ s.work⟩
    · exact ⟨h, rfl⟩
  unfold State.concluded
  rw [finish_noticed hreply.1, transmit_leaves f _ (fun s r q => hf s _ s.work), flush_leaves f _ hf, hreply.2]

/-! ### The drill job (R168) -/

theorem cancelDrillJob_none {s : State} (h : s.drillJob = none) : s.cancelDrillJob = s := by
  unfold State.cancelDrillJob; rw [h]

theorem cancelDrillJob_some {s : State} {j : Job} (h : s.drillJob = some j) :
    s.cancelDrillJob = ((s.dropJob j.id).drillRest .missed).drillStatus .cancelled := by
  unfold State.cancelDrillJob; rw [h]

/-- A job that is dropped is no job of the table, and every other id names the job it named. -/
theorem dropJob_job? (s : State) (i n : JobId) : (s.dropJob i).job? n = if n = i then none else s.job? n := by
  unfold State.job?
  rw [dropJob_jobs, List.find?_filter]
  split
  · rename_i e
    subst e
    refine List.find?_eq_none.2 (fun x _ => ?_)
    simp
  · rename_i e
    refine congrArg (List.find? · s.jobs) (funext fun x => ?_)
    by_cases hx : x.id = n
    · simp [hx, e]
    · simp [hx]

/-- What reads nothing of the job table and the drill report does not see the drill job cancelled. -/
theorem cancelDrillJob_leaves {α : Type} (f : State → α) (s : State)
    (hf : ∀ (s : State) x, f { s with iso := x } = f s := by exact fun _ _ => rfl) : f s.cancelDrillJob = f s := by
  unfold State.cancelDrillJob; split
  · rfl
  · rename_i j _
    exact (hf s (((s.dropJob j.id).drillRest .missed).drillStatus .cancelled).iso)

/-! ### Injections (R127) -/

/-- A channel after a cancellation (R127). -/
def Channel.uninjected (c : Channel) : Channel := if 0 < c.injected || c.injectPending then c.cancelInjection else c

theorem cancelInjections_eq (s : State) : s.cancelInjections =
    { s with sense.channels := s.sense.channels.map Channel.uninjected } := rfl

theorem Channel.uninjected_eq (x : Channel) : x.uninjected =
    if 0 < x.injected ∧ x.injectPending = false then { x with injected := 0, above := x.realAbove }
    else { x with injected := 0, injectPending := false } := by
  unfold Channel.uninjected Channel.cancelInjection Channel.injecting
  by_cases h : 0 < x.injected
  · cases hp : x.injectPending <;> simp [h]
  · have h0 : x.injected = 0 := Nat.eq_zero_of_not_pos h
    obtain ⟨_, _, _, _, _, _, _, _, pend, _, _, _⟩ := x
    dsimp only at h0 h ⊢
    subst h0
    cases pend <;> rfl

theorem Channel.uninjected_quiet (x : Channel) : x.uninjected.injected = 0 ∧ x.uninjected.injectPending = false := by
  rw [Channel.uninjected_eq]; split
  · rename_i h; exact ⟨rfl, h.2⟩
  · exact ⟨rfl, rfl⟩

theorem cancelInjections_closed (s : State) : s.cancelInjections.injectionOpen = false := by
  unfold State.injectionOpen
  rw [cancelInjections_eq]
  refine List.any_eq_false.2 (fun x hx => ?_)
  obtain ⟨y, _, rfl⟩ := List.mem_map.1 hx
  rw [y.uninjected_quiet.1, y.uninjected_quiet.2]; decide

theorem cancelInjections_chan {s : State} {ch : ChannelNo} (h : ch < s.sense.channels.length) :
    s.cancelInjections.chan ch = (s.chan ch).uninjected := by
  unfold State.chan
  rw [cancelInjections_eq, List.getD_eq_getElem?_getD, List.getD_eq_getElem?_getD, List.getElem?_map,
    List.getElem?_eq_getElem h]; rfl

/-! ### Drill cases (R140) -/

/-- One entry of the case table at a cancellation (R140). -/
def State.cancelCase (s : State) (e : Nat) : State := match s.caseAt e with
  | none => s
  | some c => if c.drill
      then (s.setCase e none).caseNotice .cancelled (c.source e) c.drill c.evidence none none else s

theorem cancelCases_eq (s : State) : s.cancelCases = s.forEach (List.range 9) State.cancelCase := rfl

/-- What reads neither the cases nor the notices of the event does not see cases cancelled. -/
theorem cancelCases_leaves {α : Type} (f : State → α) (s : State)
    (hf : ∀ (s : State) x n, f { s with cases := x, work.held := n } = f s := by exact fun _ _ _ => rfl) :
    f s.cancelCases = f s := by
  rw [cancelCases_eq]
  refine forEach_leaves f State.cancelCase (fun t e => ?_) _ s
  unfold State.cancelCase; repeat' split
  · rfl
  · rename_i c _ _
    exact hf t _ ((t.setCase e none).caseNotice .cancelled (c.source e) c.drill c.evidence none none).work.held
  · rfl

theorem cancelCase_length (s : State) (e : Nat) : (s.cancelCase e).cases.length = s.cases.length := by
  unfold State.cancelCase; repeat' split
  · rfl
  · exact List.length_set
  · rfl

/-- A cancellation at one entry closes a drill case there and no other case. -/
theorem cancelCase_caseAt {s : State} {e : Nat} (h : e < s.cases.length) (g : Nat) : (s.cancelCase e).caseAt g =
    if g = e then (s.caseAt e).filter (fun c => !c.drill) else s.caseAt g := by
  by_cases hg : g = e
  · subst hg
    rw [if_pos rfl]
    unfold State.cancelCase; split
    · rename_i hc; rw [hc]; rfl
    · rename_i c hc
      split
      · rename_i hd
        refine (setCase_caseAt_self s g none h).trans ?_
        rw [hc, Option.filter_some, hd]; rfl
      · rename_i hd
        have hf : c.drill = false := by simpa using hd
        rw [hc, Option.filter_some, hf]; rfl
  · rw [if_neg hg]
    unfold State.cancelCase; repeat' split
    · rfl
    · exact setCase_caseAt_ne s none (Ne.symm hg)
    · rfl

/-- A case that is no drill's stays at a cancellation. -/
theorem cancelCases_keeps {s : State} (h : s.cases.length = 9) {e : Nat} {x : Case} (hx : s.caseAt e = some x)
    (hd : x.drill = false) : s.cancelCases.caseAt e = some x := by
  rw [cancelCases_eq]
  refine (forEach_keeps_mem (fun t => t.cases.length = 9 ∧ t.caseAt e = some x) State.cancelCase _ s
    (fun t k hk ht => ⟨(cancelCase_length t k).trans ht.1, ?_⟩) ⟨h, hx⟩).2
  rw [cancelCase_caseAt (ht.1 ▸ List.mem_range.1 hk)]
  split
  · rename_i ek; rw [← ek, ht.2, Option.filter_some, hd]; rfl
  · exact ht.2

/-- After a cancellation no drill case is open. -/
theorem cancelCases_closed {s : State} (h : s.cases.length = 9) : s.cancelCases.drillCaseOpen = false := by
  have hlen : s.cancelCases.cases.length = 9 := by
    rw [cancelCases_eq]
    exact (forEach_leaves (fun t => t.cases.length) State.cancelCase cancelCase_length _ s).trans h
  have hall : ∀ e ∈ List.range 9, ∀ c, s.cancelCases.caseAt e = some c → c.drill = false := by
    rw [cancelCases_eq]
    refine forEach_each (fun t => t.cases.length = 9 ∧ True) (fun e t => ∀ c, t.caseAt e = some c → c.drill = false)
      State.cancelCase (fun t e ht => ⟨(cancelCase_length t e).trans ht.1, trivial⟩) (fun t e ht c hc => ?_)
      (fun t e g ht hq c hc => ?_) _ s ⟨h, trivial⟩
    · by_cases he : e < t.cases.length
      · rw [cancelCase_caseAt he, if_pos rfl] at hc
        simpa using (Option.filter_eq_some_iff.1 hc).2
      · have : (t.cancelCase e).caseAt e = none := by
          unfold State.caseAt
          rw [List.getD_eq_getElem?_getD, List.getElem?_eq_none (by rw [cancelCase_length]; exact Nat.not_lt.1 he)]; rfl
        rw [this] at hc; exact absurd hc (by simp)
    · by_cases he : e < t.cases.length
      · rw [cancelCase_caseAt he] at hc
        split at hc
        · simpa using (Option.filter_eq_some_iff.1 hc).2
        · exact hq c hc
      · have hsame : t.cancelCase e = t := by
          unfold State.cancelCase
          have : t.caseAt e = none := by
            unfold State.caseAt
            rw [List.getD_eq_getElem?_getD, List.getElem?_eq_none (Nat.not_lt.1 he)]; rfl
          rw [this]
        rw [hsame] at hc; exact hq c hc
  unfold State.drillCaseOpen
  refine List.any_eq_false.2 (fun x hx => ?_)
  obtain ⟨e, he, rfl⟩ := List.mem_iff_getElem.1 hx
  split
  · decide
  · rename_i c hc
    have := hall e (List.mem_range.2 (hlen ▸ he)) c (by
      unfold State.caseAt
      rw [List.getD_eq_getElem?_getD, List.getElem?_eq_getElem he]; exact hc)
    rw [this]; decide

/-! ### CANCEL_DRILL (R168) -/

theorem cancelDrillBlock_nothing {s : State} (h1 : s.drillJob = none) (h2 : s.injectionOpen = false)
    (h3 : s.drillCaseOpen = false) : cancelDrillBlock s = s.refuses .notFound .empty :=
  if_pos (by rw [h1, h2, h3]; rfl)

theorem cancelDrillBlock_cancels {s : State} (h : s.drillJob ≠ none ∨ s.injectionOpen = true ∨ s.drillCaseOpen = true) :
    cancelDrillBlock s = (s.cancelDrillJob.cancelInjections.cancelCases, answer .done .empty) := by
  refine if_neg ?_
  rw [Bool.and_eq_true, Bool.and_eq_true, Option.isNone_iff_eq_none, Bool.not_eq_true', Bool.not_eq_true']
  rintro ⟨⟨h1, h2⟩, h3⟩
  rcases h with h | h | h
  · exact h h1
  · rw [h2] at h; exact Bool.false_ne_true h
  · rw [h3] at h; exact Bool.false_ne_true h

/-- What reads neither jobs, channels, cases nor the notices of the event does not see a drill cancelled. -/
theorem cancelled_leaves {α : Type} (f : State → α) (s : State)
    (hiso : ∀ (s : State) x, f { s with iso := x } = f s := by exact fun _ _ => rfl)
    (hsense : ∀ (s : State) x, f { s with sense.channels := x } = f s := by exact fun _ _ => rfl)
    (hcases : ∀ (s : State) x n, f { s with cases := x, work.held := n } = f s := by exact fun _ _ _ => rfl) :
    f s.cancelDrillJob.cancelInjections.cancelCases = f s := by
  rw [cancelCases_leaves f _ hcases, cancelInjections_eq, hsense, cancelDrillJob_leaves f _ hiso]

/-- The job table and the drill report after a cancellation are those of the drill job's. -/
theorem cancelled_iso (s : State) : s.cancelDrillJob.cancelInjections.cancelCases.iso = s.cancelDrillJob.iso := by
  rw [cancelCases_leaves State.iso, cancelInjections_eq]

/-- Settles O39: job, injections and cases are ended each by its rule, and nothing else is touched. -/
theorem cancelDrillEndsDrill : Obligations.CancelDrillEndsDrill := by
  intro s c i hi ho ha
  have hc : i.cmd? = some c := by rw [hi]; rfl
  have hb : blockOf i = cancelDrillBlock := by rw [hi]; rfl
  have hrun := congrFun hb (s.taking i c)
  refine ⟨fun h1 h2 h3 => exec_refused hc ho.atRest ha (hrun.trans (cancelDrillBlock_nothing h1 h2 h3)), fun h => ?_⟩
  have hexec := exec_concluded hc ha (hrun.trans (cancelDrillBlock_cancels (s := s.taking i c) h))
  have hrest := taking_atRest ho.atRest i c
  have hchan : (s.taking i c).chan = s.chan := rfl
  have hcase : (s.taking i c).caseAt = s.caseAt := rfl
  have hjob : (s.taking i c).job? = s.job? := rfl
  have hdrill : (s.taking i c).drillJob = s.drillJob := rfl
  have hiso : (s.taking i c).iso = s.iso := rfl
  have hsense : (s.taking i c).sense = s.sense := rfl
  have hkept : (s.taking i c).branches = s.branches ∧ (s.taking i c).bus = s.bus ∧ (s.taking i c).arb = s.arb ∧
      (s.taking i c).pol = s.pol ∧ (s.taking i c).store = s.store := ⟨rfl, rfl, rfl, rfl, rfl⟩
  have hz := ho.sized
  have hcs : (s.taking i c).cases = s.cases := rfl
  generalize s.taking i c = w at hcs hexec hrest hchan hcase hjob hdrill hiso hsense hkept ⊢
  have hchannels : w.cancelDrillJob.sense.channels.length = 34 := by
    rw [cancelDrillJob_leaves State.sense, hsense]; exact hz.channels
  have hcases : w.cancelDrillJob.cancelInjections.cases.length = 9 := by
    refine (congrArg List.length (cancelDrillJob_leaves State.cases w)).trans ?_
    rw [hcs]; exact hz.cases
  have hnoticed : w.cancelDrillJob.cancelInjections.cancelCases.Noticed := by
    have hbus := cancelled_leaves State.bus w
    refine ⟨by rw [hbus]; exact hrest.reports, by rw [hbus]; exact hrest.granted, ?_, ?_⟩
    · rw [cancelled_leaves (fun s => s.work.due) w]; exact hrest.noticed.due
    · rw [cancelled_leaves (fun s => s.work.after) w]; exact hrest.noticed.after
  refine ⟨_, hexec, ?_, ?_, rfl, fun j hj => ⟨?_, fun n hn => ?_, ?_⟩, fun hj => ?_, ?_, fun ch x hch hx => ?_,
    fun e x hx hd => ?_, ?_, ?_, ?_, ?_, ?_⟩
  · rw [concluded_noticed_leaves State.injectionOpen hnoticed, cancelCases_leaves State.injectionOpen]
    exact cancelInjections_closed _
  · rw [concluded_noticed_leaves State.drillCaseOpen hnoticed]
    exact cancelCases_closed hcases
  · have : w.cancelDrillJob.job? j.id = none := by
      rw [cancelDrillJob_some (hdrill.trans hj)]
      exact (dropJob_job? w j.id j.id).trans (if_pos rfl)
    rw [concluded_noticed_leaves (fun s => s.job? j.id) hnoticed, cancelCases_leaves (fun s => s.job? j.id)]
    exact this
  · have : w.cancelDrillJob.job? n = s.job? n := by
      rw [cancelDrillJob_some (hdrill.trans hj), ← hjob]
      exact (dropJob_job? w j.id n).trans (if_neg hn)
    rw [concluded_noticed_leaves (fun s => s.job? n) hnoticed, cancelCases_leaves (fun s => s.job? n)]
    exact this
  · rw [concluded_noticed_leaves State.iso hnoticed, cancelled_iso, cancelDrillJob_some (hdrill.trans hj), ← hiso]
    have hmap : w.iso.report.entries.map (fun x => if x.outcome = none then { x with outcome := some .missed } else x) =
        w.iso.report.entries.map (fun e => if e.outcome.isNone then { e with outcome := some .missed } else e) :=
      List.map_congr_left (fun x _ => by cases x.outcome <;> rfl)
    rw [hmap]; rfl
  · rw [concluded_noticed_leaves State.iso hnoticed, cancelled_iso, cancelDrillJob_none (hdrill.trans hj), hiso]
  · rw [concluded_noticed_leaves State.sense hnoticed, cancelCases_leaves State.sense,
      ← hsense, ← cancelDrillJob_leaves State.sense w]; rfl
  · rw [concluded_noticed_leaves (fun s => s.chan ch) hnoticed, cancelCases_leaves (fun s => s.chan ch),
      cancelInjections_chan (by rw [hchannels]; exact hch), cancelDrillJob_leaves (fun s => s.chan ch), hchan, hx]
    exact Channel.uninjected_eq _
  · rw [concluded_noticed_leaves (fun s => s.caseAt e) hnoticed]
    refine cancelCases_keeps hcases ?_ hd
    rw [cancelInjections_eq]
    exact (cancelDrillJob_leaves (fun s => s.caseAt e) w).trans ((congrFun hcase e).trans hx)
  · rw [concluded_noticed_leaves State.branches hnoticed, cancelled_leaves State.branches]; exact hkept.1
  · rw [concluded_noticed_leaves State.bus hnoticed, cancelled_leaves State.bus]; exact hkept.2.1
  · rw [concluded_noticed_leaves State.arb hnoticed, cancelled_leaves State.arb]; exact hkept.2.2.1
  · rw [concluded_noticed_leaves State.pol hnoticed, cancelled_leaves State.pol]; exact hkept.2.2.2.1
  · rw [concluded_noticed_leaves State.store hnoticed, cancelled_leaves State.store]; exact hkept.2.2.2.2

end Sys2Proof.Machine

/-! ## ENTER_MAINTENANCE and TRIM_ONCE (R11, R13, R105) -/

namespace Sys2Proof.Machine

-- One after another: side by side the proofs of the whole text take more memory than a check may.
set_option Elab.async false

/-! ### What `State.still` keeps of a change of a branch, and of a hold write -/

/-- A change of one element seen through a view that the change does not look behind. -/
theorem map_modify_map {α : Type} {g f : α → α} (h : ∀ x, g (f x) = g (f (g x))) (hg : ∀ x, g (g x) = g x) :
    ∀ (l : List α) (i : Nat), (l.modify i f).map g = ((l.map g).modify i f).map g
  | [], _ => by simp
  | a :: l, 0 => by simp [h a, hg]
  | a :: l, i + 1 => by simp [hg, map_modify_map h hg l i]

/-- A change of a branch that does not look behind `Branch.still` is the same change of the still state. -/
theorem modBr_of_still {s t : State} (h : s.still = t.still) (p : Position) {f : Branch → Branch}
    (hf : ∀ b, (f b).still = (f b.still).still) : (s.modBr p f).still = (t.modBr p f).still := by
  have hmap (u : State) : (u.branches.modify p f).map Branch.still = (u.still.branches.modify p f).map Branch.still :=
    map_modify_map hf (fun _ => rfl) u.branches p
  have e (u : State) : (u.modBr p f).still = { u.still with branches := (u.still.branches.modify p f).map Branch.still } := by
    rw [← hmap]; rfl
  rw [e, e, h]

/-- What a hold write would carry is read of what `State.still` keeps. -/
theorem requestedRecord_still (s : State) : s.still.requestedRecord = s.requestedRecord := by
  unfold State.requestedRecord
  simp only [State.still, List.map_map]
  rfl

/-- A hold write asked for is the same for states that agree in `State.still`, and so is what is compared. -/
theorem holdIfChanged_of_still {s t x y : State} (h : s.still = t.still) (hx : x.requestedRecord = y.requestedRecord) :
    (s.holdIfChanged x).still = (t.holdIfChanged y).still := by
  have e (u v : State) : (u.holdIfChanged v).still = u.still.holdIfChanged v := by
    unfold State.holdIfChanged State.holdChanged State.askHoldWrite State.beginHoldWrite
    rw [requestedRecord_still]
    split
    · cases hh : u.store.holding with
      | none => rw [show u.still.store.holding = none from hh]; rfl
      | some _ => rw [show u.still.store.holding = some _ from hh]; rfl
    · rfl
  have ex (u : State) : u.holdIfChanged x = u.holdIfChanged y := by
    unfold State.holdIfChanged State.holdChanged; rw [hx]
  rw [e, e, h, ex]

/-- A change of a branch that leaves latch and maintenance flag leaves the requested set. -/
theorem requestedRecord_modBr (s : State) (p : Position) (f : Branch → Branch)
    (hf : ∀ b, (f b).latched = b.latched ∧ (f b).maint = b.maint) : (s.modBr p f).requestedRecord = s.requestedRecord := by
  unfold State.requestedRecord
  show HoldRecord.mk _ ((s.branches.modify p f).map _) ((s.branches.modify p f).map _) _ = _
  rw [map_modify_same (fun b : Branch => b.latched) f (fun b => (hf b).1),
    map_modify_same (fun b : Branch => b.maint) f (fun b => (hf b).2)]
  rfl

theorem requestedRecord_of_still {s t : State} (h : s.still = t.still) : s.requestedRecord = t.requestedRecord := by
  rw [← requestedRecord_still s, h, requestedRecord_still]

/-- A change that leaves the record it changes as it is leaves the part as it is. -/
theorem modBr_of_eq {s : State} {p : Position} {f : Branch → Branch} (h : f (s.br p) = s.br p) : s.modBr p f = s := by
  have e : s.branches.modify p f = s.branches := by
    refine List.ext_getElem (List.length_modify ..) (fun q _ hq => ?_)
    rw [List.getElem_modify]; split
    · rename_i hpq
      subst hpq
      have hb : s.br p = s.branches[p] := by
        unfold State.br; rw [List.getD_eq_getElem?_getD, List.getElem?_eq_getElem hq]; rfl
      exact hb ▸ h
    · rfl
  unfold State.modBr; rw [e]

/-- The end of a running trim leaves of the branch what `Branch.still` keeps, but for the trim (R107). -/
theorem cancelTrim_still (s : State) (p : Position) (c : TrimAbort) :
    (s.cancelTrim p c).still = (s.modBr p (fun b => { b with trim := none })).still := by
  unfold State.cancelTrim; split
  · rw [complete_still]
    have h := modBr_still (s.modBr p (fun b => { b with trim := none })) p
      (fun b => { b with controlTarget := if c = .leftActive then some 0 else b.controlTarget }) (fun _ => rfl)
    rw [modBr_modBr] at h
    exact h
  · rename_i hn
    rw [modBr_of_eq]
    have : (s.br p).trim = none := by simpa using hn
    rw [← this]

theorem cancelTrim_sound {g m : Bool} {s : State} (p : Position) (c : TrimAbort) (h : s.Sound g m) :
    (s.cancelTrim p c).Sound g m := by
  unfold State.cancelTrim; split
  · exact complete_sound _ _ _ (modBr_sound _ _ h)
  · exact h

theorem clearArbiterFields_sound {g m : Bool} {s : State} (p : Position) (h : s.Sound g m) :
    (s.clearArbiterFields p).Sound g m := cancelTrim_sound _ _ (modBr_sound _ _ h)

theorem holdIfChanged_sound {g m : Bool} {s : State} (x : State) (h : s.Sound g m) : (s.holdIfChanged x).Sound g m :=
  h.of_same (holdIfChanged_leaves (fun s => s.link.outbound) (fun _ _ => rfl) s x)
    (holdIfChanged_leaves State.bus (fun _ _ => rfl) s x)

theorem setMaint_sound {g m : Bool} {s : State} (p : Position) (v : Bool) (h : s.Sound g m) : (s.setMaint p v).Sound g m :=
  holdIfChanged_sound _ (modBr_sound _ _ h)

theorem setMaint_branches (s : State) (p : Position) (v : Bool) :
    (s.setMaint p v).branches = (s.modBr p (fun b => { b with maint := v })).branches :=
  holdIfChanged_leaves State.branches (fun _ _ => rfl) _ s

/-- A pending cut of a branch that leaves ACTIVE is gone (R11). -/
theorem clearArbiterFields_cut {s : State} {p : Position} (h : p < s.branches.length) :
    ((s.clearArbiterFields p).br p).cut = none := by
  have h1 := congrArg Branch.cut (modBr_br_self s p (fun b => { b with
    request := 0, urgent := false, stamp := none, riseWaiting := false, cut := none }) h)
  unfold State.clearArbiterFields State.cancelTrim; split
  · rw [br_congr (complete_branches _ _ _ _)]
    refine (modBr_br_field Branch.cut _ p p ?_).trans h1
    exact fun _ => rfl
  · exact h1

/-! ### A pass over a branch that is not ACTIVE (R33, R42) -/

/-- A branch that is not ACTIVE is granted nothing (R33, R34). -/
theorem pass_grant_inactive {s : State} (h : s.branches.length = 24) (l : List Position) (as : List AlertCause) {p : Position}
    (hp : p < 24) (ha : (s.br p).state ≠ .active) : ((s.pass l as).br p).grant = 0 := by
  have hstate : ((s.pass l as).br p).state ≠ .active := by rw [br_state_of_still (pass_still s l as) p]; exact ha
  by_cases hs : (s.pass l as).available < (s.pass l as).floorSum
  · rw [pass_grant_short h hp hs]; exact if_neg hstate
  · have hn : p ∉ (s.pass l as).arb.standing := by
      rw [pass_standing]
      intro hm
      exact hstate (mem_standingOrder.1 hm).2.1
    rw [pass_grant_floor h hp (Nat.not_lt.1 hs) hn]; exact if_neg hstate

/-- A pass leaves a branch that is not ACTIVE its control target. -/
theorem pass_controlTarget_inactive {s : State} (h : s.branches.length = 24) (l : List Position) (as : List AlertCause)
    {p : Position} (hp : p < 24) (ha : (s.br p).state ≠ .active) :
    ((s.pass l as).br p).controlTarget = (s.br p).controlTarget := by
  obtain ⟨t, hstill, ht, hrun⟩ := compareDrives_br s.granted hp
  have hstate : (t.br p).state ≠ .active := by
    rw [br_state_of_still (hstill.trans (granted_still s)) p]; exact ha
  have hkept : (s.granted.forEach Config.positions State.compareDrive).br p = s.granted.br p := by
    rw [hrun]; unfold State.compareDrive; dsimp only; rw [if_pos hstate]; exact ht
  have hstays : ((s.granted.forEach Config.positions State.compareDrive).br p).state ≠ .active := by
    rw [hkept, ← ht]; exact hstate
  have hrises : ((s.granted.forEach Config.positions State.compareDrive).rises Config.positions).br p = s.granted.br p :=
    (rises_br_ne (Or.inr (Or.inl hstays))).trans hkept
  rw [pass_br, risen_br h hp, hrises]
  have h1 := (granted_ungranted s).field p Branch.controlTarget (fun _ => rfl)
  have h2 := fitDraws_field (f := Branch.controlTarget) s p (fun _ => rfl)
  have hw (b : Branch) : b.waiting.controlTarget = b.controlTarget := rfl
  rw [hw, h1, h2]

/-! ### ENTER_MAINTENANCE (R13) -/

theorem enterMaintenanceBlock_range {p : Position} (h : 23 < p) (s : State) :
    enterMaintenanceBlock p s = s.refuses .range .empty := if_pos h

theorem enterMaintenanceBlock_state {s : State} {p : Position} (h : p ≤ 23) (hs : (s.br p).state ≠ .active) :
    enterMaintenanceBlock p s = s.refuses .branchState .empty := (if_neg (Nat.not_lt.2 h)).trans (if_pos hs)

/-- The part before the pass of an ENTER_MAINTENANCE (R11, R13). -/
def State.maintained (s : State) (p : Position) : State :=
  (((s.modBr p (fun b => { b with state := .maintenance })).clearArbiterFields p).shutBranch p).setMaint p true

theorem enterMaintenanceBlock_enters {s : State} {p : Position} (h : p ≤ 23) (hs : (s.br p).state = .active) :
    enterMaintenanceBlock p s = ((s.maintained p).pass [p] [], answer .done .empty) :=
  (if_neg (Nat.not_lt.2 h)).trans (if_neg (not_not_intro hs))

/-- What ENTER_MAINTENANCE writes of a branch record, but for the maintenance flag. -/
def Branch.leftActive (b : Branch) : Branch :=
  { b with state := .maintenance, request := 0, urgent := false, stamp := none, trim := none }

theorem cleared_still (s : State) (p : Position) :
    ((s.modBr p (fun b => { b with state := .maintenance })).clearArbiterFields p).still =
      (s.modBr p Branch.leftActive).still := by
  unfold State.clearArbiterFields
  rw [cancelTrim_still, modBr_modBr, modBr_modBr]
  have h := modBr_still (s.modBr p Branch.leftActive) p (fun b => { b with riseWaiting := false, cut := none }) (fun _ => rfl)
  rw [modBr_modBr] at h
  exact h

theorem maintained_still (s : State) (p : Position) : (s.maintained p).still =
    ((s.modBr p (fun b => { b.leftActive with maint := true })).holdIfChanged s).still := by
  have hshut : (((s.modBr p (fun b => { b with state := .maintenance })).clearArbiterFields p).shutBranch p).still =
      (s.modBr p Branch.leftActive).still := (shutBranch_still _ p).trans (cleared_still s p)
  refine holdIfChanged_of_still ?_ ((requestedRecord_of_still hshut).trans (requestedRecord_modBr s p _ (fun _ => ⟨rfl, rfl⟩)))
  rw [modBr_of_still hshut p (fun _ => rfl), modBr_modBr]

theorem maintained_sound {g m : Bool} {s : State} (p : Position) (h : s.Sound g m) : (s.maintained p).Sound g m :=
  setMaint_sound _ _ (shutBranch_sound _ (clearArbiterFields_sound _ (modBr_sound _ _ h)))

/-- The branch in MAINTENANCE before its pass. -/
theorem maintained_br {s : State} {p : Position} (h : p < s.branches.length) : ((s.maintained p).br p).state = .maintenance ∧
    ((s.maintained p).br p).drive = 0 ∧ ((s.maintained p).br p).cut = none ∧
    ((s.maintained p).br p).controlTarget = some 0 := by
  have hlen : p < ((s.modBr p (fun b => { b with state := .maintenance })).clearArbiterFields p).branches.length := by
    rw [length_of_still (cleared_still s p)]; simpa using h
  obtain ⟨h1, h2, h3⟩ := shutBranch_br hlen
  have field {γ : Type} (f : Branch → γ) (hf : ∀ b : Branch, f { b with maint := true } = f b) : f ((s.maintained p).br p) =
      f ((((s.modBr p (fun b => { b with state := .maintenance })).clearArbiterFields p).shutBranch p).br p) :=
    (congrArg f (br_congr (setMaint_branches _ p true) p)).trans (modBr_br_field f _ p p hf)
  have hstate : ((((s.modBr p (fun b => { b with state := .maintenance })).clearArbiterFields p).shutBranch p).br p).state =
      .maintenance := by
    rw [br_state_of_still ((shutBranch_still _ p).trans (cleared_still s p)) p, modBr_br_self s p _ h]; rfl
  refine ⟨(field Branch.state (fun _ => rfl)).trans hstate, (field Branch.drive (fun _ => rfl)).trans h1,
    (field Branch.cut (fun _ => rfl)).trans (h3.trans (clearArbiterFields_cut (by simpa using h))),
    (field Branch.controlTarget (fun _ => rfl)).trans h2⟩

/-- Settles O31: the branch is MAINTENANCE before its pass, which leaves it drive, cut and control target and grants it
nothing. -/
theorem enterMaintenanceClosesBranch : Obligations.EnterMaintenanceClosesBranch := by
  intro s c p i hi ho ha
  have hc : i.cmd? = some c := by rw [hi]; rfl
  have hb : blockOf i = enterMaintenanceBlock p := by rw [hi]; rfl
  have hrun := congrFun hb (s.taking i c)
  refine ⟨fun h => exec_refused hc ho.atRest ha (hrun.trans (enterMaintenanceBlock_range h _)),
    fun h hs => exec_refused hc ho.atRest ha (hrun.trans (enterMaintenanceBlock_state h hs)), fun v u h hs hv hu => ?_⟩
  have hexec := exec_concluded hc ha (hrun.trans (enterMaintenanceBlock_enters h hs))
  have hp : p < 24 := Nat.lt_of_le_of_lt h (by decide)
  have hlen : (s.taking i c).branches.length = 24 := ho.sized.branches
  obtain ⟨_, _, hsound, hwork⟩ := taking_facts ho i c
  generalize s.taking i c = w at hexec hlen hsound hwork hv hu ⊢
  have hu' : u = (w.maintained p).pass [p] [] := hu
  obtain ⟨b1, b2, b3, b4⟩ := maintained_br (s := w) (p := p) (hlen.symm ▸ hp)
  have hstill := maintained_still w p
  have hlen' : (w.maintained p).branches.length = 24 := by
    rw [length_of_still hstill, holdIfChanged_leaves (fun s => s.branches.length) (fun _ _ => rfl)]; simpa using hlen
  have hwork' : (w.maintained p).work.after = [] := by
    have e : (w.maintained p).work.after = ((w.modBr p (fun b => { b.leftActive with maint := true })).holdIfChanged w).work.after :=
      show (w.maintained p).still.work.after = _ by rw [hstill]; rfl
    rw [e, holdIfChanged_leaves (fun s => s.work.after) (fun _ _ => rfl)]
    exact congrArg Work.after hwork
  have hna : ((w.maintained p).br p).state ≠ .active := by rw [b1]; decide
  obtain ⟨p1, p2⟩ := pass_inactive [p] [] hp hlen' hna
  have p3 := pass_grant_inactive hlen' [p] [] hp hna
  have p4 := pass_controlTarget_inactive hlen' [p] [] hp hna
  have p5 := pass_riseWaiting (s := w.maintained p) [p] [] hp hlen'
  have hend := concluded_still_of hwork' (maintained_sound p hsound) (pass_still (w.maintained p) [p] []) (pass_sound _ _) i c
    (answer .done .empty)
  rw [← hu'] at hexec p1 p2 p3 p4 p5 hend
  refine ⟨p3, p1.trans b2, p2.trans b3, ?_, p4.trans b4, _, hexec, rfl, ?_⟩
  · rw [p5, hu', br_state_of_still (pass_still _ _ _) p]
    exact decide_eq_false (fun e => hna e.1)
  · rw [hend, hstill, hv]; rfl

/-! ### TRIM_ONCE (R105) -/

theorem trimOnceBlock_range {c : Cmd} {p : Position} (h : 23 < p) (s : State) :
    trimOnceBlock c p s = s.refuses .range .empty := if_pos h

theorem trimOnceBlock_state {s : State} {c : Cmd} {p : Position} (h : p ≤ 23)
    (hs : (s.br p).state ≠ .active ∨ (s.br p).limits.mode ≠ .fixed) : trimOnceBlock c p s = s.refuses .branchState .empty :=
  (if_neg (Nat.not_lt.2 h)).trans (if_pos (by simpa using hs))

theorem trimOnceBlock_busy {s : State} {c : Cmd} {p : Position} (h : p ≤ 23) (hs : (s.br p).state = .active)
    (hm : (s.br p).limits.mode = .fixed) (hb : (s.br p).trim ≠ none ∨ s.longInFlight (.trim p) = true) :
    trimOnceBlock c p s = s.refuses .busy .empty :=
  (if_neg (Nat.not_lt.2 h)).trans ((if_neg (by simp [hs, hm])).trans
    (if_pos (by rw [Bool.or_eq_true, Option.isSome_iff_ne_none]; exact hb)))

theorem trimOnceBlock_starts {s : State} {c : Cmd} {p : Position} (h : p ≤ 23) (hs : (s.br p).state = .active)
    (hm : (s.br p).limits.mode = .fixed) (ht : (s.br p).trim = none) (hl : s.longInFlight (.trim p) = false) :
    trimOnceBlock c p s = (s.startTrim p c, answer .pending .empty) :=
  (if_neg (Nat.not_lt.2 h)).trans ((if_neg (by simp [hs, hm])).trans (if_neg (by rw [ht, hl]; exact Bool.false_ne_true)))

/-- An accepted trim: its record and that of the long command, and the settling lost with its notice (R98, R105). -/
theorem startTrim_eq (s : State) (p : Position) (c : Cmd) {v : State}
    (hv : v = (s.recordLong (.trim p) c).modBr p
      (fun b => { b with trim := some ⟨c.src, c.tag, 0⟩, settleRun := 0, settled := false })) :
    s.startTrim p c = if (s.br p).settled then v.notify (.unsettled (v.settleNotice p .trim)) else v := by
  have hset : (((s.recordLong (.trim p) c).modBr p (fun b => { b with trim := some ⟨c.src, c.tag, 0⟩ })).br p).settled =
      (s.br p).settled := modBr_br_field Branch.settled (s.recordLong (.trim p) c) p p (fun _ => rfl)
  unfold State.startTrim State.unsettle; dsimp only
  rw [hset, modBr_modBr, hv]

/-- Settles O33: the refusals by branch and trim, and an accepted trim. -/
theorem trimOnceStartsTrim : Obligations.TrimOnceStartsTrim := by
  intro s c p i hi ho ha
  have hc : i.cmd? = some c := by rw [hi]; rfl
  have hb : blockOf i = trimOnceBlock c p := by rw [hi]; rfl
  have hrun := congrFun hb (s.taking i c)
  refine ⟨fun h => exec_refused hc ho.atRest ha (hrun.trans (trimOnceBlock_range h _)),
    fun h hs => exec_refused hc ho.atRest ha (hrun.trans (trimOnceBlock_state h hs)),
    fun h hs hm hbusy => exec_refused hc ho.atRest ha (hrun.trans (trimOnceBlock_busy h hs hm hbusy)),
    fun v h hs hm ht hl hv => ?_⟩
  have hexec := exec_concluded hc ha (hrun.trans (trimOnceBlock_starts h hs hm ht hl))
  rw [hexec, startTrim_eq (s.taking i c) p c hv]
  rfl

end Sys2Proof.Machine

/-! ## LEAVE_MAINTENANCE (R14) -/

namespace Sys2Proof.Machine

-- One after another: side by side the proofs of the whole text take more memory than a check may.
set_option Elab.async false

/-! ### What `State.still` keeps whole -/

theorem pol_of_still {s t : State} (h : t.still = s.still) : t.pol = s.pol := show t.still.pol = s.still.pol by rw [h]
theorem sense_of_still {s t : State} (h : t.still = s.still) : t.sense = s.sense := show t.still.sense = s.still.sense by rw [h]
theorem cases_of_still {s t : State} (h : t.still = s.still) : t.cases = s.cases := show t.still.cases = s.still.cases by rw [h]
theorem iso_of_still {s t : State} (h : t.still = s.still) : t.iso = s.iso := show t.still.iso = s.still.iso by rw [h]

theorem after_of_still {s t : State} (h : t.still = s.still) : t.work.after = s.work.after :=
  show t.still.work.after = s.still.work.after by rw [h]

/-- A branch record without its stamp and without what a change of drive, a cut or a rise may write. -/
def Branch.posted (b : Branch) : Branch := b.unstamped.undriven

/-- A field that a view shows agrees where the views do. -/
theorem field_of_view {γ : Type} {g : Branch → Branch} (f : Branch → γ) {a b : Branch} (h : g a = g b)
    (e : ∀ x, f (g x) = f x) : f a = f b := by
  rw [← e a, h, e]

/-! ### Draws that are 0 stay 0 in a pass (R32) -/

theorem fitDraws_draw_zero {s : State} {p : Position} (h : (s.br p).draw = 0) : (s.fitDraws.br p).draw = 0 := by
  rw [fitDraws_eq]
  refine forEach_keeps (fun t => (t.br p).draw = 0) State.fitDraw (fun t q ht => ?_) _ s h
  unfold State.fitDraw; split
  · rw [revokeDraw_br]; split
    · rfl
    · exact ht
  · exact ht

/-- A pass leaves the draws of stage 1. -/
theorem pass_draw (s : State) (l : List Position) (as : List AlertCause) (p : Position) :
    ((s.pass l as).br p).draw = (s.fitDraws.br p).draw :=
  ((pass_undriven s l as).field p Branch.draw (fun _ => rfl)).trans ((granted_ungranted s).field p Branch.draw (fun _ => rfl))

theorem pass_draw_zero {s : State} {p : Position} (h : (s.br p).draw = 0) (l : List Position) (as : List AlertCause) :
    ((s.pass l as).br p).draw = 0 := (pass_draw s l as p).trans (fitDraws_draw_zero h)

/-- What reads neither branches nor the arbiter does not see a stamp taken. -/
theorem takeStamp_leaves {α : Type} (f : State → α) (hf : ∀ (s : State) x y, f { s with branches := x, arb := y } = f s)
    (s : State) (p : Position) : f (s.takeStamp p) = f s := by
  have hgive (s : State) (p : Position) : f (s.giveStamp p) = f s := hf s _ (s.giveStamp p).arb
  rcases Nat.lt_or_ge s.arb.nextStamp 4294967295 with h | h
  · rw [takeStamp_below h, hgive]
  · rw [takeStamp_end h, hgive, forEach_leaves f State.giveStamp hgive]
    exact hf s s.branches _

theorem takeStamp_sound {g m : Bool} {s : State} (p : Position) (h : s.Sound g m) : (s.takeStamp p).Sound g m :=
  h.of_same (congrArg Link.outbound (takeStamp_link s p)) (takeStamp_bus s p)

/-! ### A branch that leaves MAINTENANCE (R14) -/

/-- What a closing sequence on the bus does not touch. -/
theorem endClosing_leaves {α : Type} (f : State → α) (hf : ∀ (s : State) b, f { s with bus := b } = f s) (s : State)
    (p : Position) : f (s.endClosing p) = f s := by
  unfold State.endClosing; repeat' split
  · rfl
  · exact hf s _
  · rfl

/-- The branch is drawn nothing, its flag is cleared and a closing sequence on it is over (R14, R91). -/
def State.unmaintained (s : State) (p : Position) : State := ((s.clearDraw p).setMaint p false).endClosing p

/-- What LEAVE_MAINTENANCE writes first of a branch record. -/
def Branch.unmaintained (b : Branch) : Branch := { b with draw := 0, maint := false }

theorem unmaintained_branches (s : State) (p : Position) :
    (s.unmaintained p).branches = (s.modBr p Branch.unmaintained).branches := by
  unfold State.unmaintained
  rw [endClosing_leaves State.branches (fun _ _ => rfl), setMaint_branches]
  show ((s.modBr p (fun b => { b with draw := 0 })).modBr p _).branches = _
  rw [modBr_modBr]; rfl

theorem unmaintained_leaves {α : Type} (f : State → α)
    (hf : ∀ (s : State) x y z, f { s with branches := x, store := y, bus := z } = f s) (s : State) (p : Position) :
    f (s.unmaintained p) = f s := by
  unfold State.unmaintained State.setMaint
  rw [endClosing_leaves f (fun s b => hf s s.branches s.store b),
    holdIfChanged_leaves f (fun s k => hf s s.branches k s.bus)]
  exact (hf (s.clearDraw p) _ s.store s.bus).trans (hf s _ s.store s.bus)

theorem unmaintained_sound {g m : Bool} {s : State} (p : Position) (h : s.Sound g m) : (s.unmaintained p).Sound g m :=
  endClosing_sound _ (setMaint_sound _ _ (clearDraw_sound _ h))

/-- A branch goes to ACTIVE with its entry request and a new stamp, before its valves are moved (R14, R26). -/
def State.entered (s : State) (p : Position) : State :=
  ((s.unmaintained p).modBr p (fun b => { b with state := .active, request := b.limits.entryRequest })).takeStamp p

/-- A branch goes to VACANT, before its valves are moved (R14). -/
def State.vacated (s : State) (p : Position) : State :=
  (s.unmaintained p).modBr p (fun b => { b with state := .vacant })

theorem leaveMaintenance_eq (s : State) (p : Position) : s.leaveMaintenance p =
    if (s.policyOf p).occupied then ((s.entered p).followCurve p).returnRule p else (s.vacated p).shutBranch p := by
  have e : (s.unmaintained p).policyOf p = s.policyOf p := unmaintained_leaves (fun s => s.policyOf p) (fun _ _ _ _ => rfl) s p
  rw [← e]; rfl

/-- What LEAVE_MAINTENANCE leaves of the part beside the branches: policy, channels, cases and jobs. -/
theorem leaveMaintenance_leaves {α : Type} (f : State → α)
    (hf : ∀ (s : State) x y z w, f { s with branches := x, store := y, bus := z, arb := w } = f s)
    (hstill : ∀ s t : State, t.still = s.still → f t = f s) (s : State) (p : Position) :
    f (s.leaveMaintenance p) = f s := by
  have hfirst : f (s.unmaintained p) = f s := unmaintained_leaves f (fun s x y z => hf s x y z s.arb) s p
  rw [leaveMaintenance_eq]
  split
  · rw [hstill _ _ ((returnRule_still _ p).trans (followCurve_still _ p))]
    unfold State.entered
    rw [takeStamp_leaves f (fun s x y => hf s x s.store s.bus y)]
    exact (hf (s.unmaintained p) _ _ _ _).trans hfirst
  · rw [hstill _ _ (shutBranch_still _ p)]
    exact (hf (s.unmaintained p) _ _ _ _).trans hfirst

theorem leaveMaintenance_sound {g m : Bool} {s : State} (p : Position) (h : s.Sound g m) : (s.leaveMaintenance p).Sound g m := by
  rw [leaveMaintenance_eq]
  split
  · exact returnRule_sound _ (followCurve_sound _ (takeStamp_sound _ (modBr_sound _ _ (unmaintained_sound _ h))))
  · exact shutBranch_sound _ (modBr_sound _ _ (unmaintained_sound _ h))

theorem unmaintained_br {s : State} {p : Position} (h : p < s.branches.length) :
    (s.unmaintained p).br p = (s.br p).unmaintained :=
  (br_congr (unmaintained_branches s p) p).trans (modBr_br_self s p _ h)

theorem unmaintained_length (s : State) (p : Position) : (s.unmaintained p).branches.length = s.branches.length := by
  rw [unmaintained_branches]; simp

theorem unmaintained_br_ne (s : State) {p q : Position} (h : q ≠ p) : (s.unmaintained p).br q = s.br q :=
  (br_congr (unmaintained_branches s p) q).trans (modBr_br_ne s _ h.symm)

/-- A field of a branch that the moving of its valves does not write. -/
theorem shutBranch_field {γ : Type} (f : Branch → γ) (hf : ∀ b, f b.undriven = f b) (s : State) (p q : Position) :
    f ((s.shutBranch p).br q) = f (s.br q) := by
  have hc (b : Branch) : f { b with controlTarget := some 0 } = f b := by rw [← hf, ← hf b]; rfl
  rw [br_congr (shutBranch_branches s p), modBr_br_field f _ p q hc]
  exact (setDrive_undriven s p 0).field q f (fun b => hf b)

theorem moved_field {γ : Type} (f : Branch → γ) (hf : ∀ b, f b.undriven = f b) (s : State) (p q : Position) :
    f (((s.followCurve p).returnRule p).br q) = f (s.br q) := by
  have hc (b : Branch) (t : Option Nat) : f { b with controlTarget := t } = f b := by rw [← hf, ← hf b]; rfl
  rw [br_congr ((returnRule_branches _ p).trans (followCurve_branches s p)), modBr_br_field f _ p q (fun b => hc b _)]

/-- An occupied branch enters ACTIVE (R14). -/
theorem leaveMaintenance_occupied {s : State} {p : Position} (h : p < s.branches.length) (ho : (s.policyOf p).occupied = true) :
    ((s.leaveMaintenance p).br p).posted = ({ (s.br p).unmaintained with
      state := .active, request := (s.br p).limits.entryRequest } : Branch).posted ∧
    (s.arb.nextStamp < 4294967295 → ((s.leaveMaintenance p).br p).stamp = some s.arb.nextStamp) := by
  have hlen : p < (s.unmaintained p).branches.length := by rw [unmaintained_length]; exact h
  have hbr := modBr_br_self (s.unmaintained p) p (fun b => { b with state := .active, request := b.limits.entryRequest }) hlen
  rw [unmaintained_br h] at hbr
  have hnext : ((s.unmaintained p).modBr p (fun b => { b with state := .active, request := b.limits.entryRequest })).arb.nextStamp =
      s.arb.nextStamp := unmaintained_leaves (fun s => s.arb.nextStamp) (fun _ _ _ _ => rfl) s p
  rw [leaveMaintenance_eq, if_pos ho]
  refine ⟨?_, fun hn => ?_⟩
  · refine (moved_field Branch.posted (fun _ => rfl) (s.entered p) p p).trans ?_
    refine ((takeStamp_unstamped _ p).field p Branch.posted (fun _ => rfl)).trans ?_
    rw [hbr]; rfl
  · refine (moved_field Branch.stamp (fun _ => rfl) (s.entered p) p p).trans ?_
    unfold State.entered
    rw [takeStamp_below (hnext.symm ▸ hn), giveStamp_br_self (by simpa using hlen), hnext]

/-- A branch without a server enters VACANT (R14). -/
theorem leaveMaintenance_unoccupied {s : State} {p : Position} (h : p < s.branches.length)
    (ho : (s.policyOf p).occupied = false) : ((s.leaveMaintenance p).br p).undriven =
      ({ (s.br p).unmaintained with state := .vacant } : Branch).undriven := by
  have hlen : p < (s.unmaintained p).branches.length := by rw [unmaintained_length]; exact h
  rw [leaveMaintenance_eq, if_neg (by rw [ho]; exact Bool.false_ne_true)]
  refine (shutBranch_field Branch.undriven (fun _ => rfl) (s.vacated p) p p).trans ?_
  unfold State.vacated
  rw [modBr_br_self _ p _ hlen, unmaintained_br h]

/-- The other branches keep all but stamps (R14, R26). -/
theorem leaveMaintenance_others (s : State) {p q : Position} (h : q ≠ p) :
    ((s.leaveMaintenance p).br q).posted = (s.br q).posted := by
  rw [leaveMaintenance_eq]
  split
  · refine (moved_field Branch.posted (fun _ => rfl) (s.entered p) p q).trans ?_
    refine ((takeStamp_unstamped _ p).field q Branch.posted (fun _ => rfl)).trans ?_
    rw [modBr_br_ne _ _ h.symm, unmaintained_br_ne s h]
  · refine (shutBranch_field Branch.posted (fun _ => rfl) (s.vacated p) p q).trans ?_
    unfold State.vacated
    rw [modBr_br_ne _ _ h.symm, unmaintained_br_ne s h]

theorem leaveMaintenanceBlock_range {p : Position} (h : 23 < p) (s : State) :
    leaveMaintenanceBlock p s = s.refuses .range .empty := if_pos h

theorem leaveMaintenanceBlock_state {s : State} {p : Position} (h : p ≤ 23) (hs : (s.br p).state ≠ .maintenance) :
    leaveMaintenanceBlock p s = s.refuses .branchState .empty := (if_neg (Nat.not_lt.2 h)).trans (if_pos hs)

theorem leaveMaintenanceBlock_busy {s : State} {p : Position} (h : p ≤ 23) (hs : (s.br p).state = .maintenance)
    (hb : s.inService p = true) : leaveMaintenanceBlock p s = s.refuses .busy .empty :=
  (if_neg (Nat.not_lt.2 h)).trans ((if_neg (not_not_intro hs)).trans (if_pos hb))

theorem leaveMaintenanceBlock_leaves {s : State} {p : Position} (h : p ≤ 23) (hs : (s.br p).state = .maintenance)
    (hb : s.inService p = false) : leaveMaintenanceBlock p s = ((s.leaveMaintenance p).pass [] [], answer .done .empty) :=
  (if_neg (Nat.not_lt.2 h)).trans ((if_neg (not_not_intro hs)).trans (if_neg (by rw [hb]; exact Bool.false_ne_true)))

/-- Settles O32: the branch before its pass, by its occupancy; its pass and the end of the event leave it. -/
theorem leaveMaintenanceByOccupancy : Obligations.LeaveMaintenanceByOccupancy := by
  intro s c p i hi ho ha
  have hc : i.cmd? = some c := by rw [hi]; rfl
  have hb : blockOf i = leaveMaintenanceBlock p := by rw [hi]; rfl
  have hrun := congrFun hb (s.taking i c)
  refine ⟨fun h => exec_refused hc ho.atRest ha (hrun.trans (leaveMaintenanceBlock_range h _)),
    fun h hs => exec_refused hc ho.atRest ha (hrun.trans (leaveMaintenanceBlock_state h hs)),
    fun h hs hb => exec_refused hc ho.atRest ha (hrun.trans (leaveMaintenanceBlock_busy h hs hb)), fun u h hs hfree hu => ?_⟩
  have hexec := exec_concluded hc ha (hrun.trans (leaveMaintenanceBlock_leaves h hs hfree))
  have hp : p < 24 := Nat.lt_of_le_of_lt h (by decide)
  have hlen : p < (s.taking i c).branches.length := Nat.lt_of_lt_of_eq hp ho.sized.branches.symm
  obtain ⟨hbr, harb, hsound, hwork⟩ := taking_facts ho i c
  have hpolicy : (s.taking i c).policyOf p = s.policyOf p := rfl
  have haside : (s.taking i c).pol = s.pol ∧ (s.taking i c).sense = s.sense ∧ (s.taking i c).cases = s.cases ∧
      (s.taking i c).iso = s.iso := ⟨rfl, rfl, rfl, rfl⟩
  generalize s.taking i c = w at hexec hlen hbr harb hsound hwork hpolicy haside hu ⊢
  have hleaves {α : Type} (f : State → α)
      (hf : ∀ (s : State) x y z w, f { s with branches := x, store := y, bus := z, arb := w } = f s)
      (hstill : ∀ s t : State, t.still = s.still → f t = f s) := leaveMaintenance_leaves f hf hstill w p
  have hafter : (w.leaveMaintenance p).work.after = [] :=
    (hleaves (fun s => s.work.after) (fun _ _ _ _ _ => rfl) (fun _ _ h => after_of_still h)).trans (by rw [hwork]; rfl)
  have hustill : u.still = (w.leaveMaintenance p).still := hu ▸ pass_still _ _ _
  have hend : (u.concluded i c (answer .done .empty)).still = (w.leaveMaintenance p).still :=
    concluded_still_of hafter (leaveMaintenance_sound p hsound) hustill (fun hx => hu ▸ pass_sound _ _ hx) i c _
  have hdraw : ((w.leaveMaintenance p).br p).draw = 0 := by
    cases hocc : (w.policyOf p).occupied with
    | true => exact field_of_view (g := Branch.posted) Branch.draw (leaveMaintenance_occupied hlen hocc).1 (fun _ => rfl)
    | false => exact field_of_view (g := Branch.undriven) Branch.draw (leaveMaintenance_unoccupied hlen hocc) (fun _ => rfl)
  have hmaint : ((w.leaveMaintenance p).br p).maint = false := by
    cases hocc : (w.policyOf p).occupied with
    | true => exact field_of_view (g := Branch.posted) Branch.maint (leaveMaintenance_occupied hlen hocc).1 (fun _ => rfl)
    | false => exact field_of_view (g := Branch.undriven) Branch.maint (leaveMaintenance_unoccupied hlen hocc) (fun _ => rfl)
  rw [← hu] at hexec
  refine ⟨hu ▸ pass_draw_zero hdraw [] [], _, hexec, rfl, hend.trans hustill.symm, ?_, fun q hq => ?_, ?_, ?_, ?_, ?_,
    fun hocc => ⟨?_, ?_, fun hn => ?_⟩, fun hocc => ?_⟩
  · exact (br_field_of_still (f := Branch.maint) hend p (fun _ => rfl)).trans hmaint
  · have hother := leaveMaintenance_others w hq
    rw [← hbr]
    exact ⟨(br_field_of_still (f := Branch.state) hend q (fun _ => rfl)).trans
        (field_of_view (g := Branch.posted) Branch.state hother (fun _ => rfl)),
      (br_field_of_still (f := Branch.request) hend q (fun _ => rfl)).trans
        (field_of_view (g := Branch.posted) Branch.request hother (fun _ => rfl)),
      (br_field_of_still (f := Branch.limits) hend q (fun _ => rfl)).trans
        (field_of_view (g := Branch.posted) Branch.limits hother (fun _ => rfl)),
      (br_field_of_still (f := Branch.maint) hend q (fun _ => rfl)).trans
        (field_of_view (g := Branch.posted) Branch.maint hother (fun _ => rfl))⟩
  · exact (pol_of_still hend).trans ((hleaves State.pol (fun _ _ _ _ _ => rfl) (fun _ _ h => pol_of_still h)).trans haside.1)
  · exact (sense_of_still hend).trans
      ((hleaves State.sense (fun _ _ _ _ _ => rfl) (fun _ _ h => sense_of_still h)).trans haside.2.1)
  · exact (cases_of_still hend).trans
      ((hleaves State.cases (fun _ _ _ _ _ => rfl) (fun _ _ h => cases_of_still h)).trans haside.2.2.1)
  · exact (iso_of_still hend).trans
      ((hleaves State.iso (fun _ _ _ _ _ => rfl) (fun _ _ h => iso_of_still h)).trans haside.2.2.2)
  · exact (br_field_of_still (f := Branch.state) hend p (fun _ => rfl)).trans
      (field_of_view (g := Branch.posted) Branch.state (leaveMaintenance_occupied hlen (hpolicy.symm ▸ hocc)).1 (fun _ => rfl))
  · rw [← hbr]
    exact (br_field_of_still (f := Branch.request) hend p (fun _ => rfl)).trans
      (field_of_view (g := Branch.posted) Branch.request (leaveMaintenance_occupied hlen (hpolicy.symm ▸ hocc)).1 (fun _ => rfl))
  · rw [← harb] at hn ⊢
    exact (br_field_of_still (f := Branch.stamp) hend p (fun _ => rfl)).trans
      ((leaveMaintenance_occupied hlen (hpolicy.symm ▸ hocc)).2 hn)
  · exact (br_field_of_still (f := Branch.state) hend p (fun _ => rfl)).trans
      (field_of_view (g := Branch.undriven) Branch.state (leaveMaintenance_unoccupied hlen (hpolicy.symm ▸ hocc)) (fun _ => rfl))

end Sys2Proof.Machine

/-! ## What a pass does not see (R31), and the draws that fit (R32) -/

namespace Sys2Proof.Machine

-- One after another: side by side the proofs of the whole text take more memory than a check may.
set_option Elab.async false

/-- A view that sees neither the branch records, the arbiter, the work of the event nor the claims of flow control. -/
structure Unsteered {α : Type} (f : State → α) : Prop where
  modBr : ∀ s p g, f (s.modBr p g) = f s
  arb : ∀ (s : State) x, f { s with arb := x } = f s
  work : ∀ (s : State) x, f { s with work := x } = f s
  placeFlow : ∀ s a t, f (State.placeFlow s a t) = f s

namespace Unsteered

variable {α : Type} {f : State → α} (h : Unsteered f)

include h

theorem notify (s : State) (n : Notice) : f (s.notify n) = f s := h.work s _

theorem unsettle (s : State) (p : Position) (c : SettleCause) : f (s.unsettle p c) = f s := by
  have h1 := h.modBr s p (fun b => { b with settleRun := 0, settled := false })
  unfold State.unsettle; dsimp only; split
  · exact (h.notify _ _).trans h1
  · exact h1

theorem returnRule (s : State) (p : Position) : f (s.returnRule p) = f s := by
  unfold State.returnRule; split
  · rfl
  · exact h.placeFlow _ _ _

theorem followCurve (s : State) (p : Position) : f (s.followCurve p) = f s := (h.placeFlow _ _ _).trans (h.modBr _ _ _)

theorem actOnDrive (s : State) (p : Position) : f (s.actOnDrive p) = f s := by
  unfold State.actOnDrive; split
  · exact (h.returnRule _ p).trans (h.followCurve s p)
  · exact h.modBr _ _ _
  · exact h.modBr _ _ _
  · exact h.modBr _ _ _
  · exact h.modBr _ _ _
  · rfl

theorem handOver (s : State) (p : Position) : f (s.handOver p) = f s :=
  (h.actOnDrive _ p).trans ((h.unsettle _ p _).trans (h.modBr _ _ _))

theorem setDrive (s : State) (p : Position) (d : Nat) : f (s.setDrive p d) = f s := by
  unfold State.setDrive; split
  · rfl
  · exact (h.handOver _ p).trans (h.modBr _ _ _)

theorem shutValves (s : State) (p : Position) : f (s.shutValves p) = f s := (h.placeFlow _ _ _).trans (h.placeFlow _ _ _)

theorem shutBranch (s : State) (p : Position) : f (s.shutBranch p) = f s :=
  (h.shutValves _ p).trans ((h.modBr _ _ _).trans (h.setDrive s p 0))

theorem compareDrive (s : State) (p : Position) : f (s.compareDrive p) = f s := by
  unfold State.compareDrive; dsimp only; repeat' split
  all_goals first
    | exact h.modBr _ _ _
    | exact h.setDrive _ _ _
    | rfl

theorem riseRound (level : Branch → Nat) (l : List Position) :
    ∀ x : State × Int, f (l.foldl (riseStep level) x).1 = f x.1 := by
  induction l with
  | nil => exact fun x => rfl
  | cons p l ih =>
    intro x
    rw [List.foldl_cons, ih]
    unfold riseStep; dsimp only; split
    · exact h.setDrive _ _ _
    · rfl

theorem rises (s : State) (ps : List Position) : f (s.rises ps) = f s := by
  unfold State.rises; split
  · rfl
  · exact (h.riseRound _ _ _).trans (h.riseRound _ _ _)

theorem setRiseWaiting (s : State) : f s.setRiseWaiting = f s := forEach_leaves f _ (fun s p => h.modBr s p _) _ s

theorem reexamine (s : State) : f s.reexamine = f s := (h.setRiseWaiting _).trans (h.rises s _)

theorem handDown (l : List Position) : ∀ x : State × Nat, f (l.foldl handDownStep x).1 = f x.1 := by
  induction l with
  | nil => exact fun _ => rfl
  | cons p l ih => exact fun x => (ih _).trans (h.modBr _ _ _)

theorem grantAll (s : State) : f s.grantAll = f s := by
  have hg (g : State → Position → Nat) : f (s.forEach Config.positions (fun s p => s.setGrant p (g s p))) = f s :=
    forEach_leaves f (fun s p => s.setGrant p (g s p)) (fun t p => h.modBr t p _) _ s
  unfold State.grantAll; split
  · exact hg _
  · unfold State.grantInFull
    rw [h.handDown]
    exact hg (fun s p => if (s.br p).state = .active then (s.br p).limits.floor else 0)

theorem warnCut (s : State) (p : Position) : f (s.warnCut p) = f s := by
  unfold State.warnCut; split
  · rfl
  · exact h.notify _ _

theorem demand (s : State) : f s.demand = f s := by
  unfold State.demand; dsimp only; split
  · exact (h.notify _ _).trans (h.arb _ _)
  · exact h.arb _ _

theorem passNotices (s b : State) (l : List Position) (as : List AlertCause) : f (s.passNotices b l as) = f s := by
  unfold State.passNotices; dsimp only
  rw [forEach_leaves f State.alert (fun t c => h.notify t _), h.demand,
    forEach_leaves f (fun s p => s.notify (s.grantNotice p)) (fun t p => h.notify t _), forEach_leaves f State.warnCut h.warnCut]

/-- After stage 1 a pass leaves the view as it was. -/
theorem pass (s : State) (l : List Position) (as : List AlertCause) : f (s.pass l as) = f s.fitDraws := by
  rw [pass_eq]
  unfold State.announced State.risen State.granted State.setQueues
  rw [h.passNotices, h.work, h.arb, h.setRiseWaiting, h.rises, forEach_leaves f State.compareDrive h.compareDrive, h.arb,
    h.grantAll]

end Unsteered

/-! ### The service move, the verify, the closing sequence and the long commands -/

/-- The service move, the verify and the closing sequence of a bus. -/
def Bus.tasks (b : Bus) : Option ServiceMove × Verify × Option Closing := (b.service, b.verify, b.closing)

theorem report_tasks (s : State) (c : Client) (a : ActuatorNo) (k : ReportKind) : (s.report c a k).bus.tasks = s.bus.tasks := by
  unfold State.report; split <;> rfl

theorem sendMove_tasks (s : State) (c : Claim) : (s.sendMove c).bus.tasks = s.bus.tasks := by
  have h : (s.supersede c.actuator).bus.tasks = s.bus.tasks := by
    unfold State.supersede; split
    · rfl
    · exact report_tasks _ _ _ _
  exact h

theorem grantClaim_tasks (s : State) : s.grantClaim.bus.tasks = s.bus.tasks := by
  unfold State.grantClaim; split
  · rfl
  · exact sendMove_tasks _ _
  · exact sendMove_tasks _ _
  · exact sendMove_tasks _ _
  · rfl
  · rfl

theorem grantLine_tasks (s : State) : s.grantLine.bus.tasks = s.bus.tasks := by
  unfold State.grantLine State.grantClear; repeat' split
  · rfl
  · exact grantClaim_tasks _
  · rfl
  · exact grantClaim_tasks s
  · rfl

theorem placeFlow_tasks (s : State) (a : ActuatorNo) (t : Nat) : (s.placeFlow a t).bus.tasks = s.bus.tasks := by
  unfold State.placeFlow; split
  · exact report_tasks _ _ _ _
  · exact grantLine_tasks _

theorem placeSvc_tasks (s : State) (a : ActuatorNo) (t : Nat) (c : Client) : (s.placeSvc a t c).bus.tasks = s.bus.tasks := by
  unfold State.placeSvc; split
  · exact report_tasks _ _ _ _
  · exact grantLine_tasks _

theorem placeFlow_link (s : State) (a : ActuatorNo) (t : Nat) : (s.placeFlow a t).link = s.link := by
  obtain ⟨_, e⟩ := placeFlow_busOnly s a t
  rw [e]

theorem placeSvc_link (s : State) (a : ActuatorNo) (t : Nat) (c : Client) : (s.placeSvc a t c).link = s.link := by
  obtain ⟨_, e⟩ := placeSvc_busOnly s a t c
  rw [e]

/-- What runs as a long command on the bus, and the records of the long commands. -/
def State.tasks (s : State) : (Option ServiceMove × Verify × Option Closing) × List LongRecord := (s.bus.tasks, s.link.longs)

theorem tasks_unsteered : Unsteered State.tasks :=
  ⟨fun _ _ _ => rfl, fun _ _ => rfl, fun _ _ => rfl, fun s a t =>
    Prod.ext (placeFlow_tasks s a t) (congrArg Link.longs (placeFlow_link s a t))⟩

/-! ### Draws that fit (R32) -/

/-- Where the draws fit, stage 1 revokes none. -/
theorem fitDraws_of_fit {s : State} (h : s.DrawsFit) : s.fitDraws = s := by
  have hstep (p : Position) : s.fitDraw p = s := by
    unfold State.fitDraw
    refine if_neg ?_
    rw [Bool.and_eq_true, decide_eq_true_eq]
    exact fun e => absurd e.1 (Nat.not_lt.2 h)
  rw [fitDraws_eq]
  generalize Config.positions.reverse = l
  induction l with
  | nil => rfl
  | cons p l ih =>
    show (s.fitDraw p).forEach l State.fitDraw = s
    rw [hstep]; exact ih

end Sys2Proof.Machine

/-! ## SERVICE_MOVE and CURVE_VERIFY (R85, R87, R88) -/

namespace Sys2Proof.Machine

-- One after another: side by side the proofs of the whole text take more memory than a check may.
set_option Elab.async false

/-! ### The records of long commands stay through a pass (R178) -/

/-- The kinds of the long commands on record. -/
def State.longKinds (s : State) : List LongKind := s.link.longs.map (fun r => r.kind)

theorem longInFlight_iff {s : State} {k : LongKind} : s.longInFlight k = true ↔ k ∈ s.longKinds := by
  unfold State.longInFlight State.longKinds
  rw [List.any_eq_true, List.mem_map]
  exact ⟨fun ⟨r, hr, hk⟩ => ⟨r, hr, of_decide_eq_true hk⟩, fun ⟨r, hr, hk⟩ => ⟨r, hr, decide_eq_true hk⟩⟩

/-- A COMPLETION marks a record and drops none. -/
theorem complete_longKinds (s : State) (k : LongKind) (st : Status) (b : CompletionBody) :
    (s.complete k st b).longKinds = s.longKinds := by
  unfold State.complete; split
  · rfl
  · unfold State.longKinds State.hold
    dsimp only
    rw [List.map_map]
    refine List.map_congr_left (fun r _ => ?_)
    dsimp only [Function.comp]
    split <;> rfl

theorem complete_bus (s : State) (k : LongKind) (st : Status) (b : CompletionBody) : (s.complete k st b).bus = s.bus := by
  unfold State.complete; split <;> rfl

theorem endService_longKinds (s : State) (st : Status) (b : CompletionBody) :
    (s.endService st b).longKinds = s.longKinds := by
  unfold State.endService; split
  · exact complete_longKinds s .service st b
  · rfl

theorem endService_verify (s : State) (st : Status) (b : CompletionBody) :
    (s.endService st b).bus.verify = s.bus.verify := by
  unfold State.endService; split
  · show (s.complete .service st b).bus.verify = _
    rw [complete_bus]
  · rfl

theorem endVerify_longKinds (s : State) (p : Position) (st : VerifyStatus) (v : Bool) :
    (s.endVerify p st v).longKinds = s.longKinds := by
  unfold State.endVerify; dsimp only
  rw [complete_longKinds]
  split
  · exact congrArg (fun l => l.longs.map (fun r => r.kind)) (placeSvc_link _ _ _ _)
  · rfl

theorem longKinds_unsteered : Unsteered State.longKinds :=
  ⟨fun _ _ _ => rfl, fun _ _ => rfl, fun _ _ => rfl, fun s a t =>
    congrArg (fun l => l.longs.map (fun r => r.kind)) (placeFlow_link s a t)⟩

theorem revokeDraw_longKinds (s : State) (p : Position) : (s.revokeDraw p).longKinds = s.longKinds := by
  have hv (t : State) : (if t.verifyOn p then t.endVerify p (.aborted .supplyFall) false else t).longKinds = t.longKinds := by
    split
    · exact endVerify_longKinds _ _ _ _
    · rfl
  unfold State.revokeDraw; dsimp only
  rw [longKinds_unsteered.shutValves, hv]
  split
  · exact endService_longKinds _ _ _
  · rfl

theorem pass_longKinds (s : State) (l : List Position) (as : List AlertCause) : (s.pass l as).longKinds = s.longKinds := by
  rw [longKinds_unsteered.pass, fitDraws_eq]
  refine forEach_leaves State.longKinds State.fitDraw (fun t p => ?_) _ s
  unfold State.fitDraw; split
  · exact revokeDraw_longKinds t p
  · rfl

/-! ### A verify through the pass of its draw (R86, R88) -/

theorem verify_unsteered : Unsteered (fun s => s.bus.verify) :=
  ⟨fun _ _ _ => rfl, fun _ _ => rfl, fun _ _ => rfl, fun s a t => congrArg (fun x => x.2.1) (placeFlow_tasks s a t)⟩

/-- A revocation on another branch leaves a verify. -/
theorem revokeDraw_verify {s : State} {p q : Position} (h : s.bus.verify.branch = some p) (hq : q ≠ p) :
    (s.revokeDraw q).bus.verify = s.bus.verify := by
  have hsvc : (if (s.clearDraw q).serviceBranch = some q then
      (s.clearDraw q).endService .aborted (.aborted (.service .revoked)) else s.clearDraw q).bus.verify = s.bus.verify := by
    split
    · exact endService_verify _ _ _
    · rfl
  have hoff (t : State) (ht : t.bus.verify = s.bus.verify) : t.verifyOn q = false := by
    unfold State.verifyOn
    rw [ht, h]
    exact Bool.and_eq_false_iff.2 (Or.inr (decide_eq_false (fun e => hq (Option.some.inj e).symm)))
  unfold State.revokeDraw; dsimp only
  rw [hoff _ hsvc, if_neg Bool.false_ne_true]
  exact (verify_unsteered.shutValves _ q).trans hsvc

/-- Stage 1 leaves the verify of a branch that holds no draw. -/
theorem fitDraws_verify {s : State} {p : Position} (h : s.bus.verify.branch = some p) (hd : (s.br p).draw = 0) :
    s.fitDraws.bus.verify = s.bus.verify := by
  rw [fitDraws_eq]
  refine (forEach_keeps (fun t => t.bus.verify = s.bus.verify ∧ (t.br p).draw = 0) State.fitDraw (fun t q ht => ?_) _ s
    ⟨rfl, hd⟩).1
  unfold State.fitDraw; split
  · rename_i hq
    have hne : q ≠ p := by
      rintro rfl
      rw [Bool.and_eq_true, decide_eq_true_eq, decide_eq_true_eq] at hq
      exact hq.2 ht.2
    refine ⟨(revokeDraw_verify (by rw [ht.1]; exact h) hne).trans ht.1, ?_⟩
    rw [revokeDraw_br, if_neg hne.symm]; exact ht.2
  · exact ht

/-! ### A draw is set (R85) -/

theorem setDraw_held {s : State} {p : Position} (h : (s.br p).draw ≠ 0) : s.setDraw p = s := if_neg h

/-- A draw of a ceiling that fits: it is set, and the pass revokes it not, nor ends the verify of its branch (R85, R86). -/
theorem setDraw_sets {s : State} {p : Position} (hp : p < s.branches.length) (h : (s.br p).draw = 0)
    (hfit : (s.br p).limits.ceiling ≤ s.available) : ((s.setDraw p).br p).draw = (s.br p).limits.ceiling ∧
      (s.bus.verify.branch = some p → (s.setDraw p).bus.verify = s.bus.verify) := by
  have hset : s.setDraw p = (s.modBr p (fun b => { b with draw := b.limits.ceiling })).pass [] [] := if_pos h
  have hverify : (s.setDraw p).bus.verify = (s.modBr p (fun b => { b with draw := b.limits.ceiling })).fitDraws.bus.verify := by
    rw [hset]; exact verify_unsteered.pass _ [] []
  rw [hverify, hset, pass_draw]
  clear hverify hset
  have hbr := modBr_br_self s p (fun b => { b with draw := b.limits.ceiling }) hp
  rcases Nat.eq_zero_or_pos (s.br p).limits.ceiling with h0 | hpos
  · have hdraw : ((s.modBr p (fun b => { b with draw := b.limits.ceiling })).br p).draw = 0 := by rw [hbr]; exact h0
    exact ⟨(fitDraws_draw_zero hdraw).trans h0.symm, fun hv => fitDraws_verify (by exact hv) hdraw⟩
  · have hdraws : (s.modBr p (fun b => { b with draw := b.limits.ceiling })).draws = s.draws + (s.br p).limits.ceiling := by
      have hs := sumOf_modify (fun b : Branch => b.draw) (fun b => { b with draw := b.limits.ceiling }) s.branches p
        Branch.reset hp
      have hold : (s.branches.getD p Branch.reset).draw = 0 := h
      rw [hold, Nat.add_zero] at hs
      exact hs
    have hfits : (s.modBr p (fun b => { b with draw := b.limits.ceiling })).DrawsFit := by
      unfold State.DrawsFit
      rw [hdraws]
      show s.draws + (s.br p).limits.ceiling ≤ s.budget - s.quarantined
      unfold State.available at hfit
      generalize (s.br p).limits.ceiling = k at hfit hpos ⊢
      omega
    rw [fitDraws_of_fit hfits, hbr]
    exact ⟨rfl, fun _ => rfl⟩

theorem setDraw_longKinds (s : State) (p : Position) : (s.setDraw p).longKinds = s.longKinds := by
  unfold State.setDraw; split
  · exact pass_longKinds _ _ _
  · rfl

theorem setDraw_still (s : State) (p : Position) : (s.setDraw p).still = s.still := by
  unfold State.setDraw; split
  · exact (pass_still _ _ _).trans (modBr_still _ _ _ (fun _ => rfl))
  · rfl

theorem setDraw_sound {g m : Bool} {s : State} (p : Position) (h : s.Sound g m) : (s.setDraw p).Sound g m := by
  unfold State.setDraw; split
  · exact pass_sound _ _ (modBr_sound _ _ h)
  · exact h

end Sys2Proof.Machine

/-! ## SERVICE_MOVE and CURVE_VERIFY (R87, R88) -/

namespace Sys2Proof.Machine

-- One after another: side by side the proofs of the whole text take more memory than a check may.
set_option Elab.async false

/-! ### An accepted service move (R87) -/

theorem placeSvc_br (s : State) (a : ActuatorNo) (t : Nat) (c : Client) (p : Position) : (s.placeSvc a t c).br p = s.br p :=
  br_congr (placeSvc_busOnly s a t c).branches p

theorem placeSvc_longKinds (s : State) (a : ActuatorNo) (t : Nat) (c : Client) :
    (s.placeSvc a t c).longKinds = s.longKinds :=
  congrArg (fun l => l.longs.map (fun r => r.kind)) (placeSvc_link s a t c)

theorem recordLong_longKinds (s : State) (k : LongKind) (c : Cmd) : (s.recordLong k c).longKinds = s.longKinds ++ [k] := by
  unfold State.longKinds State.recordLong; simp

/-- The move is on record, and a closing sequence on the branch is over (R87, R91). -/
def State.serviceBegun (s : State) (c : Cmd) (p : Position) : State := (s.recordLong .service c).endClosing p

/-- The draw of the move is set where it opens a supply valve (R85, R87). -/
def State.serviceDrawn (s : State) (c : Cmd) (p : Position) (a q : Nat) : State :=
  if opensSupply a q then (s.serviceBegun c p).setDraw p else s.serviceBegun c p

theorem startService_eq (s : State) (c : Cmd) (p : Position) (a q : Nat) : s.startService c p a q =
    State.placeSvc { s.serviceDrawn c p a q with bus.service := some ⟨a, q⟩ } a q .service := rfl

/-- What reads neither bus nor link is as it was where a move begins. -/
theorem serviceBegun_leaves {α : Type} (f : State → α) (hb : ∀ (s : State) b, f { s with bus := b } = f s)
    (hl : ∀ (s : State) l, f { s with link := l } = f s) (s : State) (c : Cmd) (p : Position) :
    f (s.serviceBegun c p) = f s := (endClosing_leaves f hb _ p).trans (hl s _)

theorem serviceBegun_longKinds (s : State) (c : Cmd) (p : Position) :
    (s.serviceBegun c p).longKinds = s.longKinds ++ [.service] :=
  (endClosing_leaves State.longKinds (fun _ _ => rfl) _ p).trans (recordLong_longKinds s .service c)

theorem startService_records (s : State) (c : Cmd) (p : Position) (a q : Nat) :
    (s.startService c p a q).bus.service = some ⟨a, q⟩ ∧ (s.startService c p a q).longInFlight .service = true := by
  rw [startService_eq, longInFlight_iff, placeSvc_longKinds]
  refine ⟨congrArg (fun x => x.1) (placeSvc_tasks _ a q .service), ?_⟩
  have h : (s.serviceDrawn c p a q).longKinds = s.longKinds ++ [.service] := by
    unfold State.serviceDrawn; split
    · rw [setDraw_longKinds, serviceBegun_longKinds]
    · exact serviceBegun_longKinds s c p
  show LongKind.service ∈ (s.serviceDrawn c p a q).longKinds
  rw [h]
  exact List.mem_append_right _ List.mem_cons_self

/-- The draw of a move that opens a supply valve (R85). -/
theorem startService_draw {s : State} {c : Cmd} {p : Position} {a q : Nat} (hp : p < s.branches.length)
    (ho : opensSupply a q = true) (hd : (s.br p).draw = 0) (hfit : (s.br p).limits.ceiling ≤ s.available) :
    ((s.startService c p a q).br p).draw = (s.br p).limits.ceiling := by
  have hbr : (s.serviceBegun c p).br p = s.br p := serviceBegun_leaves (fun s => s.br p) (fun _ _ => rfl) (fun _ _ => rfl) s c p
  have hav : (s.serviceBegun c p).available = s.available :=
    serviceBegun_leaves State.available (fun _ _ => rfl) (fun _ _ => rfl) s c p
  have hlen : (s.serviceBegun c p).branches = s.branches :=
    serviceBegun_leaves State.branches (fun _ _ => rfl) (fun _ _ => rfl) s c p
  have hset := (setDraw_sets (s := s.serviceBegun c p) (p := p) (by rw [hlen]; exact hp) (by rw [hbr]; exact hd)
    (by rw [hbr, hav]; exact hfit)).1
  rw [hbr] at hset
  rw [startService_eq, placeSvc_br]
  unfold State.serviceDrawn
  rw [if_pos ho]
  exact hset

/-- Any other move leaves the draw. -/
theorem startService_draw_held {s : State} {c : Cmd} {p : Position} {a q : Nat}
    (h : ¬ (opensSupply a q = true ∧ (s.br p).draw = 0)) : ((s.startService c p a q).br p).draw = (s.br p).draw := by
  have hbr : (s.serviceBegun c p).br p = s.br p := serviceBegun_leaves (fun s => s.br p) (fun _ _ => rfl) (fun _ _ => rfl) s c p
  have hsame : s.serviceDrawn c p a q = s.serviceBegun c p := by
    unfold State.serviceDrawn; split
    · rename_i ho
      exact setDraw_held (by rw [hbr]; exact fun e => h ⟨ho, e⟩)
    · rfl
  rw [startService_eq, placeSvc_br, hsame]
  exact congrArg Branch.draw hbr

theorem startService_still (s : State) (c : Cmd) (p : Position) (a q : Nat) : (s.startService c p a q).still = s.still := by
  have hbegun : (s.serviceBegun c p).still = s.still := (endClosing_still _ p).trans (recordLong_still s _ c)
  rw [startService_eq, placeSvc_still]
  refine (still_bus (s.serviceDrawn c p a q) _ rfl).trans ?_
  unfold State.serviceDrawn; split
  · rw [setDraw_still, hbegun]
  · exact hbegun

theorem startService_sound {g m : Bool} {s : State} (c : Cmd) (p : Position) (a q : Nat) (h : s.Sound g m) :
    (s.startService c p a q).Sound g m := by
  have hbegun : (s.serviceBegun c p).Sound g m :=
    endClosing_sound _ (State.Sound.of_same (t := s.recordLong .service c) h rfl rfl)
  have hdrawn : (s.serviceDrawn c p a q).Sound g m := by
    unfold State.serviceDrawn; split
    · exact setDraw_sound _ hbegun
    · exact hbegun
  rw [startService_eq]
  refine placeSvc_sound _ _ _ ?_
  exact ⟨hdrawn.out, fun e => hdrawn.granted e, fun e => hdrawn.mild e⟩

theorem opensSupply_iff {a q : Nat} : opensSupply a q = true ↔ a < 24 ∧ 20 < q := by
  unfold opensSupply; rw [Bool.and_eq_true, decide_eq_true_eq, decide_eq_true_eq]

theorem noBudget_iff {s : State} {p : Position} : s.noBudget p = true ↔
    (s.br p).draw = 0 ∧ s.available < (s.br p).limits.ceiling := by
  unfold State.noBudget; rw [Bool.and_eq_true, decide_eq_true_eq, decide_eq_true_eq]

theorem serviceMoveBlock_range {c : Cmd} {a q : Nat} (h : 49 < a ∨ 1000 < q) (s : State) :
    serviceMoveBlock c a q s = s.refuses .range .empty := if_pos (by simpa using h)

theorem serviceMoveBlock_reserved {s : State} {c : Cmd} {a q : Nat} (ha : a ≤ 49) (hq : q ≤ 1000)
    (hr : (s.act a).reservedBy ≠ 0) : serviceMoveBlock c a q s = s.refuses .refusedReserved .empty :=
  (if_neg (by simp [ha, hq])).trans (if_pos hr)

/-- SERVICE_MOVE goes by the branch of the actuator. -/
theorem serviceMoveBlock_of {s : State} {c : Cmd} {a q : Nat} (ha : a ≤ 49) (hq : q ≤ 1000)
    (hr : (s.act a).reservedBy = 0) : serviceMoveBlock c a q s = match branchOf a with
      | none => s.refuses .branchState .empty
      | some p =>
        if (s.br p).state ≠ .maintenance then s.refuses .branchState .empty
        else if s.bus.service.isSome || s.longInFlight .service || s.verifyOn p then s.refuses .busy .empty
        else if opensSupply a q && s.noBudget p then s.refuses .noBudget .empty
        else (s.startService c p a q, answer .pending .empty) :=
  (if_neg (by simp [ha, hq])).trans (if_neg (not_not_intro hr))

theorem branchOf_trunk {a : ActuatorNo} (h : 48 ≤ a) : branchOf a = none :=
  (if_neg (Nat.not_lt.2 (Nat.le_trans (by decide) h))).trans (if_neg (Nat.not_lt.2 h))

/-- Settles O34: the refusals in order, then the record, the draw and the claim of the move. -/
theorem serviceMoveStarts : Obligations.ServiceMoveStarts := by
  intro s c a q i hi ho hadm
  have hc : i.cmd? = some c := by rw [hi]; rfl
  have hb : blockOf i = serviceMoveBlock c a q := by rw [hi]; rfl
  have hrun := congrFun hb (s.taking i c)
  refine ⟨fun h => exec_refused hc ho.atRest hadm (hrun.trans (serviceMoveBlock_range h _)),
    fun ha hq hr => exec_refused hc ho.atRest hadm (hrun.trans (serviceMoveBlock_reserved ha hq hr)), fun ha hq hr => ?_⟩
  have hof := hrun.trans (serviceMoveBlock_of (s := s.taking i c) ha hq hr)
  refine ⟨fun h48 => ?_, fun p hown hp => ?_⟩
  · rw [branchOf_trunk h48] at hof
    exact exec_refused hc ho.atRest hadm hof
  · rw [branchOf_own hp hown] at hof; dsimp only at hof
    refine ⟨fun hs => exec_refused hc ho.atRest hadm (hof.trans (if_pos hs)), fun hs hbusy => ?_, fun hs h1 h2 h3 => ?_⟩
    · refine exec_refused hc ho.atRest hadm (hof.trans ((if_neg (not_not_intro hs)).trans (if_pos ?_)))
      rw [Bool.or_eq_true, Bool.or_eq_true, Option.isSome_iff_ne_none, or_assoc]; exact hbusy
    · have hfree : ¬ ((s.taking i c).bus.service.isSome || (s.taking i c).longInFlight .service ||
          (s.taking i c).verifyOn p) = true := by
        rw [Bool.or_eq_true, Bool.or_eq_true, Option.isSome_iff_ne_none]
        rintro ((e | e) | e)
        · exact e h1
        · exact absurd (h2.symm.trans e) Bool.false_ne_true
        · exact absurd (h3.symm.trans e) Bool.false_ne_true
      have hof' := hof.trans ((if_neg (not_not_intro hs)).trans (if_neg hfree))
      have hbr : (s.taking i c).br p = s.br p := rfl
      have hav : (s.taking i c).available = s.available := rfl
      have hlen : p < (s.taking i c).branches.length := Nat.lt_of_lt_of_eq hp ho.sized.branches.symm
      have hsound := taking_sound ho i c
      have hwork : (s.taking i c).work.after = [] := congrArg Work.after ho.atRest.work
      have hends (hd : ¬ (opensSupply a q && (s.taking i c).noBudget p) = true) : exec i s =
          .next (((s.taking i c).startService c p a q).concluded i c (answer .pending .empty)) :=
        exec_concluded hc hadm (hof'.trans (if_neg hd))
      have hrefuse (hd : (opensSupply a q && (s.taking i c).noBudget p) = true) :=
        exec_refused hc ho.atRest hadm (hof'.trans (if_pos hd))
      clear hof hof' hrun
      generalize s.taking i c = w at hbr hav hlen hsound hwork hends hrefuse ⊢
      have hstill := concluded_still_of hwork hsound (startService_still w c p a q) (startService_sound c p a q) i c
        (answer .pending .empty)
      obtain ⟨r1, r2⟩ := startService_records w c p a q
      refine ⟨fun hlt hq20 hd hno => hrefuse ?_, fun u h hfit hu => ?_, fun u h hu => ?_⟩
      · rw [Bool.and_eq_true, opensSupply_iff, noBudget_iff, hbr, hav]; exact ⟨⟨hlt, hq20⟩, hd, hno⟩
      · have hopen : opensSupply a q = true := opensSupply_iff.2 ⟨h.1, h.2.1⟩
        have hok : ¬ (opensSupply a q && w.noBudget p) = true := by
          rw [Bool.and_eq_true, noBudget_iff, hbr, hav]
          exact fun e => absurd e.2.2 (Nat.not_lt.2 hfit)
        have hdraw := startService_draw (c := c) hlen hopen (by rw [hbr]; exact h.2.2) (by rw [hbr, hav]; exact hfit)
        rw [hbr] at hdraw
        rw [← hu] at hdraw r1 r2 hstill
        exact ⟨r1, r2, fun _ _ _ => hdraw, _, hu ▸ hends hok, rfl, hstill⟩
      · have hno : ¬ (opensSupply a q = true ∧ (w.br p).draw = 0) := by
          rw [opensSupply_iff, hbr, and_assoc]; exact h
        have hok : ¬ (opensSupply a q && w.noBudget p) = true := by
          rw [Bool.and_eq_true, noBudget_iff]
          exact fun e => hno ⟨e.1, e.2.1⟩
        have hdraw := startService_draw_held (c := c) hno
        rw [hbr] at hdraw
        rw [← hu] at hdraw r1 r2 hstill
        exact ⟨r1, r2, hdraw, _, hu ▸ hends hok, rfl, hstill⟩

/-! ### An accepted curve verify (R88) -/

/-- The verify is on record before its draw (R88). -/
def State.verifyBegun (s : State) (c : Cmd) (p : Position) : State :=
  { s.recordLong .verify c with bus.verify := s.newVerify p }

theorem startVerify_eq (s : State) (c : Cmd) (p : Position) :
    s.startVerify c p = ((s.verifyBegun c p).setDraw p).placeSvc (returnOf p) 1000 .verify := rfl

theorem verifyBegun_br (s : State) (c : Cmd) (p q : Position) : (s.verifyBegun c p).br q = s.br q := rfl
theorem verifyBegun_available (s : State) (c : Cmd) (p : Position) : (s.verifyBegun c p).available = s.available := rfl
theorem verifyBegun_branches (s : State) (c : Cmd) (p : Position) : (s.verifyBegun c p).branches = s.branches := rfl
theorem verifyBegun_verify (s : State) (c : Cmd) (p : Position) : (s.verifyBegun c p).bus.verify = s.newVerify p := rfl

/-- The record, the draw and the long command of a verify that starts (R85, R88). -/
theorem startVerify_facts {s : State} {c : Cmd} {p : Position} (hp : p < s.branches.length)
    (h : (s.br p).draw ≠ 0 ∨ (s.br p).limits.ceiling ≤ s.available) :
    (s.startVerify c p).bus.verify = s.newVerify p ∧ (s.startVerify c p).longInFlight .verify = true ∧
    ((s.startVerify c p).br p).draw = (if (s.br p).draw = 0 then (s.br p).limits.ceiling else (s.br p).draw) := by
  have hlong : (s.startVerify c p).longInFlight .verify = true := by
    rw [longInFlight_iff, startVerify_eq, placeSvc_longKinds, setDraw_longKinds]
    show LongKind.verify ∈ (s.recordLong .verify c).longKinds
    rw [recordLong_longKinds]
    exact List.mem_append_right _ List.mem_cons_self
  have hverify : (s.startVerify c p).bus.verify = ((s.verifyBegun c p).setDraw p).bus.verify :=
    congrArg (fun x => x.2.1) (placeSvc_tasks ((s.verifyBegun c p).setDraw p) (returnOf p) 1000 .verify)
  have hbr : (s.startVerify c p).br p = ((s.verifyBegun c p).setDraw p).br p := placeSvc_br _ _ _ _ _
  rw [hverify, hbr]
  by_cases hd : (s.br p).draw = 0
  · have hfit : (s.br p).limits.ceiling ≤ s.available := h.resolve_left (not_not_intro hd)
    obtain ⟨h1, h2⟩ := setDraw_sets (s := s.verifyBegun c p) (p := p) (by rw [verifyBegun_branches]; exact hp)
      (by rw [verifyBegun_br]; exact hd) (by rw [verifyBegun_br, verifyBegun_available]; exact hfit)
    exact ⟨h2 rfl, hlong, by rw [if_pos hd, h1, verifyBegun_br]⟩
  · rw [setDraw_held (s := s.verifyBegun c p) (p := p) (by rw [verifyBegun_br]; exact hd)]
    exact ⟨rfl, hlong, by rw [if_neg hd, verifyBegun_br]⟩

theorem startVerify_still (s : State) (c : Cmd) (p : Position) : (s.startVerify c p).still = s.still := by
  rw [startVerify_eq, placeSvc_still, setDraw_still]
  exact (still_bus (s.recordLong .verify c) _ rfl).trans (recordLong_still s _ c)

theorem startVerify_sound {g m : Bool} {s : State} (c : Cmd) (p : Position) (h : s.Sound g m) : (s.startVerify c p).Sound g m := by
  rw [startVerify_eq]
  refine placeSvc_sound _ _ _ (setDraw_sound _ ?_)
  exact ⟨h.out, fun e => h.granted e, fun e => h.mild e⟩

theorem curveVerifyBlock_range {c : Cmd} {p : Position} (h : 23 < p) (s : State) :
    curveVerifyBlock c p s = s.refuses .range .empty := if_pos h

theorem curveVerifyBlock_reserved {s : State} {c : Cmd} {p : Position} (h : p ≤ 23)
    (hr : (s.act (supplyOf p)).reservedBy ≠ 0 ∨ (s.act (returnOf p)).reservedBy ≠ 0) :
    curveVerifyBlock c p s = s.refuses .refusedReserved .empty :=
  (if_neg (Nat.not_lt.2 h)).trans (if_pos (by simpa using hr))

/-- CURVE_VERIFY of a branch whose actuators are free. -/
theorem curveVerifyBlock_of {s : State} {c : Cmd} {p : Position} (h : p ≤ 23) (h1 : (s.act (supplyOf p)).reservedBy = 0)
    (h2 : (s.act (returnOf p)).reservedBy = 0) : curveVerifyBlock c p s =
      if (s.br p).state ≠ .maintenance then s.refuses .branchState .empty
      else if s.bus.verify.status = .running || s.longInFlight .verify || s.closingOpen then s.refuses .busy .empty
      else if s.serviceBranch = some p then s.refuses .busy .empty
      else if s.noBudget p then s.refuses .noBudget .empty
      else (s.startVerify c p, answer .pending .empty) :=
  (if_neg (Nat.not_lt.2 h)).trans (if_neg (by simp [h1, h2]))

/-- Settles O35: the refusals in order, then the record, the draw and the claim of the verify. -/
theorem curveVerifyStarts : Obligations.CurveVerifyStarts := by
  intro s c p i busy hi ho hadm hbusy
  have hc : i.cmd? = some c := by rw [hi]; rfl
  have hb : blockOf i = curveVerifyBlock c p := by rw [hi]; rfl
  have hrun := congrFun hb (s.taking i c)
  refine ⟨fun h => exec_refused hc ho.atRest hadm (hrun.trans (curveVerifyBlock_range h _)),
    fun h hr => exec_refused hc ho.atRest hadm (hrun.trans (curveVerifyBlock_reserved h hr)), fun h h1 h2 => ?_⟩
  have hof := hrun.trans (curveVerifyBlock_of (s := s.taking i c) h h1 h2)
  refine ⟨fun hs => exec_refused hc ho.atRest hadm (hof.trans (if_pos hs)), fun hs hy => ?_, fun hs hy hd hno => ?_,
    fun u hs hy hfit hu => ?_⟩
  · have hof' := hof.trans (if_neg (not_not_intro hs))
    by_cases hfirst : ((s.taking i c).bus.verify.status = .running || (s.taking i c).longInFlight .verify ||
        (s.taking i c).closingOpen) = true
    · exact exec_refused hc ho.atRest hadm (hof'.trans (if_pos hfirst))
    · refine exec_refused hc ho.atRest hadm (hof'.trans ((if_neg hfirst).trans (if_pos ?_)))
      rw [Bool.or_eq_true, Bool.or_eq_true, decide_eq_true_eq, or_assoc] at hfirst
      rcases hbusy.1 hy with e | e | e | e
      · exact absurd (Or.inl e) hfirst
      · exact absurd (Or.inr (Or.inl e)) hfirst
      · exact absurd (Or.inr (Or.inr e)) hfirst
      · exact e
  all_goals
    have hfirst : ¬ ((s.taking i c).bus.verify.status = .running || (s.taking i c).longInFlight .verify ||
        (s.taking i c).closingOpen) = true := by
      rw [Bool.or_eq_true, Bool.or_eq_true, decide_eq_true_eq, or_assoc]
      rintro (e | e | e)
      · exact hy (hbusy.2 (Or.inl e))
      · exact hy (hbusy.2 (Or.inr (Or.inl e)))
      · exact hy (hbusy.2 (Or.inr (Or.inr (Or.inl e))))
    have hsecond : ¬ (s.taking i c).serviceBranch = some p := fun e => hy (hbusy.2 (Or.inr (Or.inr (Or.inr e))))
    have hof' := hof.trans ((if_neg (not_not_intro hs)).trans ((if_neg hfirst).trans (if_neg hsecond)))
  · exact exec_refused hc ho.atRest hadm (hof'.trans (if_pos (noBudget_iff.2 ⟨hd, hno⟩)))
  · have hok : ¬ (s.taking i c).noBudget p = true := by
      rw [noBudget_iff]
      rintro ⟨e1, e2⟩
      rcases hfit with e | e
      · exact e e1
      · exact absurd e2 (Nat.not_lt.2 e)
    have hexec := exec_concluded hc hadm (hof'.trans (if_neg hok))
    have hlen : p < (s.taking i c).branches.length :=
      Nat.lt_of_lt_of_eq (Nat.lt_of_le_of_lt h (by decide)) ho.sized.branches.symm
    have hwork : (s.taking i c).work.after = [] := congrArg Work.after ho.atRest.work
    have hstill := concluded_still_of hwork (taking_sound ho i c)
      (startVerify_still (s.taking i c) c p) (startVerify_sound c p) i c (answer .pending .empty)
    obtain ⟨f1, f2, f3⟩ := startVerify_facts (s := s.taking i c) (c := c) hlen hfit
    rw [← hu] at hexec hstill f1 f2 f3
    exact ⟨f1, f2, f3, _, hexec, rfl, hstill⟩

end Sys2Proof.Machine

/-! ## The deadlines of jobs (R149, R155, R158, R167) -/

namespace Sys2Proof.Machine

-- One after another: side by side the proofs of the whole text take more memory than a check may.
set_option Elab.async false

/-! ### The job with an id -/

theorem job?_of_slots {s t : State} (h : t.iso.slots = s.iso.slots) (n : JobId) : t.job? n = s.job? n := by
  unfold State.job? State.jobs; rw [h]

/-- A change of the job with an id, under a function that keeps ids. -/
theorem modJob_job? (s : State) (i n : JobId) {f : Job → Job} (hf : ∀ j, (f j).id = j.id) :
    (s.modJob i f).job? n = if n = i then (s.job? n).map f else s.job? n := by
  unfold State.job?
  rw [modJob_jobs, List.find?_map]
  have hid (j : Job) : (if j.id = i then f j else j).id = j.id := by
    split
    · exact hf j
    · rfl
  have hp : (fun j : Job => decide (j.id = n)) ∘ (fun j => if j.id = i then f j else j) = fun j : Job => decide (j.id = n) :=
    funext fun j => congrArg (fun k => decide (k = n)) (hid j)
  rw [hp]
  cases e : s.jobs.find? (fun j => decide (j.id = n)) with
  | none => split <;> rfl
  | some j =>
    have hj : j.id = n := by simpa using List.find?_some e
    rw [Option.map_some, hj]
    split <;> rfl

/-- Every job with an id has a property. -/
def State.JobIs (s : State) (n : JobId) (P : Job → Prop) : Prop := ∀ k, s.job? n = some k → P k

namespace State.JobIs

variable {s t : State} {n : JobId} {P Q : Job → Prop}

theorem of_slots (h : s.JobIs n P) (e : t.iso.slots = s.iso.slots) : t.JobIs n P :=
  fun k hk => h k ((job?_of_slots e n).symm.trans hk)

theorem of_still (h : s.JobIs n P) (e : t.still = s.still) : t.JobIs n P := h.of_slots (slots_of_still e)

theorem imp (h : s.JobIs n P) (hq : ∀ k, P k → Q k) : s.JobIs n Q := fun k hk => hq k (h k hk)

/-- A change of the job itself. -/
theorem modJob {f : Job → Job} (h : s.JobIs n P) (hid : ∀ j, (f j).id = j.id) (hf : ∀ k, P k → Q (f k)) :
    (s.modJob n f).JobIs n Q := by
  intro k hk
  rw [modJob_job? s n n hid, if_pos rfl] at hk
  obtain ⟨j, hj, rfl⟩ := Option.map_eq_some_iff.1 hk
  exact hf j (h j hj)

theorem setPhase (ph : Phase) (d : Option Time) (h : s.JobIs n P)
    (hf : ∀ k, P k → Q { k with phase := ph, deadline := d, armed := false }) : (s.setPhase n ph d).JobIs n Q :=
  h.modJob (f := fun k => { k with phase := ph, deadline := d, armed := false }) (fun _ => rfl) hf

theorem each {α : Type} {f : State → α → State} (l : List α) (h : s.JobIs n P)
    (hf : ∀ s a, (f s a).iso.slots = s.iso.slots) : (s.forEach l f).JobIs n P :=
  h.of_slots (forEach_leaves (fun s => s.iso.slots) f hf l s)

end State.JobIs

theorem placeIso_slots (s : State) (a : ActuatorNo) (t : Nat) (c : Client) : (s.placeIso a t c).iso.slots = s.iso.slots :=
  slots_of_still (placeIso_still s a t c)

/-! ### The end of NOTIFY (R149) -/

/-- A job with no warning left open, past NOTIFY. -/
def Job.Told (k : Job) : Prop := k.warningOpen = false ∧ k.phase ≠ .notify

theorem warningOpen_of_targets {j k : Job} (h : k.targets.map (fun t => t.warning) = j.targets.map (fun t => t.warning)) :
    k.warningOpen = j.warningOpen := by
  have e (x : Job) : x.warningOpen = (x.targets.map (fun t => t.warning)).any (fun w => w = .opened) := by
    unfold Job.warningOpen; rw [List.any_map]; rfl
  rw [e, e, h]

namespace State.JobIs

variable {s t : State} {n : JobId}

theorem told_setPhase {ph : Phase} (d : Option Time) (hp : ph ≠ .notify) (h : s.JobIs n Job.Told) :
    (s.setPhase n ph d).JobIs n Job.Told := h.setPhase ph d (fun _ hk => ⟨hk.1, hp⟩)

theorem told_checkReturns (h : s.JobIs n Job.Told) : (s.checkReturns n).JobIs n Job.Told := by
  unfold State.checkReturns; repeat' split
  · exact h
  · exact h.told_setPhase none (by decide)
  · exact h

theorem told_enterCloseReturn (h : s.JobIs n Job.Told) : (s.enterCloseReturn n).JobIs n Job.Told := by
  have h1 : ((s.setPhase n .closeReturn none).modJob n (fun j => { j with
      targets := j.targets.map (fun t => { t with ret := t.ret.retried })
      trunk := j.trunk.map (fun k => { k with ret := k.ret.retried }) })).JobIs n Job.Told := by
    refine (h.told_setPhase none (by decide)).modJob (fun _ => rfl) (fun k hk => ⟨?_, hk.2⟩)
    refine Eq.trans (warningOpen_of_targets ?_) hk.1
    dsimp only
    rw [List.map_map]; rfl
  unfold State.enterCloseReturn; dsimp only; split
  · exact h1
  · refine told_checkReturns (each _ ?_ (fun s t => placeIso_slots _ _ _ _))
    split
    · exact h1.of_slots (placeIso_slots _ _ _ _)
    · exact h1

theorem told_enterDrain (h : s.JobIs n Job.Told) : (s.enterDrain n).JobIs n Job.Told := by
  unfold State.enterDrain; dsimp only; split
  · exact told_enterCloseReturn (h.told_setPhase _ (by decide))
  · exact h.told_setPhase _ (by decide)

theorem told_enterUncontained (h : s.JobIs n Job.Told) : (s.enterUncontained n).JobIs n Job.Told := by
  have h1 := h.told_setPhase (ph := .uncontained) (some (s.now + Config.retryWait)) (by decide)
  unfold State.enterUncontained State.tellUncontained; split
  · exact h1
  · exact h1.of_slots rfl

theorem told_checkSupply (h : s.JobIs n Job.Told) : (s.checkSupply n).JobIs n Job.Told := by
  unfold State.checkSupply; repeat' split
  · exact h
  · exact told_enterDrain h
  · exact told_enterUncontained h
  · exact h

theorem told_closeSupplies (j : Job) (h : s.JobIs n Job.Told) : (s.closeSupplies n j).JobIs n Job.Told := by
  unfold State.closeSupplies; dsimp only
  refine told_checkSupply (each _ ?_ (fun s t => placeIso_slots _ _ _ _))
  split
  · exact h.of_slots (placeIso_slots _ _ _ _)
  · exact h

end State.JobIs

/-- A job without an open warning that enters CLOSE_SUPPLY has left NOTIFY (R151). -/
theorem told_enterCloseSupply {s : State} {n : JobId} (h : s.JobIs n (fun k => k.warningOpen = false)) :
    (s.enterCloseSupply n).JobIs n Job.Told := by
  cases hj : s.job? n with
  | none =>
    rw [enterCloseSupply_none hj]
    exact fun k hk => absurd (hj.symm.trans hk) (by simp)
  | some j =>
    rw [enterCloseSupply_some hj]
    refine State.JobIs.told_closeSupplies j ?_
    have h1 : (s.latch j).JobIs n (fun k => k.warningOpen = false) := h.of_slots (latch_slots s j)
    have h2 : ((s.latch j).setPhase n .closeSupply none).JobIs n Job.Told := h1.setPhase _ _ (fun k hk => ⟨hk, by simp⟩)
    exact h2.of_slots (holdIfChanged_leaves (fun s => s.iso.slots) (fun _ _ => rfl) _ s)

/-- The warnings of a job are over (R149). -/
def Job.expired (j : Job) : Job :=
  { j with targets := j.targets.map (fun t => if t.warning = .opened then { t with warning := .expired } else t) }

theorem Job.expired_warningOpen (j : Job) : j.expired.warningOpen = false := by
  unfold Job.expired Job.warningOpen
  refine List.any_eq_false.2 (fun t ht => ?_)
  obtain ⟨x, _, rfl⟩ := List.mem_map.1 ht
  split
  · simp
  · rename_i h; simpa using h

theorem endNotify_some {s : State} {n : JobId} {j : Job} (h : s.job? n = some j) : s.endNotify n =
    if j.drill then (s.modJob n Job.expired).enterSimulate j.expired else (s.modJob n Job.expired).enterCloseSupply n := by
  have hj : (s.modJob n Job.expired).job? n = some j.expired := by
    rw [modJob_job? s n n (f := Job.expired) (fun _ => rfl), if_pos rfl, h]; rfl
  have e : s.endNotify n = match (s.modJob n Job.expired).job? n with
    | none => s.modJob n Job.expired
    | some k => if k.drill then (s.modJob n Job.expired).enterSimulate k else (s.modJob n Job.expired).enterCloseSupply n := rfl
  rw [e, hj]; rfl

/-- A drill job that enters SIMULATE waits its drain delay (R167). -/
theorem enterSimulate_job {s : State} {n : JobId} {j : Job} (h : s.job? n = some j) (hj : j.id = n) :
    (s.enterSimulate j).job? n =
      some { j with phase := .simulate, deadline := some (s.now + 1000 * j.drainDelay.getD 0), armed := false } := by
  have hslots : (s.forEach j.targets State.noteSilent).iso.slots = s.iso.slots :=
    forEach_leaves (fun s => s.iso.slots) State.noteSilent noteSilent_slots j.targets s
  have hjob := (job?_of_slots hslots n).trans h
  rw [enterSimulate_eq]
  refine (modJob_job? _ j.id n ?_).trans ?_
  · exact fun _ => rfl
  · rw [if_pos hj.symm, hjob]; rfl

/-- NOTIFY has ended: no warning is open, and a drill stands in SIMULATE (R149, R167). -/
theorem endNotify_job {s : State} {n : JobId} {j : Job} (h : s.job? n = some j) :
    (s.endNotify n).JobIs n Job.Told ∧ (j.drill = true → (s.endNotify n).JobIs n (fun k =>
      k.phase = .simulate ∧ k.deadline = some (s.now + 1000 * j.drainDelay.getD 0))) := by
  have hid : j.id = n := (job?_some h).2
  have hj : (s.modJob n Job.expired).job? n = some j.expired := by
    rw [modJob_job? s n n (f := Job.expired) (fun _ => rfl), if_pos rfl, h]; rfl
  rw [endNotify_some h]
  cases hd : j.drill with
  | true =>
    rw [if_pos rfl]
    have hsim := enterSimulate_job hj hid
    refine ⟨fun k hk => ?_, fun _ k hk => ?_⟩
    · obtain rfl := Option.some.inj (hsim.symm.trans hk)
      exact ⟨j.expired_warningOpen, by simp⟩
    · obtain rfl := Option.some.inj (hsim.symm.trans hk)
      exact ⟨rfl, rfl⟩
  | false =>
    rw [if_neg Bool.false_ne_true]
    refine ⟨told_enterCloseSupply (fun k hk => ?_), fun e => absurd e Bool.false_ne_true⟩
    obtain rfl := Option.some.inj (hj.symm.trans hk)
    exact j.expired_warningOpen

/-! ### The end of DRAIN (R155) -/

/-- A job that closes its return side, or has nothing of it left to close. -/
theorem enterCloseReturn_job (s : State) (n : JobId) : (s.enterCloseReturn n).JobIs n (fun k =>
    k.phase = .closeReturn ∨ (k.phase = .confirm ∧ k.returnPending = false)) := by
  have h1 : ((s.setPhase n .closeReturn none).modJob n (fun j => { j with
      targets := j.targets.map (fun t => { t with ret := t.ret.retried })
      trunk := j.trunk.map (fun k => { k with ret := k.ret.retried }) })).JobIs n (fun k => k.phase = .closeReturn) := by
    have h0 : s.JobIs n (fun _ => True) := fun _ _ => trivial
    exact (h0.setPhase .closeReturn none (Q := fun k => k.phase = .closeReturn) (fun _ _ => rfl)).modJob
      (fun _ => rfl) (fun _ hk => hk)
  have hcheck (t : State) (ht : t.JobIs n (fun k => k.phase = .closeReturn)) : (t.checkReturns n).JobIs n (fun k =>
      k.phase = .closeReturn ∨ (k.phase = .confirm ∧ k.returnPending = false)) := by
    unfold State.checkReturns; split
    · exact ht.imp (fun _ => Or.inl)
    · rename_i j hj
      split
      · rename_i hc
        rw [Bool.and_eq_true, Bool.not_eq_true'] at hc
        have hr : t.JobIs n (fun k => k.returnPending = false) := fun k hk =>
          Option.some.inj (hj.symm.trans hk) ▸ hc.2
        exact hr.setPhase .confirm none (fun k hk => Or.inr ⟨rfl, hk⟩)
      · exact ht.imp (fun _ => Or.inl)
  unfold State.enterCloseReturn; dsimp only; split
  · exact h1.imp (fun _ => Or.inl)
  · refine hcheck _ (State.JobIs.each _ ?_ (fun s t => placeIso_slots _ _ _ _))
    split
    · exact h1.of_slots (placeIso_slots _ _ _ _)
    · exact h1

/-! ### The retry of failed closes (R158) -/

/-- A failed supply-side close is the trunk's or a target's. -/
theorem mem_failedSupply {j : Job} {x : ActuatorNo × FaultCode} : x ∈ j.failedSupply ↔
    (∃ k, j.trunk = some k ∧ k.supply = .failed x.2 ∧ x.1 = 48) ∨
    ∃ t ∈ j.targets, t.supply = .failed x.2 ∧ x.1 = supplyOf t.pos := by
  obtain ⟨a, f⟩ := x
  unfold Job.failedSupply
  rw [List.mem_append, List.mem_filterMap]
  refine or_congr ?_ (exists_congr fun t => and_congr_right fun _ => ?_)
  · cases j.trunk with
    | none => simp
    | some k =>
      obtain ⟨supply, ret⟩ := k
      cases supply <;> simp [and_comm, eq_comm]
  · cases ht : t.supply <;> simp [and_comm, eq_comm]

/-- The failed supply-side closes of a job are all for actuators of a list. -/
def Job.FailsWithin (l : List ActuatorNo) (j : Job) : Prop :=
  (∀ t ∈ j.targets, t.pos < 24) ∧ ∀ x ∈ j.failedSupply, x.1 ∈ l

theorem setClose_id (j : Job) (x : Side) (c : Close) : (j.setClose x c).id = j.id := by cases x <;> rfl
theorem setClose_deadline (j : Job) (x : Side) (c : Close) : (j.setClose x c).deadline = j.deadline := by cases x <;> rfl

/-- A close placed again is no failed one (R158). -/
theorem failsWithin_setClose {a : ActuatorNo} {l : List ActuatorNo} {j : Job} (h : j.FailsWithin (a :: l)) :
    (j.setClose (sideOf a) .pending).FailsWithin l := by
  obtain ⟨hpos, hin⟩ := h
  have hother (x : ActuatorNo × FaultCode) (hx : x ∈ j.failedSupply) (hne : x.1 ≠ a) : x.1 ∈ l :=
    (List.mem_cons.1 (hin x hx)).resolve_left hne
  have hold {x : ActuatorNo × FaultCode} {t : Target} (ht : t ∈ j.targets) (hs : t.supply = .failed x.2)
      (hx : x.1 = supplyOf t.pos) : x ∈ j.failedSupply := mem_failedSupply.2 (Or.inr ⟨t, ht, hs, hx⟩)
  have htrunk {x : ActuatorNo × FaultCode} {k : Trunk} (hk : j.trunk = some k) (hs : k.supply = .failed x.2)
      (hx : x.1 = 48) : x ∈ j.failedSupply := mem_failedSupply.2 (Or.inl ⟨k, hk, hs, hx⟩)
  have hlt {t : Target} (ht : t ∈ j.targets) : supplyOf t.pos < 24 := hpos t ht
  unfold sideOf
  split
  · rename_i ha
    refine ⟨fun t ht => ?_, fun x hx => ?_⟩
    · obtain ⟨y, hy, rfl⟩ := List.mem_map.1 ht
      split
      · exact hpos y hy
      · exact hpos y hy
    · rcases mem_failedSupply.1 hx with ⟨k, hk, hs, hx48⟩ | ⟨t, ht, hs, hxt⟩
      · exact hother x (htrunk hk hs hx48) (fun e => by rw [← e, hx48] at ha; exact absurd ha (by decide))
      · obtain ⟨y, hy, rfl⟩ := List.mem_map.1 ht
        by_cases hya : y.pos = a
        · rw [if_pos hya] at hs; exact absurd hs (by simp)
        · rw [if_neg hya] at hs hxt
          exact hother x (hold hy hs hxt) (fun e => hya (hxt.symm.trans e))
  · rename_i ha
    split
    · rename_i ha'
      refine ⟨fun t ht => ?_, fun x hx => ?_⟩
      · obtain ⟨y, hy, rfl⟩ := List.mem_map.1 ht
        split
        · exact hpos y hy
        · exact hpos y hy
      · rcases mem_failedSupply.1 hx with ⟨k, hk, hs, hx48⟩ | ⟨t, ht, hs, hxt⟩
        · exact hother x (htrunk hk hs hx48) (fun e => by rw [← e, hx48] at ha'; exact absurd ha' (by decide))
        · obtain ⟨y, hy, rfl⟩ := List.mem_map.1 ht
          have hs' : y.supply = .failed x.2 ∧ x.1 = supplyOf y.pos := by
            split at hs
            · rename_i hya; rw [if_pos hya] at hxt; exact ⟨hs, hxt⟩
            · rename_i hya; rw [if_neg hya] at hxt; exact ⟨hs, hxt⟩
          exact hother x (hold hy hs'.1 hs'.2) (fun e => ha (e ▸ hs'.2 ▸ hlt hy))
    · rename_i ha'
      split
      · rename_i ha48
        refine ⟨hpos, fun x hx => ?_⟩
        rcases mem_failedSupply.1 hx with ⟨k, hk, hs, _⟩ | ⟨t, ht, hs, hxt⟩
        · obtain ⟨z, _, rfl⟩ := Option.map_eq_some_iff.1 hk
          exact absurd hs (by simp)
        · exact hother x (hold ht hs hxt) (fun e => ha (e ▸ hxt ▸ hlt ht))
      · rename_i ha48
        refine ⟨hpos, fun x hx => ?_⟩
        rcases mem_failedSupply.1 hx with ⟨k, hk, hs, hx48⟩ | ⟨t, ht, hs, hxt⟩
        · obtain ⟨z, hz, rfl⟩ := Option.map_eq_some_iff.1 hk
          exact hother x (htrunk hz hs hx48) (fun e => ha48 (e.symm.trans hx48))
        · exact hother x (hold ht hs hxt) (fun e => ha (e ▸ hxt ▸ hlt ht))

/-- The closes of a list of actuators are placed again, one after another (R158). -/
theorem closeAgain_each {n : JobId} {j : Job} (hj : j.id = n) (d : Option Time) (l : List ActuatorNo) : ∀ s : State,
    s.JobIs n (fun k => k.FailsWithin l ∧ k.deadline = d) →
    (s.forEach l (fun s a => s.closeAgain j (sideOf a) a)).JobIs n (fun k => k.FailsWithin [] ∧ k.deadline = d) := by
  induction l with
  | nil => exact fun _ h => h
  | cons a l ih =>
    intro s h
    refine ih _ ?_
    have h1 : (s.modJob n (fun k => k.setClose (sideOf a) .pending)).JobIs n (fun k => k.FailsWithin l ∧ k.deadline = d) :=
      h.modJob (fun k => setClose_id k _ _) (fun k hk => ⟨failsWithin_setClose hk.1, (setClose_deadline k _ _).trans hk.2⟩)
    unfold State.closeAgain
    rw [hj]
    exact h1.of_slots (placeIso_slots _ _ _ _)

/-- After a retry no supply-side close is failed, and the next retry is due in 5 s (R158). -/
theorem retryCloses_job {s : State} {n : JobId} {j : Job} (h : s.job? n = some j) (hpos : ∀ x ∈ j.targets, x.pos < 24) :
    (s.retryCloses j).JobIs n (fun k => k.failedSupply = [] ∧ k.deadline = some (s.now + 5000)) := by
  have hid : j.id = n := (job?_some h).2
  have h1 : (s.modJob j.id (fun j => { j with deadline := some (s.now + Config.retryWait) })).JobIs n (fun k =>
      k.FailsWithin (j.failedSupply.map (fun x => x.1)) ∧ k.deadline = some (s.now + 5000)) := by
    have h0 : s.JobIs n (fun k => k = j) := fun k hk => (Option.some.inj (h.symm.trans hk)).symm
    rw [hid]
    refine h0.modJob (fun _ => rfl) (fun k hk => ?_)
    subst hk
    exact ⟨⟨hpos, fun x hx => List.mem_map_of_mem hx⟩, rfl⟩
  refine (closeAgain_each hid _ _ _ h1).imp (fun k hk => ⟨List.eq_nil_iff_forall_not_mem.2 (fun x hx => ?_), hk.2⟩)
  exact absurd (hk.1.2 x hx) List.not_mem_nil

/-! ### The events (R149, R155, R158, R167) -/

theorem phaseDeadline_none {s : State} {n : JobId} (h : s.job? n = none) (ph : Phase) : s.phaseDeadline n ph = none := by
  unfold State.phaseDeadline; rw [h]; rfl

theorem phaseDeadline_other {s : State} {n : JobId} {j : Job} {ph : Phase} (h : s.job? n = some j)
    (hn : j.phase ≠ ph ∨ j.deadline = none) : s.phaseDeadline n ph = none := by
  unfold State.phaseDeadline; rw [h]
  show (if j.phase = ph then j.deadline else none) = none
  split
  · exact hn.resolve_left (not_not_intro (by assumption))
  · rfl

theorem phaseDeadline_runs {s : State} {n : JobId} {j : Job} {ph : Phase} {d : Time} (h : s.job? n = some j) (hp : j.phase = ph)
    (hd : j.deadline = some d) : s.phaseDeadline n ph = some d := by
  unfold State.phaseDeadline; rw [h]
  exact (if_pos hp).trans hd

section

variable {s : State} (hp : s.powered = true) (n : JobId)

include hp

theorem exec_jobPhaseDeadlineExpiry : exec (.jobPhaseDeadlineExpiry n) s =
    .next (s.atDeadline (s.phaseDeadline n .notify) (fun s => (s.endNotify n).finish)) := by
  show execJobPhaseDeadlineExpiry n s = _
  unfold execJobPhaseDeadlineExpiry; rw [event_powered hp]

theorem exec_drainDeadlineExpiry : exec (.drainDeadlineExpiry n) s =
    .next (s.atDeadline (s.phaseDeadline n .drain) (fun s => (s.enterCloseReturn n).finish)) := by
  show execDrainDeadlineExpiry n s = _
  unfold execDrainDeadlineExpiry; rw [event_powered hp]

theorem exec_uncontainedRetryExpiry : exec (.uncontainedRetryExpiry n) s =
    .next (s.atDeadline (s.phaseDeadline n .uncontained) (fun s => s.retryJob n)) := by
  show execUncontainedRetryExpiry n s = _
  unfold execUncontainedRetryExpiry; rw [event_powered hp]

theorem exec_simulateDeadlineExpiry : exec (.simulateDeadlineExpiry n) s =
    .next (s.atDeadline (s.phaseDeadline n .simulate) (fun s => ((s.dropJob n).drillStatus .complete).finish)) := by
  show execSimulateDeadlineExpiry n s = _
  unfold execSimulateDeadlineExpiry; rw [event_powered hp]

end

theorem atDeadline_none (s : State) (f : State → State) : s.atDeadline none f = s := rfl

/-- Settles O52: a deadline that does not run lets nothing happen; each that runs takes its job on as its rule says. -/
theorem jobDeadlinesAdvanceJobs : Obligations.JobDeadlinesAdvanceJobs := by
  intro s n ho hp
  have onward (d : Time) : State.Onward true (s.advance d) (s.advance d) :=
    State.Onward.refl (m := true) (ho.sound.of_same rfl rfl)
  refine ⟨fun h => ⟨?_, ?_, ?_, ?_⟩, fun j hj => ⟨fun h => ?_, fun h => ?_, fun h => ?_, fun h => ?_⟩, fun j d hj hd =>
    ⟨fun u hph hu => ⟨?_, ?_, u.finish, ?_, rfl, ?_⟩, fun u hph hu => ⟨?_, u.finish, ?_, rfl, ?_⟩,
      fun u hph hpos hu => ⟨?_, u.finish, ?_, rfl, ?_⟩, fun hph => ?_⟩⟩
  · rw [exec_jobPhaseDeadlineExpiry hp, phaseDeadline_none h, atDeadline_none]
  · rw [exec_drainDeadlineExpiry hp, phaseDeadline_none h, atDeadline_none]
  · rw [exec_uncontainedRetryExpiry hp, phaseDeadline_none h, atDeadline_none]
  · rw [exec_simulateDeadlineExpiry hp, phaseDeadline_none h, atDeadline_none]
  · rw [exec_jobPhaseDeadlineExpiry hp, phaseDeadline_other hj h, atDeadline_none]
  · rw [exec_drainDeadlineExpiry hp, phaseDeadline_other hj h, atDeadline_none]
  · rw [exec_uncontainedRetryExpiry hp, phaseDeadline_other hj h, atDeadline_none]
  · rw [exec_simulateDeadlineExpiry hp, phaseDeadline_other hj h, atDeadline_none]
  · rw [hu]; exact (endNotify_job (s := s.advance d) hj).1
  · rw [hu]; exact fun k hdrill => (endNotify_job (s := s.advance d) hj).2 hdrill k
  · rw [exec_jobPhaseDeadlineExpiry hp, phaseDeadline_runs hj hph hd, hu]; rfl
  · rw [hu]; exact finish_frozen ((onward d).endNotify n)
  · rw [hu]; exact enterCloseReturn_job (s.advance d) n
  · rw [exec_drainDeadlineExpiry hp, phaseDeadline_runs hj hph hd, hu]; rfl
  · rw [hu]; exact finish_frozen ((onward d).enterCloseReturn n)
  · rw [hu]; exact retryCloses_job (s := s.advance d) hj hpos
  · have hretry : (s.advance d).retryJob n = ((s.advance d).retryCloses j).finish := by
      unfold State.retryJob; rw [show (s.advance d).job? n = some j from hj]
    rw [exec_uncontainedRetryExpiry hp, phaseDeadline_runs hj hph hd, hu]
    exact congrArg Host.Outcome.next hretry
  · rw [hu]; exact finish_frozen ((onward d).retryCloses j)
  · have hrest : (((s.advance d).dropJob n).drillStatus .complete).AtRest :=
      ⟨ho.atRest.reports, ho.atRest.granted, ho.atRest.work⟩
    refine ⟨_, ?_, rfl, ?_, ?_⟩
    · rw [exec_simulateDeadlineExpiry hp, phaseDeadline_runs hj hph hd]
      exact congrArg Host.Outcome.next (finish_atRest hrest)
    · rw [transmit_leaves (fun s => s.job? n)]
      exact (dropJob_job? (s.advance d) n n).trans (if_pos rfl)
    · rw [transmit_leaves (fun s => s.iso.report.status)]; rfl

end Sys2Proof.Machine

/-! ## A branch that joins a job (R16, R148) -/

namespace Sys2Proof.Machine

-- One after another: side by side the proofs of the whole text take more memory than a check may.
set_option Elab.async false

/-! ### Reservations (R73) -/

/-- A reservation writes the shadow of its actuator, queues and reports, and nothing beside the bus. -/
theorem reserve_leaves {α : Type} (f : State → α) (hf : ∀ (s : State) b, f { s with bus := b } = f s) (s : State) (i : JobId)
    (a : ActuatorNo) : f (s.reserve i a) = f s := by
  have hreport (t : State) (c : Claim) : f (t.report c.client a .refusedReserved) = f t := by
    unfold State.report; split
    · rfl
    · exact hf t _
  unfold State.reserve; dsimp only
  rw [forEach_leaves f (fun (t : State) (c : Claim) => t.report c.client a .refusedReserved) hreport]
  exact (hf (s.modAct a (fun x => { x with reservedBy := i })) _).trans (hf s _)

theorem reserve_actuators (s : State) (i : JobId) (a : ActuatorNo) :
    (s.reserve i a).bus.actuators = (s.modAct a (fun x => { x with reservedBy := i })).bus.actuators := by
  have hreport (t : State) (c : Claim) : (t.report c.client a .refusedReserved).bus.actuators = t.bus.actuators := by
    unfold State.report; split <;> rfl
  unfold State.reserve; dsimp only
  exact forEach_leaves (fun t => t.bus.actuators) (fun (t : State) (c : Claim) => t.report c.client a .refusedReserved)
    hreport _ _

theorem act_congr {s t : State} (h : t.bus.actuators = s.bus.actuators) (a : ActuatorNo) : t.act a = s.act a := by
  unfold State.act; rw [h]

theorem reserve_act_self {s : State} {a : ActuatorNo} (h : a < s.bus.actuators.length) (i : JobId) :
    (s.reserve i a).act a = { s.act a with reservedBy := i } :=
  (act_congr (reserve_actuators s i a) a).trans (modAct_act_self s a _ h)

theorem reserve_act_ne (s : State) (i : JobId) {a b : ActuatorNo} (h : a ≠ b) : (s.reserve i a).act b = s.act b :=
  (act_congr (reserve_actuators s i a) b).trans (modAct_act_ne s _ h)

theorem reserve_length (s : State) (i : JobId) (a : ActuatorNo) :
    (s.reserve i a).bus.actuators.length = s.bus.actuators.length := by
  rw [reserve_actuators]; simp

/-! ### What ends on a branch that joins (R16) -/

/-- The branch is taken from a drill, its verify and its service move are over, and it draws nothing (R16, R148). -/
def State.detached (s : State) (p : Position) : State :=
  let s := s.takeFromDrill p
  let s := if s.verifyOn p then s.endVerify p (.aborted .isolation) false else s
  let s := if s.serviceBranch = some p then s.endService .aborted (.aborted (.service .joined)) else s
  (s.endClosing p).clearDraw p

/-- An ACTIVE branch has left arbitration too (R11, R148). -/
def State.withdrawn (s : State) (p : Position) : State :=
  if ((s.detached p).br p).state = .active then (s.detached p).clearArbiterFields p else s.detached p

theorem leaveForJob_eq (s : State) (i : JobId) (p : Position) :
    s.leaveForJob i p = (s.withdrawn p).modBr p (fun b => { b with state := .isolating, job := i }) := rfl

theorem takeFromDrill_leaves {α : Type} (f : State → α) (hf : ∀ (s : State) x, f { s with iso := x } = f s) (s : State)
    (p : Position) : f (s.takeFromDrill p) = f s := by
  unfold State.takeFromDrill
  split
  · rfl
  · rename_i j _
    split
    · have h1 : f ((s.modJob j.id (fun j => { j with targets := j.targets.filter (fun t => t.pos ≠ p) })).drillOutcome p
          .preempted) = f s := hf s _
      dsimp only
      split
      · exact (hf _ _).trans ((hf _ _).trans h1)
      · exact h1
    · rfl

theorem endVerify_actuators (s : State) (p : Position) (st : VerifyStatus) :
    (s.endVerify p st false).bus.actuators.length = s.bus.actuators.length := by
  unfold State.endVerify; dsimp only
  rw [complete_bus]
  exact List.length_map ..

theorem endService_actuators (s : State) (st : Status) (b : CompletionBody) :
    (s.endService st b).bus.actuators.length = s.bus.actuators.length := by
  unfold State.endService; split
  · show (List.map _ (s.complete .service st b).bus.actuators).length = _
    rw [List.length_map, complete_bus]
  · rfl

theorem endClosing_actuators (s : State) (p : Position) : (s.endClosing p).bus.actuators = s.bus.actuators := by
  unfold State.endClosing; repeat' split
  all_goals rfl

/-- Of the branches, the joining one's draw alone is written. -/
theorem detached_br (s : State) (p q : Position) : (s.detached p).br q = if q = p then (s.br p).undrawn else s.br q := by
  have hfirst : (s.takeFromDrill p).br = s.br := by
    funext r; exact takeFromDrill_leaves (fun s => s.br r) (fun _ _ => rfl) s p
  have hverify (t : State) (h : t.br = s.br) (r : Position) :
      ((if t.verifyOn p then t.endVerify p (.aborted .isolation) false else t).br r).undrawn = (s.br r).undrawn ∧
      (r ≠ p → (if t.verifyOn p then t.endVerify p (.aborted .isolation) false else t).br r = s.br r) := by
    split
    · rw [br_congr (endVerify_branches t p _ false), clearDraw_br, h]
      by_cases e : r = p
      · rw [if_pos e, e]; exact ⟨rfl, fun hn => absurd rfl hn⟩
      · rw [if_neg e]; exact ⟨rfl, fun _ => rfl⟩
    · rw [h]; exact ⟨rfl, fun _ => rfl⟩
  have hservice (t : State) (r : Position) :
      (if t.serviceBranch = some p then t.endService .aborted (.aborted (.service .joined)) else t).br r = t.br r := by
    split
    · exact br_congr (endService_branches t _ _) r
    · rfl
  have hclosing (t : State) (r : Position) : (t.endClosing p).br r = t.br r :=
    endClosing_leaves (fun s => s.br r) (fun _ _ => rfl) t p
  unfold State.detached; dsimp only
  rw [clearDraw_br, hclosing, hclosing, hservice, hservice]
  split
  · exact (hverify _ hfirst p).1
  · rename_i hq; exact (hverify _ hfirst q).2 hq

theorem detached_undrawn (s : State) (p : Position) : State.Same Branch.undrawn s (s.detached p) := by
  have hfirst : State.Same Branch.undrawn s (s.takeFromDrill p) :=
    (State.Same.refl _ s).table (takeFromDrill_leaves State.branches (fun _ _ => rfl) s p)
  have hclear (t : State) : State.Same Branch.undrawn t (t.clearDraw p) :=
    (State.Same.refl Branch.undrawn t).modBr p (fun b => { b with draw := 0 }) (fun _ => rfl)
  have hverify (t : State) : State.Same Branch.undrawn t
      (if t.verifyOn p then t.endVerify p (.aborted .isolation) false else t) := by
    split
    · exact (hclear t).table (endVerify_branches t p _ false)
    · exact .refl _ t
  have hservice (t : State) : State.Same Branch.undrawn t
      (if t.serviceBranch = some p then t.endService .aborted (.aborted (.service .joined)) else t) := by
    split
    · exact (State.Same.refl _ t).table (endService_branches t _ _)
    · exact .refl _ t
  have hclosing (t : State) : State.Same Branch.undrawn t (t.endClosing p) :=
    (State.Same.refl _ t).table (endClosing_leaves State.branches (fun _ _ => rfl) t p)
  exact (((hfirst.trans (hverify _)).trans (hservice _)).trans (hclosing _)).trans (hclear _)

theorem detached_actuators (s : State) (p : Position) : (s.detached p).bus.actuators.length = s.bus.actuators.length := by
  have hverify (t : State) : (if t.verifyOn p then t.endVerify p (.aborted .isolation) false else t).bus.actuators.length =
      t.bus.actuators.length := by
    split
    · exact endVerify_actuators t p _
    · rfl
  have hservice (t : State) : (if t.serviceBranch = some p then
      t.endService .aborted (.aborted (.service .joined)) else t).bus.actuators.length = t.bus.actuators.length := by
    split
    · exact endService_actuators t _ _
    · rfl
  have hclosing (t : State) : ((t.endClosing p).clearDraw p).bus.actuators.length = t.bus.actuators.length :=
    congrArg List.length (endClosing_actuators t p)
  unfold State.detached; dsimp only
  rw [hclosing, hservice, hverify]
  exact takeFromDrill_leaves (fun s => s.bus.actuators.length) (fun _ _ => rfl) s p

/-- After the drill has given up the branch, the slots stay (R166). -/
theorem detached_slots (s : State) (p : Position) : (s.detached p).iso.slots = (s.takeFromDrill p).iso.slots := by
  have hverify (t : State) : (if t.verifyOn p then t.endVerify p (.aborted .isolation) false else t).iso.slots = t.iso.slots := by
    split
    · exact slots_of_still (endVerify_still t p _ false)
    · rfl
  have hservice (t : State) : (if t.serviceBranch = some p then
      t.endService .aborted (.aborted (.service .joined)) else t).iso.slots = t.iso.slots := by
    split
    · exact slots_of_still (endService_still t _ _)
    · rfl
  have hclosing (t : State) : ((t.endClosing p).clearDraw p).iso.slots = t.iso.slots :=
    slots_of_still ((clearDraw_still _ p).trans (endClosing_still t p))
  unfold State.detached; dsimp only
  rw [hclosing, hservice, hverify]

/-- What a branch that leaves arbitration has lost (R11). -/
theorem clearArbiterFields_br {s : State} {p : Position} (h : p < s.branches.length) : ∃ t,
    (s.clearArbiterFields p).br p = { s.br p with
      request := 0, urgent := false, stamp := none, riseWaiting := false, cut := none, trim := none, controlTarget := t } := by
  have hlen : p < (s.modBr p (fun b => { b with
      request := 0, urgent := false, stamp := none, riseWaiting := false, cut := none })).branches.length := by simpa using h
  have hbr := modBr_br_self s p (fun b => { b with
    request := 0, urgent := false, stamp := none, riseWaiting := false, cut := none }) h
  unfold State.clearArbiterFields State.cancelTrim
  split
  · rw [br_congr (complete_branches _ _ _ _), modBr_br_self _ p _ hlen, hbr]
    exact ⟨_, rfl⟩
  · rename_i hn
    have ht : (s.br p).trim = none := by rw [hbr] at hn; simpa using hn
    rw [hbr, ← ht]
    exact ⟨_, rfl⟩

theorem clearArbiterFields_br_ne (s : State) {p q : Position} (h : q ≠ p) : (s.clearArbiterFields p).br q = s.br q := by
  unfold State.clearArbiterFields State.cancelTrim
  split
  · rw [br_congr (complete_branches _ _ _ _), modBr_br_ne _ _ h.symm, modBr_br_ne _ _ h.symm]
  · exact modBr_br_ne _ _ h.symm

theorem clearArbiterFields_bus (s : State) (p : Position) : (s.clearArbiterFields p).bus = s.bus := by
  unfold State.clearArbiterFields State.cancelTrim
  split
  · rw [complete_bus]; rfl
  · rfl

/-! ### The branch as a target (R148) -/

/-- The branch that joins, before it is ISOLATING: it draws nothing and keeps its drive, and has left arbitration if it was
ACTIVE. -/
theorem withdrawn_br {s : State} {p : Position} (h : p < s.branches.length) :
    ((s.withdrawn p).br p).draw = 0 ∧ ((s.withdrawn p).br p).drive = (s.br p).drive ∧
    ((s.br p).state = .active → ((s.withdrawn p).br p).request = 0 ∧ ((s.withdrawn p).br p).urgent = false ∧
      ((s.withdrawn p).br p).stamp = none ∧ ((s.withdrawn p).br p).cut = none ∧
      ((s.withdrawn p).br p).riseWaiting = false ∧ ((s.withdrawn p).br p).trim = none) := by
  have hd := detached_br s p p
  rw [if_pos rfl] at hd
  have hlen : p < (s.detached p).branches.length := by
    rw [(detached_undrawn s p).length]; exact h
  have hstate : ((s.detached p).br p).state = (s.br p).state := by rw [hd]; rfl
  unfold State.withdrawn
  rw [hstate]
  by_cases ha : (s.br p).state = .active
  · rw [if_pos ha]
    obtain ⟨t, ht⟩ := clearArbiterFields_br hlen
    rw [ht, hd]
    exact ⟨rfl, rfl, fun _ => ⟨rfl, rfl, rfl, rfl, rfl, rfl⟩⟩
  · rw [if_neg ha, hd]
    exact ⟨rfl, rfl, fun e => absurd e ha⟩

theorem withdrawn_br_ne (s : State) {p q : Position} (h : q ≠ p) : (s.withdrawn p).br q = s.br q := by
  have hd := detached_br s p q
  rw [if_neg h] at hd
  unfold State.withdrawn; split
  · rw [clearArbiterFields_br_ne _ h, hd]
  · exact hd

theorem withdrawn_actuators (s : State) (p : Position) : (s.withdrawn p).bus.actuators.length = s.bus.actuators.length := by
  unfold State.withdrawn; split
  · rw [clearArbiterFields_bus, detached_actuators]
  · exact detached_actuators s p

theorem withdrawn_slots (s : State) (p : Position) : (s.withdrawn p).iso.slots = (s.takeFromDrill p).iso.slots := by
  unfold State.withdrawn; split
  · rw [clearArbiterFields_slots, detached_slots]
  · exact detached_slots s p

/-- A job keeps its quarantine when a drill gives up a branch (R166). -/
theorem takeFromDrill_quarantine {s : State} {n : JobId} {q : Nat} (p : Position) (h : s.JobIs n (fun k => k.quarantine = q)) :
    (s.takeFromDrill p).JobIs n (fun k => k.quarantine = q) := by
  have hmod (i : JobId) : (s.modJob i (fun j => { j with targets := j.targets.filter (fun t => t.pos ≠ p) })).JobIs n
      (fun k => k.quarantine = q) := by
    intro k hk
    rw [modJob_job? s i n (f := fun j => { j with targets := j.targets.filter (fun t => t.pos ≠ p) }) (fun _ => rfl)] at hk
    split at hk
    · obtain ⟨j, hj, rfl⟩ := Option.map_eq_some_iff.1 hk
      exact h j hj
    · exact h k hk
  unfold State.takeFromDrill; split
  · exact h
  · rename_i j _
    split
    · dsimp only
      split
      · intro k hk
        have hk' : ((s.modJob j.id (fun j => { j with targets := j.targets.filter (fun t => t.pos ≠ p) })).dropJob j.id).job? n =
            some k := hk
        rw [dropJob_job?] at hk'
        split at hk'
        · exact absurd hk' (by simp)
        · exact hmod j.id k hk'
      · exact (hmod j.id).of_slots rfl
    · exact h

theorem joinedBy_hasTarget (b : Branch) (p : Position) (j : Job) : (j.joinedBy b p).hasTarget p = true := by
  unfold Job.joinedBy Job.addTarget Job.hasTarget
  dsimp only
  rw [List.any_eq_true]
  exact ⟨_, (mem_insertBy _ _ _ _).2 (Or.inl rfl), decide_eq_true rfl⟩

/-- Settles O53: the branch is withdrawn, ISOLATING and a target, and its actuators are reserved. -/
theorem joiningIsolatesBranch : Obligations.JoiningIsolatesBranch := by
  intro s u n p hz hp hu
  have hlen : p < s.branches.length := Nat.lt_of_lt_of_eq hp hz.branches.symm
  obtain ⟨w1, w2, w3⟩ := withdrawn_br hlen
  have hwlen : p < (s.withdrawn p).branches.length := by
    have e : (s.withdrawn p).branches.length = s.branches.length := by
      unfold State.withdrawn; split
      · have hc : ((s.detached p).clearArbiterFields p).branches.length = (s.detached p).branches.length := by
          unfold State.clearArbiterFields
          rw [length_of_still (cancelTrim_still _ p _)]; simp
        rw [hc, (detached_undrawn s p).length]
      · exact (detached_undrawn s p).length
    rw [e]; exact hlen
  have hjoined : (s.leaveForJob n p).br p = { (s.withdrawn p).br p with state := .isolating, job := n } :=
    modBr_br_self (s.withdrawn p) p (fun b => { b with state := .isolating, job := n }) hwlen
  have hbr (q : Position) : u.br q = (s.leaveForJob n p).br q := by
    rw [hu, join_eq, reserve_leaves (fun s => s.br q) (fun _ _ => rfl), reserve_leaves (fun s => s.br q) (fun _ _ => rfl)]
    rfl
  have hacts : ((s.leaveForJob n p).modJob n (Job.joinedBy ((s.leaveForJob n p).br p) p)).bus.actuators.length = 50 :=
    (withdrawn_actuators s p).trans hz.actuators
  have hsup : supplyOf p < 50 := Nat.lt_trans hp (by decide)
  have hret : returnOf p < 50 := Nat.lt_trans (Nat.add_lt_add_right hp 24) (by decide)
  rw [hbr, hjoined]
  refine ⟨rfl, rfl, w1, w2, w3, ?_, ?_, fun j k hj hk => ?_, fun q hq => ?_⟩
  · rw [hu, join_eq, reserve_act_ne _ n (returnOf_ne_supplyOf p), reserve_act_self (by rw [hacts]; exact hsup)]
  · rw [hu, join_eq, reserve_act_self (by rw [reserve_length, hacts]; exact hret)]
  · have h0 : s.JobIs n (fun k => k.quarantine = j.quarantine) := fun k hk => by
      rw [Option.some.inj (hj.symm.trans hk)]
    have h1 : (s.leaveForJob n p).JobIs n (fun k => k.quarantine = j.quarantine) :=
      (takeFromDrill_quarantine p h0).of_slots (withdrawn_slots s p)
    have h2 : ((s.leaveForJob n p).modJob n (Job.joinedBy ((s.leaveForJob n p).br p) p)).JobIs n (fun k =>
        k.hasTarget p = true ∧ k.quarantine = j.quarantine + (s.br p).drive) := by
      refine h1.modJob (fun _ => rfl) (fun x hx => ⟨joinedBy_hasTarget _ p x, ?_⟩)
      show x.quarantine + ((s.leaveForJob n p).br p).drive = _
      rw [hx, hjoined]
      exact congrArg (j.quarantine + ·) w2
    refine h2.of_slots ?_ k hk
    rw [hu, join_eq, reserve_slots, reserve_slots]
  · have hkeep : u.br q = s.br q := by
      rw [hbr, leaveForJob_eq, modBr_br_ne _ _ hq.symm, withdrawn_br_ne s hq]
    rw [hkeep]; exact ⟨rfl, rfl, rfl, rfl⟩

end Sys2Proof.Machine

/-! ## The reports of the closes of a job (R152–R155, R158) -/

namespace Sys2Proof.Machine

-- One after another: side by side the proofs of the whole text take more memory than a check may.
set_option Elab.async false

/-! ### What the phases of a job leave (R153, R155, R158) -/

/-- A property of a job that no step of its phases writes: it speaks of neither phase, deadline nor return closes. -/
structure Job.Steady (P : Job → Prop) : Prop where
  phase : ∀ k ph d, P k → P { k with phase := ph, deadline := d, armed := false }
  deadline : ∀ k, P k → P { k with deadline := none }
  returns : ∀ k, P k → P { k with
    targets := k.targets.map (fun t => { t with ret := t.ret.retried })
    trunk := k.trunk.map (fun y => { y with ret := y.ret.retried }) }

/-- From `b` to `s` the branches under a view and the ids of the table are as they were, and every job with id `n` has a
property. -/
structure State.Holds {β : Type} (g : Branch → β) (b : State) (n : JobId) (P : Job → Prop) (s : State) : Prop where
  same : State.Same g b s
  ids : s.jobs.map (fun j => j.id) = b.jobs.map (fun j => j.id)
  job : s.JobIs n P

theorem jobs_of_slots {s t : State} (h : t.iso.slots = s.iso.slots) : t.jobs = s.jobs := by unfold State.jobs; rw [h]

theorem placeIso_busOnly (s : State) (a : ActuatorNo) (t : Nat) (c : Client) : s.BusOnly (s.placeIso a t c) :=
  State.BusOnly.trans ⟨_, rfl⟩ (grantLine_busOnly _)

/-- A job is found by its id just when the table holds the id. -/
theorem job?_isSome (s : State) (n : JobId) : (s.job? n).isSome = true ↔ n ∈ s.jobs.map (fun j => j.id) := by
  unfold State.job?
  rw [List.find?_isSome]
  simp [eq_comm]

theorem modJob_ids (s : State) (i : JobId) {f : Job → Job} (hf : ∀ j, (f j).id = j.id) :
    (s.modJob i f).jobs.map (fun j => j.id) = s.jobs.map (fun j => j.id) := by
  rw [modJob_jobs, List.map_map]
  refine List.map_congr_left (fun j _ => ?_)
  show (if j.id = i then f j else j).id = j.id
  split
  · exact hf j
  · rfl

namespace State.Holds

variable {β : Type} {g : Branch → β} {b s t : State} {n : JobId} {P Q : Job → Prop}

/-- What touches neither the branch table nor the slots. -/
theorem other (h : Holds g b n P s) (hb : t.branches = s.branches) (hs : t.iso.slots = s.iso.slots) : Holds g b n P t :=
  ⟨h.same.table hb, (congrArg (List.map _) (jobs_of_slots hs)).trans h.ids, h.job.of_slots hs⟩

/-- What touches the slots alone not. -/
theorem view (h : Holds g b n P s) (hb : State.Same g s t) (hs : t.iso.slots = s.iso.slots) : Holds g b n P t :=
  ⟨h.same.trans hb, (congrArg (List.map _) (jobs_of_slots hs)).trans h.ids, h.job.of_slots hs⟩

theorem busOnly (h : Holds g b n P s) (k : s.BusOnly t) : Holds g b n P t := by
  obtain ⟨_, rfl⟩ := k
  exact h.other rfl rfl

theorem modJob {f : Job → Job} (h : Holds g b n P s) (hid : ∀ j, (f j).id = j.id) (hf : ∀ k, P k → Q (f k)) :
    Holds g b n Q (s.modJob n f) :=
  ⟨h.same.table rfl, (modJob_ids s n hid).trans h.ids, h.job.modJob hid hf⟩

theorem each {α : Type} {f : State → α → State} (l : List α) (h : Holds g b n P s)
    (hf : ∀ s a, Holds g b n P s → Holds g b n P (f s a)) : Holds g b n P (s.forEach l f) := forEach_keeps _ f hf l s h

/-- The job still stands in the table. -/
theorem exists_job (h : Holds g b n P s) {j : Job} (hj : b.job? n = some j) : ∃ k, s.job? n = some k ∧ P k := by
  have hs : (s.job? n).isSome = true := (job?_isSome s n).2 (h.ids ▸ (job?_isSome b n).1 (by rw [hj]; rfl))
  obtain ⟨k, hk⟩ := Option.isSome_iff_exists.1 hs
  exact ⟨k, hk, h.job k hk⟩

/-- An id that the table did not hold it does not hold now. -/
theorem no_job (h : Holds g b n P s) {m : JobId} (hm : b.job? m = none) : s.job? m = none := by
  have hs : ¬ (s.job? m).isSome = true := fun e => by
    have := (job?_isSome b m).2 (h.ids ▸ (job?_isSome s m).1 e)
    rw [hm] at this
    exact absurd this (by decide)
  simpa using hs

variable (hP : Job.Steady P)

theorem setPhase (hph : ∀ k ph d, P k → P { k with phase := ph, deadline := d, armed := false }) (ph : Phase) (d : Option Time)
    (h : Holds g b n P s) : Holds g b n P (s.setPhase n ph d) :=
  h.modJob (f := fun k => { k with phase := ph, deadline := d, armed := false }) (fun _ => rfl) (fun k hk => hph k ph d hk)

theorem checkReturns (hph : ∀ k ph d, P k → P { k with phase := ph, deadline := d, armed := false })
    (h : Holds g b n P s) : Holds g b n P (s.checkReturns n) := by
  unfold State.checkReturns; repeat' split
  · exact h
  · exact h.setPhase hph .confirm none
  · exact h

include hP

theorem enterCloseReturn (h : Holds g b n P s) : Holds g b n P (s.enterCloseReturn n) := by
  have h1 := (h.setPhase hP.phase .closeReturn none).modJob (f := fun k => { k with
    targets := k.targets.map (fun t => { t with ret := t.ret.retried })
    trunk := k.trunk.map (fun y => { y with ret := y.ret.retried }) }) (Q := P) (fun _ => rfl) hP.returns
  unfold State.enterCloseReturn; dsimp only; split
  · exact h1
  · refine checkReturns hP.phase (each _ ?_ (fun _ _ h => h.busOnly (placeIso_busOnly _ _ _ _)))
    split
    · exact h1.busOnly (placeIso_busOnly _ _ _ _)
    · exact h1

theorem enterDrain (h : Holds g b n P s) : Holds g b n P (s.enterDrain n) := by
  unfold State.enterDrain; dsimp only; split
  · exact enterCloseReturn hP (h.setPhase hP.phase _ _)
  · exact h.setPhase hP.phase _ _

omit hP in
theorem tellUncontained (v : Bool) (h : Holds g b n P s) : Holds g b n P (s.tellUncontained n v) := by
  unfold State.tellUncontained; split
  · exact h
  · exact h.other rfl rfl

theorem enterUncontained (h : Holds g b n P s) : Holds g b n P (s.enterUncontained n) :=
  tellUncontained false (h.setPhase hP.phase _ _)

theorem foundContained (h : Holds g b n P s) : Holds g b n P (s.foundContained n) :=
  enterDrain hP (tellUncontained true
    (h.modJob (f := fun j => { j with deadline := none }) (fun _ => rfl) (fun k hk => hP.deadline k hk)))

theorem checkSupply (h : Holds g b n P s) : Holds g b n P (s.checkSupply n) := by
  unfold State.checkSupply; repeat' split
  · exact h
  · exact enterDrain hP h
  · exact enterUncontained hP h
  · exact h

theorem afterSupply (h : Holds g b n P s) : Holds g b n P (s.afterSupply n) := by
  unfold State.afterSupply; repeat' split
  · exact h
  · exact foundContained hP h
  · exact checkSupply hP h

theorem afterFailure (h : Holds g b n P s) : Holds g b n P (s.afterFailure n) := by
  unfold State.afterFailure; repeat' split
  · exact h
  · exact checkSupply hP h
  · exact h
  · exact enterUncontained hP h

end State.Holds

/-! ### Close results -/

/-- The supply closes of a job's target at a position have a result. -/
def Job.SupplyIs (p : Position) (c : Close) (k : Job) : Prop := ∀ x ∈ k.targets, x.pos = p → x.supply = c

/-- The return closes of a job's target at a position have a result. -/
def Job.ReturnIs (p : Position) (c : Close) (k : Job) : Prop := ∀ x ∈ k.targets, x.pos = p → x.ret = c

/-- The trunk of a job, if it has one, has a result on its supply side. -/
def Job.TrunkSupplyIs (c : Close) (k : Job) : Prop := ∀ z, k.trunk = some z → z.supply = c

/-- The trunk of a job, if it has one, has a result on its return side. -/
def Job.TrunkReturnIs (c : Close) (k : Job) : Prop := ∀ z, k.trunk = some z → z.ret = c

theorem supplyIs_steady (p : Position) (c : Close) : Job.Steady (Job.SupplyIs p c) :=
  ⟨fun _ _ _ h => h, fun _ h => h, fun k h x hx hp => by
    obtain ⟨y, hy, rfl⟩ := List.mem_map.1 hx
    exact h y hy hp⟩

theorem trunkSupplyIs_steady (c : Close) : Job.Steady (Job.TrunkSupplyIs c) :=
  ⟨fun _ _ _ h => h, fun _ h => h, fun k h z hz => by
    obtain ⟨y, hy, rfl⟩ := Option.map_eq_some_iff.1 hz
    exact h y hy⟩

theorem setClose_supplyIs (j : Job) (p : Position) (c : Close) : (j.setClose (.targetSupply p) c).SupplyIs p c := by
  intro x hx hp
  obtain ⟨y, _, rfl⟩ := List.mem_map.1 hx
  split at hp
  · rename_i h; rw [if_pos h]
  · rename_i h; exact absurd hp h

theorem setClose_returnIs (j : Job) (p : Position) (c : Close) : (j.setClose (.targetReturn p) c).ReturnIs p c := by
  intro x hx hp
  obtain ⟨y, _, rfl⟩ := List.mem_map.1 hx
  split at hp
  · rename_i h; rw [if_pos h]
  · rename_i h; exact absurd hp h

theorem setClose_trunkSupplyIs (j : Job) (c : Close) : (j.setClose .trunkSupply c).TrunkSupplyIs c := by
  intro z hz
  obtain ⟨y, _, rfl⟩ := Option.map_eq_some_iff.1 hz
  rfl

theorem setClose_trunkReturnIs (j : Job) (c : Close) : (j.setClose .trunkReturn c).TrunkReturnIs c := by
  intro z hz
  obtain ⟨y, _, rfl⟩ := Option.map_eq_some_iff.1 hz
  rfl

/-- The table with a close result written. -/
theorem holds_setClose {β : Type} (g : Branch → β) (s : State) (n : JobId) (x : Side) (c : Close) {P : Job → Prop}
    (hP : ∀ j : Job, P (j.setClose x c)) : State.Holds g s n P (s.modJob n (fun j => j.setClose x c)) :=
  State.Holds.modJob (P := fun _ => True) ⟨.refl g s, rfl, fun _ _ => trivial⟩ (fun j => setClose_id j x c) (fun k _ => hP k)

/-! ### A completed close (R152) -/

/-- A branch that is no ACTIVE one keeps its drive when waiting rises are looked at again (R42). -/
theorem reexamine_drive_inactive {s : State} {q : Position} (h : (s.br q).state ≠ .active) :
    (s.reexamine.br q).drive = (s.br q).drive := by
  have h1 (t : State) : (t.setRiseWaiting.br q).drive = (t.br q).drive :=
    ((State.Same.refl Branch.drive t).each _ (fun s p => (State.Same.refl Branch.drive s).modBr p
      (fun b => { b with riseWaiting := b.state = .active && b.drive < b.grant }) (fun _ => rfl))).br q
  unfold State.reexamine
  rw [h1, rises_br_ne (Or.inr (Or.inl h))]

/-- The drive of every position of a list is 0 after all are stopped (R152). -/
theorem stopped_drive (l : List Position) {s : State} {p : Position} (h : p < s.branches.length) (hp : p ∈ l) :
    ((s.forEach l (fun s p => s.setDrive p 0)).br p).drive = 0 := by
  refine forEach_each (fun t => t.branches.length = s.branches.length) (fun q t => q < s.branches.length → (t.br q).drive = 0)
    (fun s p => s.setDrive p 0) (fun t q ht => (setDrive_length t q 0).trans ht)
    (fun t q ht hq => setDrive_drive 0 (ht.symm ▸ hq)) (fun t q r ht hr hl => ?_) l s rfl p hp h
  by_cases e : r = q
  · rw [e] at hl ⊢; exact setDrive_drive 0 (ht.symm ▸ hl)
  · rw [setDrive_br_ne t 0 e]; exact hr hl

/-- A completed supply close: its result stands, and the branches it stops that are in isolation are stopped (R152). -/
theorem closeOk_supply {s : State} {j : Job} {n : JobId} {x : Side} {P : Job → Prop} (hj : j.id = n) (hx : x.isSupply = true)
    (hs : Job.Steady P) (hP : ∀ k : Job, P (k.setClose x .ok)) :
    (s.closeOk j x).JobIs n P ∧ ∀ q, q < s.branches.length → q ∈ j.stopped x → (s.br q).state = .isolating →
      ((s.closeOk j x).br q).drive = 0 := by
  have h0 := holds_setClose Branch.drive s n x .ok hP
  have hstill : ((s.modJob n (fun k => k.setClose x .ok)).forEach (j.stopped x) (fun s p => s.setDrive p 0)).still =
      (s.modJob n (fun k => k.setClose x .ok)).still := forEach_still _ (fun t p => setDrive_still t p 0) _ _
  have hdrive (q : Position) (hq : q < s.branches.length) (hm : q ∈ j.stopped x) := stopped_drive (j.stopped x)
    (s := s.modJob n (fun k => k.setClose x .ok)) hq hm
  have hrun : s.closeOk j x = (((s.modJob n (fun k => k.setClose x .ok)).forEach (j.stopped x)
      (fun s p => s.setDrive p 0)).reexamine).afterSupply n := by
    unfold State.closeOk; rw [hj]; exact if_pos hx
  rw [hrun]
  generalize (s.modJob n (fun k => k.setClose x .ok)).forEach (j.stopped x) (fun s p => s.setDrive p 0) = t at hstill hdrive ⊢
  have h1 : State.Holds Branch.drive t.reexamine n P t.reexamine :=
    ⟨.refl _ _, rfl, h0.job.of_still ((reexamine_still t).trans hstill)⟩
  have h2 := h1.afterSupply hs
  refine ⟨h2.job, fun q hq hm hi => (h2.same.br q).trans ((reexamine_drive_inactive ?_).trans (hdrive q hq hm))⟩
  rw [br_state_of_still hstill q]
  show (s.br q).state ≠ .active
  rw [hi]; exact fun e => nomatch e

/-- A completed return close: its result stands (R152). -/
theorem closeOk_return {s : State} {j : Job} {n : JobId} {x : Side} {P : Job → Prop} (hj : j.id = n) (hx : x.isSupply = false)
    (hph : ∀ k ph d, P k → P { k with phase := ph, deadline := d, armed := false }) (hP : ∀ k : Job, P (k.setClose x .ok)) :
    (s.closeOk j x).JobIs n P := by
  have h0 := holds_setClose Branch.drive s n x .ok hP
  have hstill : ((s.modJob n (fun k => k.setClose x .ok)).forEach (j.stopped x) (fun s p => s.setDrive p 0)).still =
      (s.modJob n (fun k => k.setClose x .ok)).still := forEach_still _ (fun t p => setDrive_still t p 0) _ _
  have h1 := h0.job.of_still hstill
  have hrun : s.closeOk j x = ((s.modJob n (fun k => k.setClose x .ok)).forEach (j.stopped x)
      (fun s p => s.setDrive p 0)).checkReturns n := by
    unfold State.closeOk; rw [hj]; exact if_neg (by rw [hx]; exact Bool.false_ne_true)
  rw [hrun]
  generalize (s.modJob n (fun k => k.setClose x .ok)).forEach (j.stopped x) (fun s p => s.setDrive p 0) = t at h1 ⊢
  exact (State.Holds.checkReturns hph (g := Branch.drive) (b := t) ⟨.refl _ _, rfl, h1⟩).job

/-! ### A failed close (R152, R154) -/

/-- RETURN_OPEN is marked on the branch, and nothing of its jobs is touched (R5). -/
theorem markFault_returnOpen {s : State} {p : Position} (h : p < s.branches.length) :
    ((s.markFault p .returnOpen none).br p).returnOpen = true ∧
    (s.markFault p .returnOpen none).iso.slots = s.iso.slots := by
  unfold State.markFault; dsimp only; split
  · rename_i hv; exact ⟨hv, rfl⟩
  · exact ⟨congrArg Branch.returnOpen (modBr_br_self s p _ h), rfl⟩

/-- A failed return close of a branch: RETURN_OPEN, and its result stands (R154). -/
theorem closeFailed_return {s : State} {j : Job} {n : JobId} {p : Position} (hj : j.id = n) (hp : p < s.branches.length)
    (f : FaultCode) : ((s.closeFailed j (.targetReturn p) f).br p).returnOpen = true ∧
      (s.closeFailed j (.targetReturn p) f).JobIs n (Job.ReturnIs p (.failed f)) := by
  have h0 := holds_setClose Branch.returnOpen s n (.targetReturn p) (.failed f) (fun k => setClose_returnIs k p _)
  obtain ⟨m1, m2⟩ := markFault_returnOpen (s := s.modJob n (fun k => k.setClose (.targetReturn p) (.failed f))) hp
  have hrun : s.closeFailed j (.targetReturn p) f =
      ((s.modJob n (fun k => k.setClose (.targetReturn p) (.failed f))).markFault p .returnOpen none).checkReturns n := by
    unfold State.closeFailed; rw [hj]
  rw [hrun]
  have h1 := h0.job.of_slots m2
  generalize (s.modJob n (fun k => k.setClose (.targetReturn p) (.failed f))).markFault p .returnOpen none = t at h1 m1 ⊢
  have h2 := State.Holds.checkReturns (fun _ _ _ h => h) (g := Branch.returnOpen) (b := t) ⟨.refl _ _, rfl, h1⟩
  exact ⟨(h2.same.br p).trans m1, h2.job⟩

theorem closeFailed_trunkSupply {s : State} {j : Job} {n : JobId} (hj : j.id = n) (f : FaultCode) :
    (s.closeFailed j .trunkSupply f).JobIs n (Job.TrunkSupplyIs (.failed f)) := by
  have h0 := holds_setClose Branch.drive s n .trunkSupply (.failed f) (fun k => setClose_trunkSupplyIs k _)
  have hrun : s.closeFailed j .trunkSupply f = (s.modJob n (fun k => k.setClose .trunkSupply (.failed f))).afterFailure n := by
    unfold State.closeFailed; rw [hj]
  rw [hrun]
  exact (h0.afterFailure (trunkSupplyIs_steady _)).job

theorem closeFailed_trunkReturn {s : State} {j : Job} {n : JobId} (hj : j.id = n) (f : FaultCode) :
    (s.closeFailed j .trunkReturn f).JobIs n (Job.TrunkReturnIs (.failed f)) := by
  have h0 := holds_setClose Branch.drive s n .trunkReturn (.failed f) (fun k => setClose_trunkReturnIs k _)
  have hrun : s.closeFailed j .trunkReturn f = (s.modJob n (fun k => k.setClose .trunkReturn (.failed f))).checkReturns n := by
    unfold State.closeFailed; rw [hj]
  rw [hrun]
  exact (h0.checkReturns (fun _ _ _ h => h)).job

/-- A failed supply close of a rack job: its result stands, and a job that is no longer contained past CLOSE_SUPPLY is in
UNCONTAINED (R158). -/
theorem closeFailed_rack {s : State} {j : Job} {n : JobId} {p : Position} (h : s.job? n = some j) (hr : j.level = .rack)
    (f : FaultCode) : ∃ k, (s.closeFailed j (.targetSupply p) f).job? n = some k ∧ k.SupplyIs p (.failed f) ∧
      (j.phase = .drain ∨ j.phase = .closeReturn ∨ j.phase = .confirm ∨ j.phase = .hold →
        (k.contained = true → k.phase = j.phase) ∧
        (k.contained = false → k.phase = .uncontained ∧ k.deadline = some (s.now + 5000))) := by
  have hj : j.id = n := (job?_some h).2
  have h0 := holds_setClose Branch.drive s n (.targetSupply p) (.failed f) (fun k => setClose_supplyIs k p _)
  have hjob : (s.modJob n (fun k => k.setClose (.targetSupply p) (.failed f))).job? n =
      some (j.setClose (.targetSupply p) (.failed f)) := by
    refine (modJob_job? s n n (fun k => setClose_id k _ _)).trans ?_
    rw [if_pos rfl, h]; rfl
  have hrun : s.closeFailed j (.targetSupply p) f =
      (s.modJob n (fun k => k.setClose (.targetSupply p) (.failed f))).afterFailure n := by
    unfold State.closeFailed; rw [hj]; exact if_pos hr
  rw [hrun]
  obtain ⟨k, hk, hkp⟩ := (h0.afterFailure (supplyIs_steady p _)).exists_job h
  refine ⟨k, hk, hkp, fun hph => ?_⟩
  have hother : ¬ (j.phase = .notify ∨ j.phase = .closeSupply ∨ j.phase = .uncontained) := by
    rcases hph with e | e | e | e <;> rw [e] <;> simp
  have hafter : (s.modJob n (fun k => k.setClose (.targetSupply p) (.failed f))).afterFailure n =
      if (j.setClose (.targetSupply p) (.failed f)).contained then
        s.modJob n (fun k => k.setClose (.targetSupply p) (.failed f))
      else (s.modJob n (fun k => k.setClose (.targetSupply p) (.failed f))).enterUncontained n := by
    unfold State.afterFailure; rw [hjob]
    refine if_neg ?_
    rw [show (j.setClose (.targetSupply p) (.failed f)).phase = j.phase from rfl]
    simpa [or_assoc] using hother
  rw [hafter] at hk
  cases hc : (j.setClose (.targetSupply p) (.failed f)).contained with
  | true =>
    rw [hc, if_pos rfl, hjob] at hk
    obtain rfl := Option.some.inj hk
    exact ⟨fun _ => rfl, fun e => absurd (hc.symm.trans e) (by decide)⟩
  | false =>
    rw [hc, if_neg Bool.false_ne_true] at hk
    have h1 : (s.modJob n (fun k => k.setClose (.targetSupply p) (.failed f))).JobIs n (fun k => k.contained = false) :=
      fun k hk => by rw [← Option.some.inj (hjob.symm.trans hk)]; exact hc
    have h2 := h1.setPhase (n := n) .uncontained (some (s.now + 5000))
      (Q := fun k => k.contained = false ∧ k.phase = .uncontained ∧ k.deadline = some (s.now + 5000))
      (fun k hk => ⟨hk, rfl, rfl⟩)
    have h3 := (State.Holds.tellUncontained (g := Branch.drive) false ⟨.refl _ _, rfl, h2⟩).job k hk
    exact ⟨fun e => absurd (h3.1.symm.trans e) (by decide), fun _ => h3.2⟩

end Sys2Proof.Machine

/-! ## Escalation into the empty rack slot (R148, R156) -/

namespace Sys2Proof.Machine

-- One after another: side by side the proofs of the whole text take more memory than a check may.
set_option Elab.async false

/-! ### The rack slot (R142) -/

theorem rackJob_of_slots {s t : State} (h : t.iso.slots = s.iso.slots) : t.rackJob = s.rackJob := by
  unfold State.rackJob; rw [h]

/-- A list read with a default, after a function on its elements and on the default. -/
theorem getD_map_apply {α β : Type} (l : List α) (d : α) (f : α → β) {n : Nat} : (l.map f).getD n (f d) = f (l.getD n d) := by
  rw [List.getD_eq_getElem?_getD, List.getD_eq_getElem?_getD, List.getElem?_map, Option.getD_map]

theorem modJob_rackJob (s : State) (i : JobId) (f : Job → Job) :
    (s.modJob i f).rackJob = s.rackJob.map (fun j => if j.id = i then f j else j) :=
  getD_map_apply s.iso.slots none (Option.map (fun j => if j.id = i then f j else j))

theorem dropJob_rackJob {s : State} {i : JobId} {j : Job} (h : s.rackJob = some j) (hi : j.id ≠ i) :
    (s.dropJob i).rackJob = some j := by
  unfold State.rackJob State.dropJob at *
  dsimp only
  rw [List.getD_eq_getElem?_getD] at h ⊢
  rw [List.getElem?_map]
  cases hx : s.iso.slots[Config.rackSlot]? with
  | none => rw [hx] at h; exact absurd h (by simp)
  | some y =>
    rw [hx] at h
    obtain rfl : y = some j := h
    exact if_neg hi

theorem setSlot_rackJob {s : State} (h : s.iso.slots.length = 9) (j : Job) :
    (s.setSlot Config.rackSlot (some j)).rackJob = some j := by
  unfold State.rackJob State.setSlot
  dsimp only
  rw [List.getD_eq_getElem?_getD, List.getElem?_set_self (by rw [h]; decide)]
  rfl

theorem rackJob_mem {s : State} {j : Job} (h : s.rackJob = some j) : j ∈ s.jobs := by
  unfold State.rackJob at h
  unfold State.jobs
  refine List.mem_filterMap.2 ⟨some j, ?_, rfl⟩
  rw [List.getD_eq_getElem?_getD] at h
  cases hx : s.iso.slots[Config.rackSlot]? with
  | none => rw [hx] at h; exact absurd h (by simp)
  | some y => rw [hx] at h; exact h ▸ List.mem_of_getElem? hx

/-! ### A rack job that takes branches up (R148, R156) -/

/-- The rack slot holds a real job with id `n`, and every job with that id has a property. -/
structure State.Gathers (n : JobId) (P : Job → Prop) (s : State) : Prop where
  rack : ∃ k, s.rackJob = some k ∧ k.id = n
  jobs : ∀ k ∈ s.jobs, k.id = n → k.drill = false ∧ P k

namespace State.Gathers

variable {s t : State} {n : JobId} {P Q : Job → Prop}

theorem of_slots (h : Gathers n P s) (e : t.iso.slots = s.iso.slots) : Gathers n P t := by
  refine ⟨?_, ?_⟩
  · rw [rackJob_of_slots e]; exact h.rack
  · rw [jobs_of_slots e]; exact h.jobs

theorem imp (h : Gathers n P s) (hq : ∀ k, P k → Q k) : Gathers n Q s :=
  ⟨h.rack, fun k hk hi => ⟨(h.jobs k hk hi).1, hq k (h.jobs k hk hi).2⟩⟩

/-- The job in the rack slot has the property. -/
theorem rackJob (h : Gathers n P s) : ∃ k, s.rackJob = some k ∧ k.id = n ∧ P k := by
  obtain ⟨k, hk, hi⟩ := h.rack
  exact ⟨k, hk, hi, (h.jobs k (rackJob_mem hk) hi).2⟩

/-- A change of the job itself. -/
theorem modJob {f : Job → Job} (h : Gathers n P s) (hid : ∀ k, (f k).id = k.id) (hd : ∀ k, (f k).drill = k.drill)
    (hf : ∀ k, P k → Q (f k)) : Gathers n Q (s.modJob n f) := by
  refine ⟨?_, fun k hk hi => ?_⟩
  · obtain ⟨k, hk, hi⟩ := h.rack
    rw [modJob_rackJob, hk]
    exact ⟨_, rfl, by dsimp only; rw [if_pos hi]; exact (hid k).trans hi⟩
  · rw [modJob_jobs] at hk
    obtain ⟨j, hj, rfl⟩ := List.mem_map.1 hk
    by_cases e : j.id = n
    · rw [if_pos e, hd]
      exact ⟨(h.jobs j hj e).1, hf j (h.jobs j hj e).2⟩
    · rw [if_neg e] at hi; exact absurd hi e

/-- A change of another job. -/
theorem modJob_ne {i : JobId} {f : Job → Job} (h : Gathers n P s) (hi : i ≠ n) (hid : ∀ k, (f k).id = k.id) :
    Gathers n P (s.modJob i f) := by
  refine ⟨?_, fun k hk hk' => ?_⟩
  · obtain ⟨k, hk, hk'⟩ := h.rack
    rw [modJob_rackJob, hk]
    exact ⟨_, rfl, by dsimp only; rw [if_neg (hk' ▸ hi.symm)]; exact hk'⟩
  · rw [modJob_jobs] at hk
    obtain ⟨j, hj, rfl⟩ := List.mem_map.1 hk
    by_cases e : j.id = i
    · rw [if_pos e, hid] at hk'; exact absurd (e.symm.trans hk') hi
    · rw [if_neg e] at hk' ⊢; exact h.jobs j hj hk'

theorem dropJob_ne {i : JobId} (h : Gathers n P s) (hi : i ≠ n) : Gathers n P (s.dropJob i) := by
  refine ⟨?_, fun k hk => ?_⟩
  · obtain ⟨k, hk, hk'⟩ := h.rack
    exact ⟨k, dropJob_rackJob hk (hk' ▸ hi.symm), hk'⟩
  · rw [dropJob_jobs] at hk
    exact h.jobs k (List.mem_filter.1 hk).1

/-- What the drill gives up is no business of a real job (R166). -/
theorem takeFromDrill (p : Position) (h : Gathers n P s) : Gathers n P (s.takeFromDrill p) := by
  unfold State.takeFromDrill; split
  · exact h
  · rename_i j hj
    have hne : j.id ≠ n := fun e => by
      have hd := (h.jobs j (List.mem_of_find?_eq_some hj) e).1
      have hd' := List.find?_some hj
      exact absurd (hd.symm.trans hd') Bool.false_ne_true
    have h1 : Gathers n P (s.modJob j.id (fun j => { j with targets := j.targets.filter (fun t => t.pos ≠ p) })) :=
      h.modJob_ne hne (fun _ => rfl)
    split
    · dsimp only
      split
      · exact (h1.dropJob_ne hne).of_slots rfl
      · exact h1.of_slots rfl
    · exact h

theorem join (p : Position) (h : Gathers n P s) (hq : ∀ k b, P k → Q (Job.joinedBy b p k)) : Gathers n Q (s.join n p) := by
  have h1 : Gathers n P (s.leaveForJob n p) := (h.takeFromDrill p).of_slots (withdrawn_slots s p)
  have h2 : Gathers n Q ((s.leaveForJob n p).modJob n (Job.joinedBy ((s.leaveForJob n p).br p) p)) :=
    h1.modJob (fun _ => rfl) (fun _ => rfl) (fun k hk => hq k _ hk)
  refine h2.of_slots ?_
  rw [join_eq, reserve_slots, reserve_slots]

end State.Gathers

theorem joinedBy_keeps_target {k : Job} {q : Position} (b : Branch) (p : Position) (h : k.hasTarget q = true) :
    (k.joinedBy b p).hasTarget q = true := by
  unfold Job.hasTarget at h ⊢
  obtain ⟨x, hx, hq⟩ := List.any_eq_true.1 h
  exact List.any_eq_true.2 ⟨x, (mem_insertBy _ _ _ _).2 (Or.inr hx), hq⟩

/-- After a list of branches has joined, each is a target (R148). -/
theorem State.Gathers.joins {n : JobId} {P : Job → Prop} (l : List Position)
    (hP : ∀ k b, ∀ q ∈ l, P k → P (Job.joinedBy b q k)) : ∀ (done : List Position) (s : State),
    State.Gathers n (fun k => P k ∧ ∀ q ∈ done, k.hasTarget q = true) s →
    State.Gathers n (fun k => P k ∧ ∀ q ∈ done ++ l, k.hasTarget q = true) (s.forEach l (fun s p => s.join n p)) := by
  induction l with
  | nil => exact fun done s h => by rw [List.append_nil]; exact h
  | cons p l ih =>
    intro done s h
    have h1 : State.Gathers n (fun k => P k ∧ ∀ q ∈ done ++ [p], k.hasTarget q = true) (s.join n p) := by
      refine h.join p (fun k b hk => ⟨hP k b p List.mem_cons_self hk.1, fun q hq => ?_⟩)
      rcases List.mem_append.1 hq with hq | hq
      · exact joinedBy_keeps_target b p (hk.2 q hq)
      · rw [List.mem_singleton.1 hq]; exact joinedBy_hasTarget b p k
    have h2 := ih (fun k b q hq => hP k b q (List.mem_cons_of_mem p hq)) _ _ h1
    rwa [List.append_assoc] at h2

/-! ### The branches and the trunk while branches join (R148) -/

theorem withdrawn_length (s : State) (p : Position) : (s.withdrawn p).branches.length = s.branches.length := by
  unfold State.withdrawn; split
  · have hc : ((s.detached p).clearArbiterFields p).branches.length = (s.detached p).branches.length := by
      unfold State.clearArbiterFields
      rw [length_of_still (cancelTrim_still _ p _)]; simp
    rw [hc, (detached_undrawn s p).length]
  · exact (detached_undrawn s p).length

theorem join_branches (s : State) (n : JobId) (p : Position) : (s.join n p).branches = (s.leaveForJob n p).branches := by
  rw [join_eq, reserve_leaves State.branches (fun _ _ => rfl), reserve_leaves State.branches (fun _ _ => rfl)]
  rfl

theorem join_length (s : State) (n : JobId) (p : Position) : (s.join n p).branches.length = s.branches.length := by
  rw [join_branches, leaveForJob_eq, modBr_branches_length, withdrawn_length]

theorem join_state_self {s : State} {p : Position} (h : p < s.branches.length) (n : JobId) :
    ((s.join n p).br p).state = .isolating := by
  rw [br_congr (join_branches s n p), leaveForJob_eq, modBr_br_self _ p _ (by rw [withdrawn_length]; exact h)]

theorem join_br_ne (s : State) (n : JobId) {p q : Position} (h : q ≠ p) : (s.join n p).br q = s.br q := by
  rw [br_congr (join_branches s n p), leaveForJob_eq, modBr_br_ne _ _ h.symm, withdrawn_br_ne s h]

theorem joins_isolating (n : JobId) (l : List Position) {s : State} {q : Position} (h : q < s.branches.length) (hq : q ∈ l) :
    ((s.forEach l (fun s p => s.join n p)).br q).state = .isolating := by
  refine forEach_each (fun t => t.branches.length = s.branches.length)
    (fun q t => q < s.branches.length → (t.br q).state = .isolating) (fun s p => s.join n p)
    (fun t p ht => (join_length t n p).trans ht) (fun t p ht hp => join_state_self (ht.symm ▸ hp) n)
    (fun t p r ht hr hl => ?_) l s rfl q hq h
  by_cases e : r = p
  · rw [e] at hl ⊢; exact join_state_self (ht.symm ▸ hl) n
  · rw [join_br_ne t n e]; exact hr hl

/-- Nothing that ends on a branch that joins touches a reservation (R16). -/
theorem withdrawn_reservedBy (s : State) (p : Position) (a : ActuatorNo) :
    ((s.withdrawn p).act a).reservedBy = (s.act a).reservedBy := by
  have hverify (t : State) : ((if t.verifyOn p then t.endVerify p (.aborted .isolation) false else t).act a).reservedBy =
      (t.act a).reservedBy := by
    split
    · exact act_reservedBy_of_still (endVerify_still t p _ false) a
    · rfl
  have hservice (t : State) : ((if t.serviceBranch = some p then
      t.endService .aborted (.aborted (.service .joined)) else t).act a).reservedBy = (t.act a).reservedBy := by
    split
    · exact act_reservedBy_of_still (endService_still t _ _) a
    · rfl
  have hclosing (t : State) : (((t.endClosing p).clearDraw p).act a).reservedBy = (t.act a).reservedBy :=
    act_reservedBy_of_still ((clearDraw_still _ p).trans (endClosing_still t p)) a
  have hdetached : ((s.detached p).act a).reservedBy = (s.act a).reservedBy := by
    unfold State.detached; dsimp only
    rw [hclosing, hservice, hverify]
    exact takeFromDrill_leaves (fun s => (s.act a).reservedBy) (fun _ _ => rfl) s p
  unfold State.withdrawn; split
  · rw [act_congr (congrArg Bus.actuators (clearArbiterFields_bus _ p)), hdetached]
  · exact hdetached

/-- A reservation of the trunk stays when a branch joins (R73). -/
theorem join_reservedBy_trunk (s : State) (n : JobId) {p : Position} {a : ActuatorNo} (hp : p < 24) (ha : 48 ≤ a) :
    ((s.join n p).act a).reservedBy = (s.act a).reservedBy := by
  have hsup : supplyOf p ≠ a := Nat.ne_of_lt (Nat.lt_of_lt_of_le (Nat.lt_trans hp (by decide)) ha)
  have hret : returnOf p ≠ a := Nat.ne_of_lt (Nat.lt_of_lt_of_le (Nat.add_lt_add_right hp 24) ha)
  rw [join_eq, reserve_act_ne _ n hret, reserve_act_ne _ n hsup]
  exact withdrawn_reservedBy s p a

/-! ### The whole intake of a NOTIFY (R148) -/

theorem warnTargets_leaves {α : Type} (f : State → α) (hf : ∀ (s : State) x, f (s.notify x) = f s) (s : State) (n : JobId)
    (ps : List Position) : f (s.warnTargets n ps) = f s := by
  unfold State.warnTargets; split
  · rfl
  · rename_i j _
    exact forEach_leaves f (fun (s : State) (t : Target) =>
      s.notify (.isolateWarn t.pos j.id j.level j.origin j.drill (s.left (j.deadline.getD s.now)))) (fun s _ => hf s _) _ s

/-- After the branches have joined, the warnings and the tasks of the pass are notices and work (R148). -/
theorem joinAll_leaves {α : Type} (f : State → α) (hf : ∀ (s : State) x, f (s.notify x) = f s)
    (hw : ∀ (s : State) x, f { s with work := x } = f s) (s : State) (n : JobId) (ps : List Position) :
    f (s.joinAll n ps) = f (s.forEach ps (fun s p => s.join n p)) := by
  unfold State.joinAll; dsimp only
  exact ((hw _ _).trans (hw _ _)).trans (warnTargets_leaves f hf _ n ps)

/-! ### Escalation (R156) -/

/-- A job as it enters the rack slot (R156). -/
def Job.raised (j : Job) (d : Option Time) : Job :=
  { j with level := .rack, trunk := some ⟨.pending, .pending⟩, phase := .notify, deadline := d, armed := false }

/-- The table with the job in the rack slot (R156). -/
def State.raised (s : State) (j : Job) : State := (s.dropJob j.id).setSlot Config.rackSlot (some (j.raised s.warnAt))

theorem escalate_eq (s : State) (j : Job) :
    s.escalate j = ((s.raised j).reserveTrunk j.id).joinAll j.id (s.raised j).newcomers := rfl

theorem raised_jobs {s : State} {j k : Job} (h : k ∈ (s.raised j).jobs) :
    k = j.raised s.warnAt ∨ (k ∈ s.jobs ∧ k.id ≠ j.id) := by
  rcases jobs_set (j.raised s.warnAt) (s.dropJob j.id).iso.slots Config.rackSlot k h with e | e
  · exact Or.inl e
  · have hk : k ∈ (s.dropJob j.id).jobs := e
    rw [dropJob_jobs] at hk
    obtain ⟨h1, h2⟩ := List.mem_filter.1 hk
    exact Or.inr ⟨h1, by simpa using h2⟩

/-- The rack slot holds the raised job (R156). -/
theorem raised_rackJob {s : State} (h : s.iso.slots.length = 9) (j : Job) : (s.raised j).rackJob = some (j.raised s.warnAt) :=
  setSlot_rackJob ((List.length_map ..).trans h) _

theorem raised_gathers {s : State} (h : s.iso.slots.length = 9) {j : Job} (hd : j.drill = false) {P : Job → Prop}
    (hP : P (j.raised s.warnAt)) : State.Gathers j.id P (s.raised j) :=
  ⟨⟨_, raised_rackJob h j, rfl⟩, fun k hk hi => by
    rcases raised_jobs hk with rfl | ⟨_, hne⟩
    · exact ⟨hd, hP⟩
    · exact absurd hi hne⟩

/-- A branch that no real job held is a newcomer (R145, R156). -/
theorem mem_newcomers {s : State} {q : Position} :
    q ∈ s.newcomers ↔ q < 24 ∧ (s.br q).state ≠ .vacant ∧ s.realJobOf q = none := by
  unfold State.newcomers
  rw [List.mem_filter, mem_positions]
  simp

theorem realJobOf_none {s : State} {q : Position} :
    s.realJobOf q = none ↔ ∀ k ∈ s.jobs, k.drill = false → k.hasTarget q = false := by
  unfold State.realJobOf
  rw [List.find?_eq_none]
  simp

theorem reserveTrunk_slots (s : State) (n : JobId) : (s.reserveTrunk n).iso.slots = s.iso.slots :=
  (reserve_slots _ _ _).trans (reserve_slots _ _ _)

theorem reserveTrunk_branches (s : State) (n : JobId) : (s.reserveTrunk n).branches = s.branches := by
  unfold State.reserveTrunk
  rw [reserve_leaves State.branches (fun _ _ => rfl), reserve_leaves State.branches (fun _ _ => rfl)]

theorem reserveTrunk_reservedBy {s : State} (h : s.bus.actuators.length = 50) (n : JobId) :
    ((s.reserveTrunk n).act 48).reservedBy = n ∧ ((s.reserveTrunk n).act 49).reservedBy = n := by
  have hlen : (s.reserve n 48).bus.actuators.length = 50 := (reserve_length s n 48).trans h
  unfold State.reserveTrunk
  refine ⟨?_, ?_⟩
  · rw [reserve_act_ne _ n (by decide), reserve_act_self (by rw [h]; decide)]
  · rw [reserve_act_self (by rw [hlen]; decide)]

/-- What an escalation makes of a state: the job stands in the rack slot in NOTIFY, its trunk to be closed and reserved, and
every branch that no real job held joins it (R156). -/
theorem escalate_facts {s : State} {j : Job} {p : Position} {c : Close} (hb : s.branches.length = 24)
    (ha : s.bus.actuators.length = 50) (hs : s.iso.slots.length = 9) (hd : j.drill = false) (hp : j.hasTarget p = true)
    (hc : j.SupplyIs p c) :
    (∃ k, (s.escalate j).rackJob = some k ∧ k.id = j.id ∧ k.level = .rack ∧ k.phase = .notify ∧ k.deadline = s.warnAt ∧
      k.trunk = some { supply := .pending, ret := .pending } ∧ k.SupplyIs p c ∧
      ∀ q, q < 24 → (s.br q).state ≠ .vacant → (∀ x ∈ s.jobs, x.drill = false → x.hasTarget q = false) →
        j.hasTarget q = false → ((s.escalate j).br q).state = .isolating ∧ k.hasTarget q = true) ∧
    ((s.escalate j).act 48).reservedBy = j.id ∧ ((s.escalate j).act 49).reservedBy = j.id := by
  have hpn : p ∉ (s.raised j).newcomers := fun hm => by
    have hnone := realJobOf_none.1 (mem_newcomers.1 hm).2.2 _ (rackJob_mem (raised_rackJob hs j)) hd
    exact absurd (hp.symm.trans hnone) (by decide)
  have h0 := raised_gathers (P := fun k => (k.level = .rack ∧ k.phase = .notify ∧ k.deadline = s.warnAt ∧
    k.trunk = some { supply := .pending, ret := .pending } ∧ k.SupplyIs p c) ∧ ∀ q ∈ ([] : List Position), k.hasTarget q = true)
    hs hd ⟨⟨rfl, rfl, rfl, rfl, hc⟩, fun _ h => nomatch h⟩
  have h1 := State.Gathers.joins (s.raised j).newcomers (fun k b q hq hk => by
      obtain ⟨k1, k2, k3, k4, k5⟩ := hk
      refine ⟨k1, k2, k3, k4, fun x hx hxp => ?_⟩
      rcases (mem_insertBy _ _ _ _).1 hx with rfl | hx
      · exact absurd hxp (fun e => hpn (e ▸ hq))
      · exact k5 x hx hxp) _ _ (h0.of_slots (reserveTrunk_slots (s.raised j) j.id))
  have h2 := h1.of_slots (t := s.escalate j) (joinAll_leaves (fun s => s.iso.slots) (fun _ _ => rfl) (fun _ _ => rfl) _ _ _)
  obtain ⟨k, hk, hki, ⟨k1, k2, k3, k4, k5⟩, hkt⟩ := h2.rackJob
  have hact (a : ActuatorNo) (h48 : 48 ≤ a) : ((s.escalate j).act a).reservedBy =
      (((s.raised j).reserveTrunk j.id).act a).reservedBy := by
    rw [escalate_eq]
    refine (joinAll_leaves (fun s => (s.act a).reservedBy) (fun _ _ => rfl) (fun _ _ => rfl) _ _ _).trans ?_
    exact forEach_keeps_mem (fun t => (t.act a).reservedBy = (((s.raised j).reserveTrunk j.id).act a).reservedBy) _ _ _
      (fun t q hq ht => (join_reservedBy_trunk t j.id (mem_newcomers.1 hq).1 h48).trans ht) rfl
  obtain ⟨r1, r2⟩ := reserveTrunk_reservedBy (s := s.raised j) ha j.id
  refine ⟨⟨k, hk, hki, k1, k2, k3, k4, k5, fun q hq hv hnone hjq => ?_⟩, (hact 48 (by decide)).trans r1,
    (hact 49 (by decide)).trans r2⟩
  have hqn : q ∈ (s.raised j).newcomers := by
    refine mem_newcomers.2 ⟨hq, hv, realJobOf_none.2 (fun x hx hxd => ?_)⟩
    rcases raised_jobs hx with rfl | ⟨hx', _⟩
    · exact hjq
    · exact hnone x hx' hxd
  refine ⟨?_, hkt q hqn⟩
  rw [escalate_eq]
  refine (joinAll_leaves (fun s => (s.br q).state) (fun _ _ => rfl) (fun _ _ => rfl) _ _ _).trans ?_
  refine joins_isolating j.id _ ?_ hqn
  rw [reserveTrunk_branches]
  exact Nat.lt_of_lt_of_eq hq hb.symm

end Sys2Proof.Machine

/-! ## Transfer into the rack job (R157), and the reports of closes together (R152) -/

namespace Sys2Proof.Machine

-- One after another: side by side the proofs of the whole text take more memory than a check may.
set_option Elab.async false

/-! ### The rack job takes targets over (R157) -/

namespace State.Holds

variable {β : Type} {g : Branch → β} {b s : State} {n : JobId} {P : Job → Prop}

theorem reserveTrunk (h : Holds g b n P s) : Holds g b n P (s.reserveTrunk n) :=
  h.other (reserveTrunk_branches s n) (reserveTrunk_slots s n)

/-- After the trunk step the job has a trunk (R157). -/
theorem retakeTrunk (ht : ∀ k y, P k → P { k with trunk := y }) (h : Holds g b n P s) :
    Holds g b n (fun k => P k ∧ k.trunk ≠ none) (s.retakeTrunk n) := by
  cases hj : s.job? n with
  | none =>
    have e : s.retakeTrunk n = s := by unfold State.retakeTrunk; rw [hj]
    rw [e]
    exact ⟨h.same, h.ids, fun k hk => absurd (hj.symm.trans hk) (by simp)⟩
  | some j =>
    unfold State.retakeTrunk; rw [hj]
    dsimp only
    split
    · exact reserveTrunk (h.modJob (f := fun k => { k with trunk := some ⟨.pending, .pending⟩ }) (fun _ => rfl)
        (fun k hk => ⟨ht k _ hk, fun e => nomatch e⟩))
    · rename_i f _ hy
      have h1 : Holds g b n (fun k => P k ∧ k.trunk ≠ none) s := ⟨h.same, h.ids, fun k hk => ⟨h.job k hk, by
        rw [← Option.some.inj (hj.symm.trans hk), hy]; exact fun e => nomatch e⟩⟩
      exact h1.modJob (f := fun k => { k with trunk := k.trunk.map (fun y => { y with supply := .pending }) }) (fun _ => rfl)
        (fun k hk => ⟨ht k _ hk.1, fun e => hk.2 (Option.map_eq_none_iff.1 e)⟩)
    · rename_i y hy
      exact ⟨h.same, h.ids, fun k hk => ⟨h.job k hk, by
        rw [← Option.some.inj (hj.symm.trans hk), ‹j.trunk = some _›]; exact fun e => nomatch e⟩⟩

variable (hg : ∀ x : Branch, g { x with latched := true, maint := false } = g x)

include hg

theorem latchTargets (l : List Target) (h : Holds g b n P s) : Holds g b n P (s.latchTargets l) :=
  h.each l (fun t x h => h.view ((State.Same.refl g t).modBr x.pos _ hg) rfl)

theorem latch (j : Job) (h : Holds g b n P s) : Holds g b n P (s.latch j) := by
  unfold State.latch; dsimp only; split
  · exact (h.latchTargets hg _).other rfl rfl
  · exact h.latchTargets hg _

omit hg in
theorem holdIfChanged (x : State) (h : Holds g b n P s) : Holds g b n P (s.holdIfChanged x) :=
  h.other (holdIfChanged_leaves State.branches (fun _ _ => rfl) s x)
    (holdIfChanged_leaves (fun s => s.iso.slots) (fun _ _ => rfl) s x)

theorem latchArrivals (j : Job) (h : Holds g b n P s) : Holds g b n P (s.latchArrivals j) := by
  have h1 := h.latchTargets hg (j.targets.filter (fun t => !(s.br t.pos).latched))
  exact (h1.other (t := { s.latchTargets (j.targets.filter (fun t => !(s.br t.pos).latched)) with store.trunkLatch := true })
    rfl rfl).holdIfChanged s

variable (hP : Job.Steady P)

include hP

omit hg in
theorem closeSupplies (j : Job) (h : Holds g b n P s) : Holds g b n P (s.closeSupplies n j) := by
  unfold State.closeSupplies; dsimp only
  refine checkSupply hP (each _ ?_ (fun _ _ h => h.busOnly (placeIso_busOnly _ _ _ _)))
  split
  · exact h.busOnly (placeIso_busOnly _ _ _ _)
  · exact h

theorem enterCloseSupply (h : Holds g b n P s) : Holds g b n P (s.enterCloseSupply n) := by
  cases hj : s.job? n with
  | none => rw [enterCloseSupply_none hj]; exact h
  | some j =>
    rw [enterCloseSupply_some hj]
    exact closeSupplies hP j (holdIfChanged s ((h.latch hg j).setPhase hP.phase .closeSupply none))

end State.Holds

theorem steady_trunk {P : Job → Prop} (h : Job.Steady P) : Job.Steady (fun k => P k ∧ k.trunk ≠ none) :=
  ⟨fun k ph d hk => ⟨h.phase k ph d hk.1, hk.2⟩, fun k hk => ⟨h.deadline k hk.1, hk.2⟩,
    fun k hk => ⟨h.returns k hk.1, fun e => hk.2 (Option.map_eq_none_iff.1 e)⟩⟩

/-- The trunk step and the phase step of a rack job leave it with a trunk (R157). -/
theorem State.Holds.rackPhase {β : Type} {g : Branch → β} {b s : State} {n : JobId} {P : Job → Prop} {j : Job}
    (hg : ∀ x : Branch, g { x with latched := true, maint := false } = g x) (hP : Job.Steady P)
    (ht : ∀ k y, P k → P { k with trunk := y }) (hj : s.job? n = some j) (h : State.Holds g b n P s) :
    State.Holds g b n (fun k => P k ∧ k.trunk ≠ none) (s.rackPhase n) := by
  have h1 := h.retakeTrunk ht
  unfold State.rackPhase; rw [hj]
  dsimp only
  split
  · exact h1
  · split
    · split
      · exact (h1.latchArrivals hg j).busOnly (placeIso_busOnly _ _ _ _)
      · exact h1.latchArrivals hg j
    · exact h1.enterCloseSupply hg (steady_trunk hP)

/-! ### The targets pass to the rack job (R157) -/

/-- A rack job with the targets, the quarantine and the evidence of another (R157). -/
def Job.takesOver (j r : Job) : Job :=
  { j.targets.foldl Job.addTarget r with
    quarantine := r.quarantine + j.quarantine, evidence := mergeEvidence r.evidence j.evidence }

theorem transfer_eq (s : State) (j r : Job) : s.transfer j r =
    ((((s.dropJob j.id).passTargets j r.id).modJob r.id (Job.takesOver j)).rackPhase r.id).askPass [] := rfl

theorem mem_addTargets {x : Target} (l : List Target) : ∀ r : Job,
    x ∈ (l.foldl Job.addTarget r).targets ↔ x ∈ l ∨ x ∈ r.targets := by
  induction l with
  | nil => simp
  | cons t l ih =>
    intro r
    rw [List.foldl_cons, ih, List.mem_cons]
    show x ∈ l ∨ x ∈ insertBy _ t r.targets ↔ _
    rw [mem_insertBy, ← or_assoc, or_comm (a := x ∈ l)]

theorem takesOver_id (j r : Job) : (j.takesOver r).id = r.id := by
  have h (l : List Target) : ∀ r : Job, (l.foldl Job.addTarget r).id = r.id := by
    induction l with
    | nil => exact fun _ => rfl
    | cons t l ih => exact fun r => ih _
  exact h j.targets r

theorem mem_takesOver {j r : Job} {x : Target} : x ∈ (j.takesOver r).targets ↔ x ∈ j.targets ∨ x ∈ r.targets :=
  mem_addTargets j.targets r

theorem passTargets_slots (s : State) (j : Job) (k : JobId) : (s.passTargets j k).iso.slots = s.iso.slots :=
  forEach_leaves (fun s => s.iso.slots) (fun (s : State) (t : Target) => s.modBr t.pos (fun b => { b with job := k }))
    (fun _ _ => rfl) j.targets s

theorem passTargets_branches (s : State) (j : Job) (k : JobId) : (s.passTargets j k).branches =
    (s.forEach j.targets (fun s t => s.modBr t.pos (fun b => { b with job := k }))).branches := rfl

/-- The branches of the targets belong to the other job (R157). -/
theorem passTargets_job {s : State} {j : Job} {p : Position} (h : p < s.branches.length) (hp : j.hasTarget p = true)
    (k : JobId) : ((s.passTargets j k).br p).job = k := by
  obtain ⟨x, hx, hxp⟩ := List.any_eq_true.1 hp
  have hxp' : x.pos = p := of_decide_eq_true hxp
  rw [br_congr (passTargets_branches s j k)]
  refine forEach_each (fun t => t.branches.length = s.branches.length)
    (fun (x : Target) t => x.pos < s.branches.length → (t.br x.pos).job = k)
    (fun (s : State) (t : Target) => s.modBr t.pos (fun b => { b with job := k }))
    (fun t x ht => (modBr_branches_length t x.pos _).trans ht)
    (fun t x ht hl => congrArg Branch.job (modBr_br_self t x.pos _ (ht.symm ▸ hl))) (fun t x y ht hy hl => ?_)
    j.targets s rfl x hx (hxp'.symm ▸ h) |> fun e => hxp' ▸ e
  by_cases e : x.pos = y.pos
  · rw [← e] at hl ⊢; exact congrArg Branch.job (modBr_br_self t x.pos _ (ht.symm ▸ hl))
  · rw [modBr_br_ne t _ e]; exact hy hl

theorem job?_of_mem {s : State} (h : (s.jobs.map (fun j => j.id)).Nodup) {j : Job} (hj : j ∈ s.jobs) : s.job? j.id = some j := by
  cases e : s.job? j.id with
  | none =>
    have hne := List.find?_eq_none.1 e j hj
    simp at hne
  | some k => exact congrArg some (State.JobsInOrder.unique h (job?_some e).1 hj (job?_some e).2)

/-- What a transfer makes of a state: the failing job is gone, its branches belong to the rack job, and the rack job has
targets, quarantine and a trunk (R157). -/
theorem transfer_facts {s : State} {j r : Job} {p : Position} {c : Close} (hb : s.branches.length = 24) (hp : p < 24)
    (hr : s.job? r.id = some r) (hne : r.id ≠ j.id) (hj : j.hasTarget p = true) (hc : j.SupplyIs p c)
    (hrp : r.hasTarget p = false) :
    (s.transfer j r).job? j.id = none ∧ ((s.transfer j r).br p).job = r.id ∧
    ∃ k, (s.transfer j r).job? r.id = some k ∧ k.trunk ≠ none ∧ k.hasTarget p = true ∧
      k.quarantine = r.quarantine + j.quarantine ∧ k.SupplyIs p c := by
  have hslots : (((s.dropJob j.id).passTargets j r.id)).iso.slots = (s.dropJob j.id).iso.slots := passTargets_slots _ j r.id
  have hkeep : ((s.dropJob j.id).passTargets j r.id).job? r.id = some r :=
    (job?_of_slots hslots r.id).trans ((dropJob_job? s j.id r.id).trans ((if_neg hne).trans hr))
  have hgone : ((s.dropJob j.id).passTargets j r.id).job? j.id = none :=
    (job?_of_slots hslots j.id).trans ((dropJob_job? s j.id j.id).trans (if_pos rfl))
  have hjob : (((s.dropJob j.id).passTargets j r.id).br p).job = r.id :=
    passTargets_job (s := s.dropJob j.id) (Nat.lt_of_lt_of_eq hp hb.symm) hj r.id
  rw [transfer_eq]
  generalize (s.dropJob j.id).passTargets j r.id = t at hkeep hgone hjob
  have hnew : (t.modJob r.id (Job.takesOver j)).job? r.id = some (j.takesOver r) := by
    rw [modJob_job? t r.id r.id (takesOver_id j), if_pos rfl, hkeep]; rfl
  have hnone : (t.modJob r.id (Job.takesOver j)).job? j.id = none := by
    rw [modJob_job? t r.id j.id (takesOver_id j), if_neg hne.symm]; exact hgone
  have h0 : State.Holds Branch.job (t.modJob r.id (Job.takesOver j)) r.id
      (fun k => k.hasTarget p = true ∧ k.quarantine = r.quarantine + j.quarantine ∧ k.SupplyIs p c)
      (t.modJob r.id (Job.takesOver j)) := by
    refine ⟨.refl _ _, rfl, fun k hk => ?_⟩
    rw [← Option.some.inj (hnew.symm.trans hk)]
    refine ⟨?_, rfl, fun x hx hxp => ?_⟩
    · obtain ⟨x, hx, hxp⟩ := List.any_eq_true.1 hj
      exact List.any_eq_true.2 ⟨x, mem_takesOver.2 (Or.inl hx), hxp⟩
    · rcases mem_takesOver.1 hx with hx | hx
      · exact hc x hx hxp
      · exact absurd hxp (by simpa using List.any_eq_false.1 hrp x hx)
  have hP : Job.Steady (fun k => k.hasTarget p = true ∧ k.quarantine = r.quarantine + j.quarantine ∧ k.SupplyIs p c) :=
    ⟨fun _ _ _ h => h, fun _ h => h, fun k ⟨h1, h2, h3⟩ => ⟨by
      unfold Job.hasTarget at h1 ⊢
      rw [List.any_map]; exact h1, h2, (supplyIs_steady p c).returns k h3⟩⟩
  have h1 := (h0.rackPhase (fun _ => rfl) hP (fun _ _ h => h) hnew)
  obtain ⟨k, hk, ⟨h2, h3, h4⟩, h5⟩ := h1.exists_job hnew
  exact ⟨h1.no_job hnone, (h1.same.br p).trans hjob, k, hk, h5, h2, h3, h4⟩

/-! ### The reports of closes (R152) -/

theorem owns_supplyOf {j : Job} {p : Position} (hp : p < 24) : j.owns (supplyOf p) = j.hasTarget p := by
  unfold Job.owns; rw [branchOf_supplyOf hp]

theorem owns_returnOf {j : Job} {p : Position} (hp : p < 24) : j.owns (returnOf p) = j.hasTarget p := by
  unfold Job.owns; rw [branchOf_returnOf hp]

theorem owns_trunk {j : Job} {y : Trunk} (h : j.trunk = some y) {a : ActuatorNo} (ha : a = 48 ∨ a = 49) : j.owns a = true := by
  have h48 : branchOf a = none := branchOf_trunk (by rcases ha with rfl | rfl <;> decide)
  unfold Job.owns; rw [h48, h]
  rcases ha with e | e <;> rw [e] <;> rfl

theorem sideOf_supplyOf {p : Position} (hp : p < 24) : sideOf (supplyOf p) = .targetSupply p := if_pos hp

theorem sideOf_returnOf {p : Position} (hp : p < 24) : sideOf (returnOf p) = .targetReturn p := by
  unfold sideOf returnOf
  rw [if_neg (Nat.not_lt.2 (Nat.le_add_left 24 p)), if_pos (Nat.add_lt_add_right hp 24), Nat.add_sub_cancel]

section

variable {s : State} {j : Job} {n : JobId} (h : s.job? n = some j) {a : ActuatorNo} (ho : j.owns a = true)

include h ho

theorem isoReport_complete : s.isoReport n a .complete = s.closeOk j (sideOf a) := by
  unfold State.isoReport; rw [h]; exact if_pos ho

theorem isoReport_failed (f : FaultCode) : s.isoReport n a (.failed f) = s.closeFailed j (sideOf a) f := by
  unfold State.isoReport; rw [h]; exact if_pos ho

end

/-- A failed return close of a branch that its job has given up marks the branch all the same (R5). -/
theorem isoReport_late {s : State} {n : JobId} {p : Position} (hp : p < 24) (h : ∀ j, s.job? n = some j → j.hasTarget p = false)
    (f : FaultCode) : s.isoReport n (returnOf p) (.failed f) = s.markFault p .returnOpen none := by
  have hlate : s.lateReport (returnOf p) (.failed f) = s.markFault p .returnOpen none := by
    unfold State.lateReport; rw [sideOf_returnOf hp]
  unfold State.isoReport; split
  · exact hlate
  · rename_i j hj
    refine (if_neg ?_).trans hlate
    rw [owns_returnOf hp, h j hj]; exact Bool.false_ne_true

theorem setClose_hasTarget (j : Job) (x : Side) (c : Close) (p : Position) : (j.setClose x c).hasTarget p = j.hasTarget p := by
  have hmod (q : Position) (f : Target → Target) (hf : ∀ t, (f t).pos = t.pos) : (j.modTarget q f).hasTarget p = j.hasTarget p := by
    unfold Job.modTarget Job.hasTarget
    dsimp only
    rw [List.any_map]
    refine congrArg (j.targets.any ·) (funext fun t => ?_)
    show decide ((if t.pos = q then f t else t).pos = p) = decide (t.pos = p)
    split
    · rw [hf]
    · rfl
  cases x with
  | targetSupply q => exact hmod q _ (fun _ => rfl)
  | targetReturn q => exact hmod q _ (fun _ => rfl)
  | trunkSupply => rfl
  | trunkReturn => rfl

/-- A failed supply close of a BRANCH or ZONE job goes to the rack slot (R156, R157). -/
theorem closeFailed_supply {s : State} {j : Job} {n : JobId} (h : s.job? n = some j) (p : Position) (f : FaultCode)
    (hl : j.level ≠ .rack) {w : State} (hw : w = s.modJob n (fun k => k.setClose (.targetSupply p) (.failed f))) :
    s.closeFailed j (.targetSupply p) f = match w.rackJob with
      | none => w.escalate (j.setClose (.targetSupply p) (.failed f))
      | some r => w.transfer (j.setClose (.targetSupply p) (.failed f)) r := by
  have hid : j.id = n := (job?_some h).2
  have hjob : w.job? n = some (j.setClose (.targetSupply p) (.failed f)) := by
    rw [hw, modJob_job? s n n (fun k => setClose_id k _ _), if_pos rfl, h]; rfl
  have hrun : s.closeFailed j (.targetSupply p) f = match w.job? n, w.rackJob with
      | some j, none => w.escalate j
      | some j, some r => w.transfer j r
      | none, _ => w := by
    rw [hw, ← hid]
    exact if_neg hl
  rw [hrun, hjob]
  cases w.rackJob <;> rfl

/-- A BRANCH or ZONE job with a failed supply close takes the empty rack slot (R156). -/
theorem closeFailed_escalates {s : State} {j : Job} {n : JobId} {p : Position} (hz : s.Sized) (h : s.job? n = some j)
    (hd : j.drill = false) (hp : j.hasTarget p = true) (f : FaultCode) (hl : j.level ≠ .rack) (hr : s.rackJob = none) {u : State}
    (hu : u = s.closeFailed j (.targetSupply p) f) :
    ∃ k, u.rackJob = some k ∧ k.id = n ∧ k.level = .rack ∧ k.phase = .notify ∧
      k.deadline = some (s.now + s.pol.active.timing.warnDeadline) ∧ k.trunk = some { supply := .pending, ret := .pending } ∧
      (u.act 48).reservedBy = n ∧ (u.act 49).reservedBy = n ∧ k.SupplyIs p (.failed f) ∧
      ∀ q, q < 24 → (s.br q).state ≠ .vacant → s.realJobOf q = none → (u.br q).state = .isolating ∧ k.hasTarget q = true := by
  obtain ⟨hmem, hid⟩ := job?_some h
  have hrack : (s.modJob n (fun k => k.setClose (.targetSupply p) (.failed f))).rackJob = none := by
    rw [modJob_rackJob, hr]; rfl
  have hrun := closeFailed_supply h p f hl rfl
  rw [hrack] at hrun
  dsimp only at hrun
  obtain ⟨⟨k, k1, k2, k3, k4, k5, k6, k7, k8⟩, r1, r2⟩ := escalate_facts
    (s := s.modJob n (fun k => k.setClose (.targetSupply p) (.failed f)))
    (j := j.setClose (.targetSupply p) (.failed f)) (p := p) (c := .failed f) hz.branches hz.actuators
    ((List.length_map ..).trans hz.slots) hd ((setClose_hasTarget j _ _ p).trans hp) (setClose_supplyIs j p _)
  rw [← hrun, ← hu] at r1 r2 k1 k8
  have hid' : (j.setClose (.targetSupply p) (.failed f)).id = n := (setClose_id j _ _).trans hid
  refine ⟨k, k1, k2.trans hid', k3, k4, k5, k6, r1.trans hid', r2.trans hid', k7, fun q hq hv hnone => ?_⟩
  have hnone' := realJobOf_none.1 hnone
  refine k8 q hq hv (fun x hx hxd => ?_) ((setClose_hasTarget j _ _ q).trans (hnone' j hmem hd))
  rw [modJob_jobs] at hx
  obtain ⟨y, hy, rfl⟩ := List.mem_map.1 hx
  split at hxd
  · rename_i hyn
    rw [if_pos hyn, setClose_hasTarget]
    exact hnone' y hy hxd
  · rename_i hyn
    rw [if_neg hyn]
    exact hnone' y hy hxd

/-- A BRANCH or ZONE job with a failed supply close passes to the rack job that stands there (R157). -/
theorem closeFailed_transfers {s : State} {j r : Job} {n : JobId} {p : Position} (hz : s.Sized) (ho : s.JobsInOrder) (hp : p < 24)
    (h : s.job? n = some j) (hj : j.hasTarget p = true) (f : FaultCode) (hl : j.level ≠ .rack) (hr : s.rackJob = some r)
    (hne : r.id ≠ n) (hrp : r.hasTarget p = false) {u : State} (hu : u = s.closeFailed j (.targetSupply p) f) :
    u.job? n = none ∧ (u.br p).job = r.id ∧ ∃ k, u.job? r.id = some k ∧ k.trunk ≠ none ∧ k.hasTarget p = true ∧
      k.quarantine = r.quarantine + j.quarantine ∧ k.SupplyIs p (.failed f) := by
  have hid : (j.setClose (.targetSupply p) (.failed f)).id = n := (setClose_id j _ _).trans (job?_some h).2
  have hrack : (s.modJob n (fun k => k.setClose (.targetSupply p) (.failed f))).rackJob = some r := by
    rw [modJob_rackJob, hr, Option.map_some, if_neg hne]
  have hrun := closeFailed_supply h p f hl rfl
  rw [hrack] at hrun
  dsimp only at hrun
  have hrj : (s.modJob n (fun k => k.setClose (.targetSupply p) (.failed f))).job? r.id = some r := by
    rw [modJob_job? s n r.id (fun k => setClose_id k _ _), if_neg hne]
    exact job?_of_mem ho.ids (rackJob_mem hr)
  have hfacts := transfer_facts (s := s.modJob n (fun k => k.setClose (.targetSupply p) (.failed f)))
    (j := j.setClose (.targetSupply p) (.failed f)) (p := p) (c := .failed f) hz.branches hp hrj (hid ▸ hne)
    ((setClose_hasTarget j _ _ p).trans hj) (setClose_supplyIs j p _) hrp
  rw [← hrun, ← hu, hid] at hfacts
  exact hfacts

/-- Settles O54: a completed close stops and is recorded, a failed return close marks the branch, and a failed supply close
escalates, is transferred or is judged for containment. -/
theorem closesAreRecorded : Obligations.ClosesAreRecorded := by
  refine ⟨fun s j n p hz hp hj hjp => ?_, fun s n p f hz hp hn => ?_, fun s j n y hz ho hj hy => ?_,
    fun s u j n p f hz ho hp hj hd hjp hu => ?_⟩
  · have hlen : p < s.branches.length := Nat.lt_of_lt_of_eq hp hz.branches.symm
    have hid : j.id = n := (job?_some hj).2
    have hsup := (owns_supplyOf hp).trans hjp
    have hret := (owns_returnOf hp).trans hjp
    refine ⟨fun u hi hu => ?_, fun u hu => ?_, fun f u hu => ?_⟩
    · rw [isoReport_complete hj hsup, sideOf_supplyOf hp] at hu
      obtain ⟨h1, h2⟩ := closeOk_supply (s := s) (x := .targetSupply p) hid rfl (supplyIs_steady p .ok)
        (fun k => setClose_supplyIs k p .ok)
      rw [hu]
      exact ⟨h2 p hlen (List.mem_singleton.2 rfl) hi, fun k x hk hx hxp => h1 k hk x hx hxp⟩
    · rw [isoReport_complete hj hret, sideOf_returnOf hp] at hu
      have h1 := closeOk_return (s := s) (x := .targetReturn p) (P := Job.ReturnIs p .ok) hid rfl (fun _ _ _ h => h)
        (fun k => setClose_returnIs k p .ok)
      rw [hu]
      exact fun k x hk hx hxp => h1 k hk x hx hxp
    · rw [isoReport_failed hj hret, sideOf_returnOf hp] at hu
      obtain ⟨h1, h2⟩ := closeFailed_return (s := s) hid hlen f
      rw [hu]
      exact ⟨h1, fun k x hk hx hxp => h2 k hk x hx hxp⟩
  · rw [isoReport_late hp hn]
    exact (markFault_returnOpen (Nat.lt_of_lt_of_eq hp hz.branches.symm)).1
  · have hid : j.id = n := (job?_some hj).2
    have h48 := owns_trunk hy (Or.inl rfl)
    have h49 := owns_trunk hy (Or.inr rfl)
    refine ⟨fun u hu => ?_, fun u hu => ?_, fun f u hu => ?_, fun f u hu => ?_⟩
    · rw [isoReport_complete hj h48] at hu
      obtain ⟨h1, h2⟩ := closeOk_supply (s := s) (j := j) (x := .trunkSupply) hid rfl (trunkSupplyIs_steady .ok)
        (fun k => setClose_trunkSupplyIs k .ok)
      rw [hu]
      refine ⟨fun q hq hjq hi => h2 q (Nat.lt_of_lt_of_eq hq hz.branches.symm) ?_ hi, fun k z hk hz => h1 k hk z hz⟩
      obtain ⟨x, hx, hxq⟩ := List.any_eq_true.1 hjq
      exact List.mem_map.2 ⟨x, hx, of_decide_eq_true hxq⟩
    · rw [isoReport_complete hj h49] at hu
      have h1 := closeOk_return (s := s) (j := j) (x := .trunkReturn) (P := Job.TrunkReturnIs .ok) hid rfl (fun _ _ _ h => h)
        (fun k => setClose_trunkReturnIs k .ok)
      rw [hu]
      exact fun k z hk hz => h1 k hk z hz
    · rw [isoReport_failed hj h48] at hu
      rw [hu]
      exact fun k z hk hz => closeFailed_trunkSupply hid f k hk z hz
    · rw [isoReport_failed hj h49] at hu
      rw [hu]
      exact fun k z hk hz => closeFailed_trunkReturn hid f k hk z hz
  · have hsup := (owns_supplyOf hp).trans hjp
    rw [isoReport_failed hj hsup, sideOf_supplyOf hp] at hu
    refine ⟨fun hl hr => ?_, fun r hl hr hne _ hrp => ?_, fun hl => ?_⟩
    · exact closeFailed_escalates hz hj hd hjp f hl hr hu
    · exact closeFailed_transfers hz ho hp hj hjp f hl hr hne hrp hu
    · rw [hu]; exact closeFailed_rack hj hl f

end Sys2Proof.Machine

/-! ## Localization (R132–R141): cases, their onsets and their expiry -/

namespace Sys2Proof.Machine

-- One after another: side by side the proofs of the whole text take more memory than a check may.
set_option Elab.async false

/-! ### What localization leaves to the sequencer -/

namespace State.Onward

variable {g : Bool} {b s : State}

theorem caseNotice (ev : CaseEvent) (src : CaseSource) (d : Bool) (l : List Evidence) (t : Option Time) (r : Option IsoRequest)
    (h : Onward g b s) : Onward g b (s.caseNotice ev src d l t r) := h.notify _

theorem handRequest (src : CaseSource) (r : IsoRequest) (h : Onward g b s) : Onward g b (s.handRequest src r) := by
  unfold State.handRequest; split
  · exact h.caseNotice _ _ _ _ _ _
  · exact h.takeRequest r

theorem makeRequest (ev : CaseEvent) (src : CaseSource) (r : IsoRequest) (h : Onward g b s) :
    Onward g b (s.makeRequest ev src r) := (h.caseNotice ev src r.drill r.evidence none (some r)).handRequest src r

end State.Onward

theorem cases_of_frozen {s t : State} (h : t.frozen = s.frozen) : t.cases = s.cases :=
  show t.frozen.cases = s.frozen.cases by rw [h]

theorem caseAt_of_cases {s t : State} (h : t.cases = s.cases) (k : Nat) : t.caseAt k = s.caseAt k := by
  unfold State.caseAt; rw [h]

/-- An open case stands within the table. -/
theorem caseAt_lt {s : State} {k : Nat} {c : Case} (h : s.caseAt k = some c) : k < s.cases.length := by
  refine Classical.byContradiction (fun hn => ?_)
  unfold State.caseAt at h
  rw [List.getD_eq_getElem?_getD, List.getElem?_eq_none (Nat.le_of_not_lt hn)] at h
  exact absurd h (by simp)

/-- An entry that is closed is empty. -/
theorem setCase_none_caseAt (s : State) (k g : Nat) : (s.setCase k none).caseAt g = if g = k then none else s.caseAt g := by
  split
  · rename_i e
    rw [e]
    by_cases hk : k < s.cases.length
    · exact setCase_caseAt_self s k none hk
    · unfold State.caseAt State.setCase
      dsimp only
      rw [List.getD_eq_getElem?_getD, List.getElem?_eq_none (by rw [List.length_set]; exact Nat.le_of_not_lt hk)]
      rfl
  · rename_i e
    exact setCase_caseAt_ne s none (Ne.symm e)

/-! ### Evidence that joins a case (R133, R139) -/

theorem addToCase_some {s : State} {k : Nat} {c : Case} (h : s.caseAt k = some c) (e : Evidence) :
    s.addToCase k e = s.setCase k (some (c.add e)) := by unfold State.addToCase; rw [h]

theorem addToCase_none {s : State} {k : Nat} (h : s.caseAt k = none) (e : Evidence) : s.addToCase k e = s := by
  unfold State.addToCase; rw [h]

theorem addToCase_caseAt (s : State) (k g : Nat) (e : Evidence) :
    (s.addToCase k e).caseAt g = if g = k then (s.caseAt k).map (fun c => c.add e) else s.caseAt g := by
  cases h : s.caseAt k with
  | none =>
    rw [addToCase_none h]
    split
    · rename_i hg; rw [hg, h]; rfl
    · rfl
  | some c =>
    rw [addToCase_some h]
    split
    · rename_i hg; rw [hg]; exact setCase_caseAt_self s k _ (caseAt_lt h)
    · rename_i hg; exact setCase_caseAt_ne s _ (Ne.symm hg)

/-- Drill evidence leaves the mark of a case as it is (R139). -/
theorem add_drill {c : Case} {e : Evidence} (h : e.drill = true ∨ c.drill = false) :
    c.add e = { c with evidence := addEvidence c.evidence e } := by
  unfold Case.add
  rcases h with h | h
  · rw [h, Bool.and_true]
  · rw [h, Bool.false_and, ← h]

/-- Evidence that joins each case of a list of entries. -/
theorem addToCases_caseAt (e : Evidence) (l : List (Nat × Case)) : ∀ (s : State), (l.map Prod.fst).Nodup → ∀ g,
    (s.forEach l (fun s x => s.addToCase x.1 e)).caseAt g =
      if g ∈ l.map Prod.fst then (s.caseAt g).map (fun c => c.add e) else s.caseAt g := by
  induction l with
  | nil => exact fun s _ g => rfl
  | cons x l ih =>
    intro s hn g
    rw [List.map_cons, List.nodup_cons] at hn
    rw [forEach_cons, ih _ hn.2, addToCase_caseAt, List.map_cons]
    by_cases hg : g = x.1
    · rw [if_pos hg, if_neg (hg ▸ hn.1), if_pos (List.mem_cons.2 (Or.inl hg)), hg]
    · rw [if_neg hg]
      simp only [List.mem_cons, hg, false_or]

/-! ### An opening, or the request of the opening check (R133, R134) -/

/-- The expiry of an open case (R137). -/
theorem expireCase_some {s : State} {k : Nat} {c : Case} (h : s.caseAt k = some c) : s.expireCase k =
    (s.setCase k none).makeRequest .expired { kind := some (caseKind k), candidates := c.candidates } (s.expiryRequest k c) := by
  unfold State.expireCase; rw [h] <;> rfl

theorem openOrRequest_coarse {s : State} {k : Nat} (h : k < s.cases.length) (ps : List Position) (ch : ChannelNo) (d : Bool) :
    s.CoarseOnset (s.openOrRequest k ps ch d) k ps ch d := by
  refine ⟨fun found hf hne => ?_, fun w c u hno hw hc hu => ?_⟩
  · unfold State.openOrRequest
    rw [← hf]
    exact if_neg (by simpa using hne)
  · have hfound : ps.filter (s.activeAt d) = [] := by
      rw [List.filter_eq_nil_iff]
      exact fun p hp => by rw [hno p hp]; exact Bool.false_ne_true
    have hopen : s.openOrRequest k ps ch d = if w = 0 then u.expireCase k else u := by
      unfold State.openOrRequest
      rw [hfound, hu, hc, hw] <;> rfl
    have hcase : u.caseAt k = some c := by
      rw [hu]; exact setCase_caseAt_self s k (some c) h
    refine ⟨fun h0 => ?_, fun h0 => ?_⟩
    · rw [hopen, if_neg h0]; exact ⟨rfl, hcase⟩
    · rw [hopen, if_pos h0, expireCase_some hcase, hc]

/-! ### Rope onsets (R133, R136, R139) -/

section

variable {s : State} {z : Nat} {d : Bool} {e : Evidence} (he : e = { item := .channel z, drill := d })

include he

theorem ropeOnset_base {b : Case} (h : s.caseAt 8 = some b) : s.ropeOnset z d = s.ropeOverBase z b e := by
  unfold State.ropeOnset
  rw [show s.caseAt Config.baseEntry = some b from h, he]

theorem ropeOnset_zone {c : Case} (h : s.caseAt 8 = none) (hz : s.caseAt z = some c) : s.ropeOnset z d = s.addToCase z e := by
  unfold State.ropeOnset
  rw [show s.caseAt Config.baseEntry = none from h, hz, he]

theorem ropeOnset_none (h : s.caseAt 8 = none) (hz : s.caseAt z = none) : s.ropeOnset z d =
    if (s.zoneMembers z).isEmpty then s.emptyZone z e else s.openOrRequest z (s.zoneMembers z) z d := by
  unfold State.ropeOnset
  rw [show s.caseAt Config.baseEntry = none from h, hz, he]

end

theorem ropeToBase_empty {s : State} {z : Nat} {b : Case} (h : s.caseAt 8 = some b) (hz : s.caseAt z = none)
    (hm : s.zoneMembers z = []) (e : Evidence) : s.ropeToBase z e = (s.setCase 8 (some (b.add e))).emptyZone z e := by
  unfold State.ropeToBase
  rw [show s.addToCase Config.baseEntry e = s.setCase 8 (some (b.add e)) from addToCase_some h e, hz, hm] <;> rfl

theorem ropeToBase_join {s : State} {z : Nat} {b : Case} (h : s.caseAt 8 = some b)
    (hz : s.caseAt z ≠ none ∨ s.zoneMembers z ≠ []) (e : Evidence) : s.ropeToBase z e = s.setCase 8 (some (b.add e)) := by
  unfold State.ropeToBase
  rw [show s.addToCase Config.baseEntry e = s.setCase 8 (some (b.add e)) from addToCase_some h e]
  refine if_neg (fun hc => ?_)
  rw [Bool.and_eq_true, Option.isNone_iff_eq_none, List.isEmpty_iff] at hc
  exact hz.elim (fun hn => hn hc.1) (fun hn => hn hc.2)

/-- Drill evidence does not absorb a real base case (R139). -/
theorem ropeOverBase_real {s : State} {z : Nat} {b : Case} {e : Evidence} (hd : e.drill = true) (hb : b.drill = false) :
    s.ropeOverBase z b e = (s.addToCase z e).ropeToBase z e := by
  unfold State.ropeOverBase
  exact if_pos (by rw [hd, hb]; rfl)

section

variable {s : State} {z : Nat} {b : Case} {e : Evidence} (hb : e.drill = true → b.drill = true)

include hb

theorem ropeOverBase_zone {c : Case} (hz : s.caseAt z = some c) : s.ropeOverBase z b e =
    if e.drill && !c.drill then s.addToCase z e else s.mergeBase z b c e := by
  unfold State.ropeOverBase
  rw [hz]
  exact if_neg (by cases he : e.drill <;> simp_all)

theorem ropeOverBase_none (hz : s.caseAt z = none) : s.ropeOverBase z b e =
    if (s.zoneMembers z).isEmpty then s.ropeToBase z e else s.moveBase z b e (s.zoneMembers z) := by
  unfold State.ropeOverBase
  rw [hz]
  exact if_neg (by cases he : e.drill <;> simp_all)

end

/-- The opening check of a base case that has become the case of a zone (R136). -/
theorem moveBase_eq {s u : State} {z : Nat} {b x : Case} {e : Evidence} {ms found : List Position}
    (hx : x = { b.add e with candidates := ms })
    (hu : u = ((s.setCase 8 none).setCase z (some x)).caseNotice .absorbed { kind := some (caseKind z), candidates := ms }
      x.drill x.evidence (some x.deadline) none) (hf : found = ms.filter (s.activeAt x.drill)) :
    s.moveBase z b e ms = if found.isEmpty then u else
      (u.setCase z none).makeRequest .narrowed { kind := some (caseKind z), candidates := ms }
        { level := .branch, drill := x.drill, origin := .channel z
          targets := found.filter (fun p => (s.br p).state ≠ .vacant)
          evidence := mergeEvidence x.evidence (s.activeEvidenceOf x.drill found) } := by
  subst hu hf hx
  rfl

/-! ### Tray and imbalance onsets (R135, R139) -/

theorem mem_casesWith {s : State} {p : Position} {q : Case → Bool} {k : Nat} {x : Case} :
    (k, x) ∈ s.casesWith p q ↔ k ≤ 8 ∧ s.caseAt k = some x ∧ p ∈ x.candidates ∧ q x = true := by
  unfold State.casesWith
  rw [List.mem_filterMap]
  constructor
  · rintro ⟨n, hn, h⟩
    have hn' : n ≤ 8 := Nat.le_of_lt_succ (List.mem_range.1 hn)
    cases hc : s.caseAt n with
    | none => rw [hc] at h; exact absurd h (by simp)
    | some c =>
      rw [hc] at h
      dsimp only at h
      split at h
      · rename_i hq
        obtain ⟨rfl, rfl⟩ := Prod.mk.inj (Option.some.inj h)
        rw [Bool.and_eq_true, List.contains_iff_mem] at hq
        exact ⟨hn', hc, hq⟩
      · exact absurd h (by simp)
  · rintro ⟨hk, hc, hp, hq⟩
    refine ⟨k, List.mem_range.2 (Nat.lt_succ_of_le hk), ?_⟩
    rw [hc]
    exact if_pos (by rw [Bool.and_eq_true, List.contains_iff_mem]; exact ⟨hp, hq⟩)

/-- No entry is listed twice. -/
theorem casesWith_nodup (s : State) (p : Position) (q : Case → Bool) : ((s.casesWith p q).map Prod.fst).Nodup := by
  refine List.Sublist.nodup ?_ (List.nodup_range (n := 9))
  unfold State.casesWith
  rw [List.map_filterMap]
  generalize List.range 9 = l
  induction l with
  | nil => exact List.Sublist.slnil
  | cons k l ih =>
    have hk : ∀ y, Option.map Prod.fst (match s.caseAt k with
        | none => none
        | some c => if c.candidates.contains p && q c then some (k, c) else none) = some y → y = k := by
      intro y hy
      cases hc : s.caseAt k with
      | none => rw [hc] at hy; exact absurd hy (by simp)
      | some c =>
        rw [hc] at hy
        dsimp only at hy
        split at hy
        · exact (Option.some.inj hy).symm
        · exact absurd hy (by simp)
    rw [List.filterMap_cons]
    split
    · exact ih.cons k
    · rename_i y hy
      rw [hk y hy]; exact ih.cons_cons k

theorem casesWith_drill (s : State) (p : Position) (e : Evidence) : (if e.drill then s.casesWith p (fun c => c.drill)
    else s.casesWith p (fun _ => true)) = s.casesWith p (fun c => !e.drill || c.drill) := by
  cases e.drill with
  | true => rfl
  | false => rfl

theorem fineOnset_eq (s : State) (p : Position) (e : Evidence) (origin : Origin) : s.fineOnset p e origin =
    if (s.casesWith p (fun c => !e.drill || c.drill)).isEmpty then
      if (s.casesWith p (fun _ => true)).isEmpty then
        s.makeRequest .direct { kind := none, candidates := [] } (s.requestOf .branch e.drill origin [p] [e])
      else s.forEach (s.casesWith p (fun _ => true)) (fun s x => s.addToCase x.1 e)
    else s.narrow (s.casesWith p (fun c => !e.drill || c.drill)) p e origin := by
  rw [← casesWith_drill]
  rfl

/-- Every case of a list closes (R135). -/
theorem closeCases_caseAt (ev : CaseEvent) (d : Bool) (r : Option IsoRequest) (l : List (Nat × Case)) : ∀ (s : State) (k : Nat),
    (s.forEach l (fun s x => (s.setCase x.1 none).caseNotice ev
        { kind := some (caseKind x.1), candidates := x.2.candidates } d x.2.evidence none r)).caseAt k =
      if (l.any (fun x => x.1 = k)) = true then none else s.caseAt k := by
  induction l with
  | nil => exact fun s k => rfl
  | cons x l ih =>
    intro s k
    have h1 : ((s.setCase x.1 none).caseNotice ev { kind := some (caseKind x.1), candidates := x.2.candidates } d x.2.evidence
        none r).caseAt k = if k = x.1 then none else s.caseAt k := setCase_none_caseAt s x.1 k
    rw [forEach_cons, ih, h1, List.any_cons]
    cases l.any (fun x => decide (x.1 = k)) with
    | true => rw [Bool.or_true, if_pos rfl, if_pos rfl]
    | false =>
      rw [Bool.or_false, if_neg Bool.false_ne_true]
      by_cases hk : x.1 = k
      · rw [if_pos hk.symm, decide_eq_true hk, if_pos rfl]
      · rw [if_neg (Ne.symm hk), decide_eq_false hk, if_neg Bool.false_ne_true]

/-- A request handed over touches no case. -/
theorem handRequest_caseAt {s : State} (h : s.link.outbound.length ≤ 96) (src : CaseSource) (r : IsoRequest) (k : Nat) :
    (s.handRequest src r).caseAt k = s.caseAt k := by
  have h0 : s.Sound false false := ⟨h, (fun e => nomatch e), fun e => nomatch e⟩
  exact caseAt_of_cases (cases_of_frozen ((State.Onward.refl h0).handRequest src r).kept) k

/-- A request without targets is not handed over (R132). -/
theorem handRequest_empty {r : IsoRequest} (hl : r.level ≠ .rack) (ht : r.targets = []) (s : State) (src : CaseSource) :
    s.handRequest src r = s.caseNotice .noTarget src r.drill r.evidence none (some r) := by
  unfold State.handRequest
  exact if_pos (by rw [ht]; simpa using hl)

/-- The narrowing of a list of cases: their notices, and one BRANCH request (R135). -/
theorem narrow_eq {s u : State} {closing : List (Nat × Case)} {p : Position} {e : Evidence} {origin : Origin}
    {others : List Position} {r : IsoRequest}
    (ho : others = Config.positions.filter (fun n =>
      n ≠ p && closing.any (fun x => x.2.candidates.contains n) && s.activeAt e.drill n))
    (hr : r = { level := .branch, drill := e.drill, origin := origin
                targets := (insertAsc p others).filter (fun q => (s.br q).state ≠ .vacant)
                evidence := mergeEvidence (addEvidence (closing.foldl (fun l x => mergeEvidence l x.2.evidence) []) e)
                  (s.activeEvidenceOf e.drill others) })
    (hu : u = closing.foldl (fun s x => (s.setCase x.1 none).caseNotice .narrowed
      { kind := some (caseKind x.1), candidates := x.2.candidates } e.drill x.2.evidence none (some r)) s) :
    s.narrow closing p e origin = u.handRequest (closingSource closing) r := by
  subst hu hr ho
  rfl

theorem closeCases_outbound (ev : CaseEvent) (d : Bool) (r : Option IsoRequest) (l : List (Nat × Case)) (s : State) :
    (s.forEach l (fun s x => (s.setCase x.1 none).caseNotice ev
      { kind := some (caseKind x.1), candidates := x.2.candidates } d x.2.evidence none r)).link = s.link :=
  forEach_leaves State.link (fun (s : State) (x : Nat × Case) => (s.setCase x.1 none).caseNotice ev
    { kind := some (caseKind x.1), candidates := x.2.candidates } d x.2.evidence none r) (fun _ _ => rfl) l s

/-- Evidence joins every case that holds its position, where none of them closes: it is drill evidence, and they are real
(R135, R139). -/
theorem fineOnset_joins {s : State} {p : Position} {e : Evidence} {k : Nat} {x : Case}
    (hc : s.casesWith p (fun c => !e.drill || c.drill) = []) (hk : s.caseAt k = some x) :
    (s.forEach (s.casesWith p (fun _ => true)) (fun s y => s.addToCase y.1 e)).caseAt k =
      some (if k ≤ 8 ∧ p ∈ x.candidates then { x with evidence := addEvidence x.evidence e } else x) := by
  have hmem : k ∈ (s.casesWith p (fun _ => true)).map Prod.fst ↔ k ≤ 8 ∧ p ∈ x.candidates := by
    rw [List.mem_map]
    constructor
    · rintro ⟨⟨n, y⟩, hy, rfl⟩
      obtain ⟨h1, h2, h3, _⟩ := mem_casesWith.1 hy
      rw [show s.caseAt n = some x from hk] at h2
      rw [Option.some.inj h2]
      exact ⟨h1, h3⟩
    · exact fun h => ⟨(k, x), mem_casesWith.2 ⟨h.1, hk, h.2, rfl⟩, rfl⟩
  rw [addToCases_caseAt e _ s (casesWith_nodup s p _)]
  by_cases h : k ≤ 8 ∧ p ∈ x.candidates
  · rw [if_pos (hmem.2 h), if_pos h, hk, Option.map_some]
    have hopen : ¬ ((!e.drill || x.drill) = true) := fun hq =>
      absurd (mem_casesWith.2 ⟨h.1, hk, h.2, hq⟩) (by rw [hc]; exact List.not_mem_nil)
    refine congrArg some (add_drill ?_)
    rw [Bool.or_eq_true, not_or, Bool.not_eq_true', Bool.not_eq_false] at hopen
    exact Or.inl hopen.1
  · rw [if_neg (fun hm => h (hmem.1 hm)), if_neg h, hk]

/-! ### The expiry of a case (R137) -/

theorem expiryRequest_fields (s : State) (e : Nat) (x : Case) : (s.expiryRequest e x).level = (if e = 8 then .rack else .zone) ∧
    (s.expiryRequest e x).drill = x.drill ∧ (s.expiryRequest e x).origin = .channel x.openedBy ∧
    (s.expiryRequest e x).evidence = x.evidence ∧
    (s.expiryRequest e x).targets = (if e = 8 then [] else x.candidates.filter (fun p => (s.br p).state ≠ .vacant)) := by
  unfold State.expiryRequest
  by_cases h : e = 8
  · rw [if_pos (show e = Config.baseEntry from h), if_pos h, if_pos h]
    exact ⟨rfl, rfl, rfl, rfl, rfl⟩
  · rw [if_neg (show ¬ e = Config.baseEntry from h), if_neg h, if_neg h]
    exact ⟨rfl, rfl, rfl, rfl, rfl⟩

theorem exec_caseDeadlineExpiry {s : State} {e : Nat} (hp : s.powered = true) (he : e ≤ 8) : exec (.caseDeadlineExpiry e) s =
    .next (s.atDeadline ((s.caseAt e).map (fun c => c.deadline)) (fun s => (s.expireCase e).finish)) := by
  show execCaseDeadlineExpiry e s = _
  exact unitEvent_powered (decide_eq_true he) hp _

theorem ropeOnset_settled (s : State) (z : Nat) (d : Bool) (e : Evidence) (ms : List Position) (t : State) (hs : s.Sized)
    (hz : z < 8) (he : e = { item := .channel z, drill := d }) (hms : ms = s.zoneMembers z) (ht : t = s.ropeOnset z d)
    (h8 : s.caseAt 8 = none) :
    (∀ c, s.caseAt z = some c →
      t = s.setCase z (some { c with evidence := addEvidence c.evidence e, drill := c.drill && d })) ∧
    (s.caseAt z = none → ms = [] →
      t = s.caseNotice .emptyZone { kind := some (.zone z), candidates := [] } d [e] none none) ∧
    (s.caseAt z = none → ms ≠ [] → s.CoarseOnset t z ms z d) := by
  refine ⟨fun c hc => ?_, fun hc hm => ?_, fun hc hm => ?_⟩
  · rw [ht, ropeOnset_zone he h8 hc, addToCase_some hc, he]; rfl
  · rw [ht, ropeOnset_none he h8 hc, ← hms, hm, he]; rfl
  · rw [ht, ropeOnset_none he h8 hc, ← hms, if_neg (by simpa using hm)]
    exact openOrRequest_coarse (by rw [hs.cases]; exact Nat.lt_trans hz (by decide)) ms z d

/-- A rope onset that may absorb the open base case (R136, R139). -/
theorem ropeOnset_absorbs (s : State) (z : Nat) (d : Bool) (e : Evidence) (ms : List Position) (t : State)
    (hz : z < 8) (he : e = { item := .channel z, drill := d }) (hms : ms = s.zoneMembers z) (ht : t = s.ropeOnset z d)
    (b x : Case) (h8 : s.caseAt 8 = some b) (hd : d = true → b.drill = true) :
    (∀ c, s.caseAt z = some c → (d = true → c.drill = true) →
      x = { c with evidence := addEvidence (mergeEvidence c.evidence b.evidence) e, drill := c.drill && d } →
      t = ((s.setCase 8 none).setCase z (some x)).caseNotice .absorbed { kind := some (.zone z), candidates := x.candidates }
        x.drill x.evidence (some x.deadline) none) ∧
    (∀ c, s.caseAt z = some c → d = true → c.drill = false →
      t = s.setCase z (some { c with evidence := addEvidence c.evidence e })) ∧
    (s.caseAt z = none → ms = [] → x = { b with evidence := addEvidence b.evidence e, drill := b.drill && d } →
      t = (s.setCase 8 (some x)).caseNotice .emptyZone { kind := some (.zone z), candidates := [] } d [e] none none) ∧
    (∀ u found, s.caseAt z = none → ms ≠ [] →
      x = { b with candidates := ms, evidence := addEvidence b.evidence e, drill := b.drill && d } →
      u = ((s.setCase 8 none).setCase z (some x)).caseNotice .absorbed { kind := some (.zone z), candidates := ms }
        x.drill x.evidence (some x.deadline) none →
      found = ms.filter (s.activeAt x.drill) →
      (found = [] → t = u) ∧
      (found ≠ [] → t = (u.setCase z none).makeRequest .narrowed { kind := some (.zone z), candidates := ms }
        { level := .branch, drill := x.drill, origin := .channel z
          targets := found.filter (fun p => (s.br p).state ≠ .vacant)
          evidence := mergeEvidence x.evidence (s.activeEvidenceOf x.drill found) })) := by
  have hkind : caseKind z = .zone z := if_pos hz
  have hd' : e.drill = true → b.drill = true := by rw [he]; exact hd
  rw [ropeOnset_base he h8] at ht
  refine ⟨fun c hc hdc hx => ?_, fun c hc hdt hdc => ?_, fun hc hm hx => ?_, fun u found hc hm hx hu hf => ?_⟩
  · rw [ht, ropeOverBase_zone hd' hc, if_neg (by rw [he]; cases d <;> simp_all), hx, ← hkind, he]
    rfl
  · rw [ht, ropeOverBase_zone hd' hc, if_pos (by rw [he, hdt, hdc]; rfl), addToCase_some hc, add_drill (Or.inr hdc)]
  · rw [ht, ropeOverBase_none hd' hc, ← hms, hm, hx, ropeToBase_empty h8 hc (hms ▸ hm), he]; rfl
  · have hx' : x = { b.add e with candidates := ms } := by rw [hx, he]; rfl
    rw [← hkind] at hu ⊢
    have hmove := moveBase_eq hx' hu hf
    rw [ht, ropeOverBase_none hd' hc, ← hms, if_neg (by simpa using hm), hmove]
    exact ⟨fun h => if_pos (by rw [h]; rfl), fun h => if_neg (by simpa using h)⟩

/-- A drill rope onset beside a real base case joins it and takes nothing over (R139). -/
theorem ropeOnset_besides (s : State) (z : Nat) (d : Bool) (e : Evidence) (ms : List Position) (t : State) (hs : s.Sized)
    (hz : z < 8) (he : e = { item := .channel z, drill := d }) (hms : ms = s.zoneMembers z) (ht : t = s.ropeOnset z d)
    (b x : Case) (h8 : s.caseAt 8 = some b) (hd : d = true) (hb : b.drill = false)
    (hx : x = { b with evidence := addEvidence b.evidence e }) :
    (s.caseAt z = none → ms ≠ [] → t = s.setCase 8 (some x)) ∧
    (s.caseAt z = none → ms = [] →
      t = (s.setCase 8 (some x)).caseNotice .emptyZone { kind := some (.zone z), candidates := [] } d [e] none none) ∧
    (∀ c, s.caseAt z = some c →
      t = (s.setCase z (some { c with evidence := addEvidence c.evidence e })).setCase 8 (some x)) := by
  have hed : e.drill = true := by rw [he]; exact hd
  have hadd : b.add e = x := by rw [add_drill (Or.inr hb), hx]
  rw [ropeOnset_base he h8, ropeOverBase_real hed hb] at ht
  refine ⟨fun hc hm => ?_, fun hc hm => ?_, fun c hc => ?_⟩
  · rw [ht, addToCase_none hc, ropeToBase_join h8 (Or.inr (hms ▸ hm)), hadd]
  · rw [ht, addToCase_none hc, ropeToBase_empty h8 hc (hms ▸ hm), hadd, he]; rfl
  · have hne : z ≠ 8 := Nat.ne_of_lt hz
    have hlen : z < s.cases.length := by rw [hs.cases]; exact Nat.lt_trans hz (by decide)
    rw [ht, addToCase_some hc, add_drill (Or.inl hed), ropeToBase_join (b := b), hadd]
    · rw [setCase_caseAt_ne s _ hne]; exact h8
    · rw [setCase_caseAt_self s z _ hlen]; exact Or.inl (fun h => nomatch h)

/-- Settles O51: the expiry of a case, and the onsets of ropes, base probes, trays and imbalances case by case. -/
theorem caseDeadlineMakesRequest : Obligations.CaseDeadlineMakesRequest := by
  refine ⟨fun s e ho hp he => ⟨fun h => ?_, fun x v r hx hv hr => ?_⟩, fun s z d e ms t hs hz he hms ht =>
      ⟨fun h8 => ropeOnset_settled s z d e ms t hs hz he hms ht h8,
        fun b x h8 hd => ropeOnset_absorbs s z d e ms t hz he hms ht b x h8 hd,
        fun b x h8 hd hb hx => ropeOnset_besides s z d e ms t hs hz he hms ht b x h8 hd hb hx⟩,
    fun s ch d e ps t hs _ he hps ht => ⟨fun b hb => ?_, fun hb hn => ?_, fun hb hn => ?_⟩,
    fun s p e origin all closing t hs hl hall hclosing ht => ⟨fun k x => ?_, fun hn => ?_, fun hc hn k x hk => ?_,
      fun others r u hc hothers hr hu => ?_⟩,
    fun s src r hl ht => handRequest_empty hl ht s src⟩
  · rw [exec_caseDeadlineExpiry hp he, h]; rfl
  · obtain ⟨r1, r2, r3, r4, r5⟩ := expiryRequest_fields v e x
    rw [← hr] at r1 r2 r3 r4 r5
    have hexpire : (s.advance x.deadline).expireCase e =
        v.makeRequest .expired { kind := some (caseKind e), candidates := x.candidates } r := by
      rw [expireCase_some (s := s.advance x.deadline) hx, hr, hv]; rfl
    have hsound : v.Sound true true := by rw [hv]; exact ho.sound.of_same rfl rfl
    have hfrozen := finish_frozen ((State.Onward.refl hsound).makeRequest .expired
      { kind := some (caseKind e), candidates := x.candidates } r)
    refine ⟨r1, r2, r3, r4, r5.trans (by rw [hv]; rfl), _, ?_, rfl, ?_, hfrozen⟩
    · rw [exec_caseDeadlineExpiry hp he, hx, ← hexpire]; rfl
    · rw [caseAt_of_cases (cases_of_frozen hfrozen) e, hv, setCase_none_caseAt, if_pos rfl]
  · rw [ht]
    unfold State.baseOnset
    rw [show s.caseAt Config.baseEntry = some b from hb]
    dsimp only
    rw [addToCase_some (show s.caseAt Config.baseEntry = some b from hb), he]; rfl
  · rw [ht]
    unfold State.baseOnset
    rw [show s.caseAt Config.baseEntry = none from hb]
    dsimp only
    exact (if_pos (by rw [← List.isEmpty_iff, hps] at hn; exact hn)).trans (by rw [he])
  · have hrun : t = s.openOrRequest 8 ps ch d := by
      rw [ht, hps]
      unfold State.baseOnset
      rw [show s.caseAt Config.baseEntry = none from hb]
      dsimp only
      rw [hps] at hn
      exact if_neg (fun h => hn (List.isEmpty_iff.1 h))
    rw [hrun]
    exact openOrRequest_coarse (by rw [hs.cases]; decide) ps ch d
  · rw [hclosing, mem_casesWith]
    refine and_congr_right fun _ => and_congr_right fun _ => and_congr_right fun _ => ?_
    cases e.drill <;> simp
  · have hc : s.casesWith p (fun c => !e.drill || c.drill) = [] := List.eq_nil_iff_forall_not_mem.2 (fun x hx => by
      obtain ⟨k, x⟩ := x
      obtain ⟨h1, h2, h3, _⟩ := mem_casesWith.1 hx
      have hx' : (k, x) ∈ s.casesWith p (fun _ => true) := mem_casesWith.2 ⟨h1, h2, h3, rfl⟩
      rw [← hall, hn] at hx'
      exact List.not_mem_nil hx')
    rw [ht, fineOnset_eq, hc, ← hall, hn]; rfl
  · rw [hclosing] at hc
    have hrun : t = s.forEach (s.casesWith p (fun _ => true)) (fun s x => s.addToCase x.1 e) := by
      rw [ht, fineOnset_eq, hc]
      refine (if_pos rfl).trans (if_neg ?_)
      rw [← hall]; simpa using hn
    rw [hrun]
    exact fineOnset_joins hc hk
  · have hrun : t = u.handRequest (closingSource closing) r := by
      rw [ht, fineOnset_eq, ← hclosing, if_neg (by simpa using hc)]
      exact narrow_eq hothers hr hu
    have hlink : u.link = s.link := by rw [hu]; exact closeCases_outbound .narrowed e.drill (some r) closing s
    refine ⟨hrun, fun k => ?_⟩
    rw [hrun, handRequest_caseAt (by rw [hlink]; exact hl), hu]
    exact closeCases_caseAt .narrowed e.drill (some r) closing s k

end Sys2Proof.Machine

/-! ## What localization leaves alone (chapter 7): all that neither a request nor a case writes -/

namespace Sys2Proof.Machine

-- One after another: side by side the proofs of the whole text take more memory than a check may.
set_option Elab.async false

/-- A view of a state that neither a pass, the work of a job nor a case may change. -/
structure State.Apart {α : Type} (f : State → α) : Prop where
  frozen : ∀ {s t : State}, t.frozen = s.frozen → f t = f s
  cases : ∀ (s : State) k c, f (s.setCase k c) = f s

/-- From `b` to `s` a view is as it was; the outbound queue is in its bounds. -/
structure State.Shows {α : Type} (f : State → α) (b s : State) : Prop where
  view : f s = f b
  sound : s.Sound false false

namespace State.Shows

variable {α : Type} {f : State → α} {b s t : State}

theorem refl {g m : Bool} (f : State → α) (h : s.Sound g m) : Shows f s s :=
  ⟨rfl, h.out, (fun e => nomatch e), fun e => nomatch e⟩

theorem each {β : Type} {h : State → β → State} (l : List β) (k : Shows f b s)
    (hk : ∀ s a, Shows f b s → Shows f b (h s a)) : Shows f b (s.forEach l h) := forEach_keeps _ h hk l s k

theorem other (h : Shows f b s) (hf : f t = f s) (hl : t.link.outbound = s.link.outbound := by rfl) : Shows f b t :=
  ⟨hf.trans h.view, hl ▸ h.sound.out, (fun e => nomatch e), fun e => nomatch e⟩

variable (hf : State.Apart f)

include hf

/-- What goes onward is no business of the view. -/
theorem onward {g : Bool} (h : Shows f b s) (ht : Onward false s s → Onward g s t) : Shows f b t :=
  have h1 := ht (Onward.refl h.sound)
  ⟨(hf.frozen h1.kept).trans h.view, h1.sound.out, (fun e => nomatch e), fun e => nomatch e⟩

theorem setCase (k : Nat) (c : Option Case) (h : Shows f b s) : Shows f b (s.setCase k c) := h.other (hf.cases s k c)

theorem caseNotice (ev : CaseEvent) (src : CaseSource) (d : Bool) (l : List Evidence) (t : Option Time) (r : Option IsoRequest)
    (h : Shows f b s) : Shows f b (s.caseNotice ev src d l t r) := h.onward hf (Onward.caseNotice ev src d l t r)

theorem makeRequest (ev : CaseEvent) (src : CaseSource) (r : IsoRequest) (h : Shows f b s) :
    Shows f b (s.makeRequest ev src r) := h.onward hf (Onward.makeRequest ev src r)

theorem expireCase (k : Nat) (h : Shows f b s) : Shows f b (s.expireCase k) := by
  unfold State.expireCase; split
  · exact h
  · exact (h.setCase hf _ _).makeRequest hf _ _ _

theorem addToCase (k : Nat) (e : Evidence) (h : Shows f b s) : Shows f b (s.addToCase k e) := by
  unfold State.addToCase; split
  · exact h
  · exact h.setCase hf _ _

/-! ### Onsets (R133–R136) -/

theorem openOrRequest (k : Nat) (ps : List Position) (c : ChannelNo) (d : Bool) (h : Shows f b s) :
    Shows f b (s.openOrRequest k ps c d) := by
  unfold State.openOrRequest; dsimp only; split
  · unfold State.openCase; dsimp only; split
    · exact ((h.setCase hf _ _).caseNotice hf _ _ _ _ _ _).expireCase hf _
    · exact (h.setCase hf _ _).caseNotice hf _ _ _ _ _ _
  · exact h.makeRequest hf _ _ _

theorem absorb (z : Nat) (c : Case) (h : Shows f b s) : Shows f b (((s.setCase Config.baseEntry none).setCase z (some c)).caseNotice
    .absorbed (c.source z) c.drill c.evidence (some c.deadline) none) :=
  ((h.setCase hf _ _).setCase hf _ _).caseNotice hf _ _ _ _ _ _

theorem moveBase (z : Nat) (c : Case) (e : Evidence) (ps : List Position) (h : Shows f b s) :
    Shows f b (s.moveBase z c e ps) := by
  unfold State.moveBase; dsimp only; split
  · exact h.absorb hf _ _
  · exact ((h.absorb hf _ _).setCase hf _ _).makeRequest hf _ _ _

theorem ropeToBase (z : Nat) (e : Evidence) (h : Shows f b s) : Shows f b (s.ropeToBase z e) := by
  unfold State.ropeToBase; dsimp only; split
  · exact (h.addToCase hf _ _).caseNotice hf _ _ _ _ _ _
  · exact h.addToCase hf _ _

theorem ropeOverBase (z : Nat) (c : Case) (e : Evidence) (h : Shows f b s) : Shows f b (s.ropeOverBase z c e) := by
  unfold State.ropeOverBase; split
  · exact (h.addToCase hf _ _).ropeToBase hf _ _
  · split
    · split
      · exact h.addToCase hf _ _
      · exact h.absorb hf _ _
    · split
      · exact h.ropeToBase hf _ _
      · exact h.moveBase hf _ _ _ _

theorem ropeOnset (z : Nat) (d : Bool) (h : Shows f b s) : Shows f b (s.ropeOnset z d) := by
  unfold State.ropeOnset; dsimp only; split
  · exact h.ropeOverBase hf _ _ _
  · exact h.addToCase hf _ _
  · split
    · exact h.caseNotice hf _ _ _ _ _ _
    · exact h.openOrRequest hf _ _ _ _

theorem baseOnset (c : ChannelNo) (d : Bool) (h : Shows f b s) : Shows f b (s.baseOnset c d) := by
  unfold State.baseOnset; dsimp only; split
  · exact h.addToCase hf _ _
  · split
    · exact h.caseNotice hf _ _ _ _ _ _
    · exact h.openOrRequest hf _ _ _ _

theorem fineOnset (p : Position) (e : Evidence) (o : Origin) (h : Shows f b s) : Shows f b (s.fineOnset p e o) := by
  rw [fineOnset_eq]; split
  · split
    · exact h.makeRequest hf _ _ _
    · exact h.each _ (fun _ _ h => h.addToCase hf _ _)
  · exact onward hf (h.each _ (fun _ _ h => (h.setCase hf _ _).caseNotice hf _ _ _ _ _ _)) (Onward.handRequest _ _)

theorem channelEvent (x : ChannelEvent) (h : Shows f b s) : Shows f b (s.channelEvent x) := by
  unfold State.channelEvent; split
  · unfold State.channelOnset; split
    · exact h.ropeOnset hf _ _
    · exact h.fineOnset hf _ _ _
    · exact h.baseOnset hf _ _
  · exact h

theorem imbalanceEvent (x : ImbalanceEvent) (h : Shows f b s) : Shows f b (s.imbalanceEvent x) := by
  unfold State.imbalanceEvent; split
  · exact h.fineOnset hf _ _ _
  · exact h

/-! ### The end of an event -/

theorem grantLine (h : Shows f b s) : Shows f b s.grantLine :=
  ⟨(hf.frozen (congrArg State.freeze (grantLine_still s))).trans h.view,
    (grantLine_sound (g := false) (m := false) h.sound.out (fun e => nomatch e)).out, (fun e => nomatch e), fun e => nomatch e⟩

theorem finish (h : Shows f b s) : f s.finish = f b :=
  (hf.frozen (finish_frozen (Onward.refl h.sound))).trans h.view

end State.Shows

end Sys2Proof.Machine

/-! ## Samples and windows of the drip sense unit (R114–R126) -/

namespace Sys2Proof.Machine

-- One after another: side by side the proofs of the whole text take more memory than a check may.
set_option Elab.async false

/-! ### One sample on one channel (R115, R118, R119, R124) -/

/-- A channel is in DRY, SUSPECT or WET: it takes part in windows (R115). -/
def Channel.Live (c : Channel) : Prop := c.state = .dry ∨ c.state = .suspect ∨ c.state = .wet

theorem Channel.Live.not_masked {c : Channel} (h : c.Live) : c.state ≠ .masked := by
  rcases h with h | h | h <;> rw [h] <;> decide

theorem Channel.Live.not_fault {c : Channel} (h : c.Live) : c.state ≠ .fault := by
  rcases h with h | h | h <;> rw [h] <;> decide

/-- A channel as its sample finds it: the first sample of a window begins a pending injection (R124). -/
def Channel.begun (c : Channel) (start : Bool) : Channel := { c with injectPending := c.injectPending && !start }

/-- A channel with the counts of a sample (R115). -/
def Channel.counted (c : Channel) (x : Sample) (th : Nat) : Channel := ({ c with last := some x } : Channel).count x th

theorem beginWindow_eq (c : Channel) (start : Bool) : (if start then c.beginWindow else c) = c.begun start := by
  unfold Channel.begun Channel.beginWindow
  cases start with
  | true => rw [if_pos rfl, Bool.not_true, Bool.and_false]
  | false => rw [if_neg Bool.false_ne_true, Bool.not_false, Bool.and_true]

section

variable {c : Channel} (x : Sample) (th : Nat)

theorem sample_masked (h : c.state = .masked) : (c.sample x th).channel = { c with last := some x } := by
  unfold Channel.sample; rw [show ({ c with last := some x } : Channel).state = .masked from h] <;> rfl

theorem sample_fault (h : c.state = .fault) : (c.sample x th).channel =
    { c with last := some x, samples := if x.sound then c.samples + 1 else 0 } := by
  unfold Channel.sample; rw [show ({ c with last := some x } : Channel).state = .fault from h] <;> rfl

theorem sample_live (h : c.Live) : c.sample x th =
    if 3 ≤ (c.counted x th).lostRun then (c.counted x th).enterFault else (c.counted x th).quietStep := by
  unfold Channel.sample
  dsimp only
  split
  · rename_i e; exact absurd e h.not_masked
  · rename_i e; exact absurd e h.not_fault
  all_goals rfl

theorem counted_lostRun : (c.counted x th).lostRun = if x.sound then 0 else c.lostRun + 1 := by
  unfold Channel.counted Channel.count
  dsimp only
  by_cases h : c.sitOut = true
  · rw [if_pos h]
  · rw [if_neg h]

/-- A third lost sample (R118). -/
theorem sample_lost (h : c.Live) (hx : x.sound = false) (hl : 2 ≤ c.lostRun) :
    (c.sample x th).channel = (c.counted x th).enterFault.channel := by
  rw [sample_live x th h, counted_lostRun, hx, if_neg Bool.false_ne_true, if_pos (Nat.succ_le_succ hl)]

/-- A sample that is sound, or not yet the third lost (R118). -/
theorem sample_counts (h : c.Live) (hx : x.sound = true ∨ c.lostRun < 2) : (c.sample x th).channel = c.counted x th := by
  have hn : ¬ 3 ≤ (c.counted x th).lostRun := by
    rw [counted_lostRun]
    rcases hx with hx | hx
    · rw [hx, if_pos rfl]; decide
    · split
      · decide
      · exact fun h3 => absurd hx (Nat.not_lt.2 (Nat.le_of_succ_le_succ h3))
  rw [sample_live x th h, if_neg hn]; rfl

/-- A sample writes no state, drill mark or injection. -/
theorem counted_fields : (c.counted x th).state = c.state ∧ (c.counted x th).injected = c.injected ∧
    (c.counted x th).injectPending = c.injectPending ∧ (c.counted x th).drill = c.drill ∧
    (c.counted x th).sitOut = c.sitOut ∧ (c.counted x th).dryRun = c.dryRun ∧ (c.counted x th).last = some x := by
  unfold Channel.counted Channel.count
  dsimp only
  by_cases h : c.sitOut = true
  · rw [if_pos h]; exact ⟨rfl, rfl, rfl, rfl, rfl, rfl, rfl⟩
  · rw [if_neg h]; exact ⟨rfl, rfl, rfl, rfl, rfl, rfl, rfl⟩

/-- The counts of a sample on a channel that takes part in the window (R115, R125). -/
theorem counted_counts (h : c.sitOut = false) {k : Nat} (hk : k = (if x.sound = true ∧ th ≤ x.code then 1 else 0)) :
    (c.counted x th).realAbove = c.realAbove + k ∧ (c.injecting = true → (c.counted x th).above = c.above + 1) ∧
    (c.injecting = false → (c.counted x th).above = c.above + k) := by
  have hcount : c.counted x th = { c with
      last := some x, lostRun := if x.sound then 0 else c.lostRun + 1, samples := c.samples + 1
      realAbove := if aboveThreshold x th then c.realAbove + 1 else c.realAbove
      above := if c.injecting || aboveThreshold x th then c.above + 1 else c.above } := by
    unfold Channel.counted Channel.count
    exact if_neg (by rw [show ({ c with last := some x } : Channel).sitOut = false from h]; exact Bool.false_ne_true)
  have habove : aboveThreshold x th = decide (x.sound = true ∧ th ≤ x.code) := by
    unfold aboveThreshold; cases x.sound <;> simp
  rw [hcount, hk, habove]
  dsimp only
  by_cases h1 : x.sound = true ∧ th ≤ x.code
  · simp [h1]
  · simp [h1]

end

/-! ### The end of a window on one channel (R116, R119, R122, R125, R126) -/

section

variable {c : Channel} (k dry : Nat)

theorem classify_live (h : c.Live) : c.classify k dry =
    if c.sitOut then c.quietStep else if c.injecting then c.classifyInjected k
    else if c.drill then c.classifyDrillEnd k else c.classifyPlain k dry := by
  unfold Channel.classify
  rcases h with h | h | h <;> rw [h]

theorem classify_sitOut (h : c.Live) (hs : c.sitOut = true) : c.classify k dry = c.quietStep := by
  rw [classify_live k dry h, if_pos hs]

theorem classify_injecting (h : c.Live) (hs : c.sitOut = false) (hi : c.injecting = true) :
    c.classify k dry = c.classifyInjected k := by
  rw [classify_live k dry h, if_neg (by rw [hs]; exact Bool.false_ne_true), if_pos hi]

theorem classify_drillEnd (h : c.Live) (hs : c.sitOut = false) (hi : c.injecting = false) (hd : c.drill = true) :
    c.classify k dry = c.classifyDrillEnd k := by
  rw [classify_live k dry h, if_neg (by rw [hs]; exact Bool.false_ne_true), if_neg (by rw [hi]; exact Bool.false_ne_true),
    if_pos hd]

theorem classify_plain (h : c.Live) (hs : c.sitOut = false) (hi : c.injecting = false) (hd : c.drill = false) :
    c.classify k dry = c.classifyPlain k dry := by
  rw [classify_live k dry h, if_neg (by rw [hs]; exact Bool.false_ne_true), if_neg (by rw [hi]; exact Bool.false_ne_true),
    if_neg (by rw [hd]; exact Bool.false_ne_true)]

theorem classifyPlain_other (h : c.state ≠ .wet) : (c.classifyPlain k dry).channel.state =
    if k ≤ c.above then .wet else if 0 < c.above then .suspect else .dry := by
  unfold Channel.classifyPlain
  rw [if_neg h]
  repeat' split
  all_goals rfl

theorem classifyPlain_wet (h : c.state = .wet) : (c.classifyPlain k dry).channel.state =
    if c.above = 0 ∧ dry ≤ c.dryRun + 1 then .dry else .wet := by
  unfold Channel.classifyPlain
  rw [if_pos h]
  by_cases h0 : 0 < c.above
  · rw [if_pos h0, if_neg (fun hc => absurd hc.1 (Nat.ne_of_gt h0))]; exact h
  · have h0' : c.above = 0 := Nat.eq_zero_of_not_pos h0
    rw [if_neg h0]
    by_cases hd : dry ≤ c.dryRun + 1
    · rw [if_pos hd, if_pos ⟨h0', hd⟩]; rfl
    · rw [if_neg hd, if_neg (fun hc => hd hc.2)]; exact h

/-- An injected window leaves the channel WET; a real onset in it ends the injection (R125). -/
theorem classifyInjected_facts (c : Channel) : (c.classifyInjected k).channel.state = .wet ∧
    (k ≤ c.realAbove → (c.classifyInjected k).channel.injected = 0 ∧ (c.classifyInjected k).channel.drill = false) ∧
    (c.realAbove < k → (c.classifyInjected k).channel.injected = c.injected - 1 ∧
      (c.classifyInjected k).channel.drill = (c.drill || c.state ≠ .wet)) := by
  unfold Channel.classifyInjected
  by_cases hk : k ≤ c.realAbove
  · rw [if_pos hk]
    exact ⟨rfl, fun _ => ⟨rfl, rfl⟩, fun h => absurd hk (Nat.not_le.2 h)⟩
  · rw [if_neg hk]
    by_cases hw : c.state = .wet
    · rw [if_pos hw]
      refine ⟨hw, fun h => absurd h hk, fun _ => ⟨rfl, ?_⟩⟩
      rw [hw]
      exact (Bool.or_false _).symm
    · rw [if_neg hw]
      refine ⟨rfl, fun h => absurd h hk, fun _ => ⟨rfl, ?_⟩⟩
      rw [decide_eq_true hw, Bool.or_true]; rfl

/-- The end of a drill mark is judged by the real count (R126). -/
theorem classifyDrillEnd_facts (c : Channel) : (c.classifyDrillEnd k).channel.state =
      (if k ≤ c.realAbove then .wet else if 0 < c.realAbove then .suspect else .dry) ∧
    (c.classifyDrillEnd k).channel.drill = false := by
  unfold Channel.classifyDrillEnd
  dsimp only
  repeat' split
  all_goals exact ⟨rfl, rfl⟩

/-- A classification touches no sample; one of a window that is not injected, no injection. -/
theorem classify_keeps : (c.classify k dry).channel.last = c.last ∧
    (c.classify k dry).channel.injectPending = c.injectPending ∧
    (c.injecting = false → (c.classify k dry).channel.injected = c.injected) := by
  have hplain : (c.classifyPlain k dry).channel.last = c.last ∧
      (c.classifyPlain k dry).channel.injectPending = c.injectPending ∧
      (c.classifyPlain k dry).channel.injected = c.injected := by
    unfold Channel.classifyPlain
    repeat' split
    all_goals exact ⟨rfl, rfl, rfl⟩
  have hdrill : (c.classifyDrillEnd k).channel.last = c.last ∧ (c.classifyDrillEnd k).channel.injectPending = c.injectPending ∧
      (c.classifyDrillEnd k).channel.injected = c.injected := by
    unfold Channel.classifyDrillEnd
    dsimp only
    repeat' split
    all_goals exact ⟨rfl, rfl, rfl⟩
  have hinjected : (c.classifyInjected k).channel.last = c.last ∧
      (c.classifyInjected k).channel.injectPending = c.injectPending := by
    unfold Channel.classifyInjected
    repeat' split
    all_goals exact ⟨rfl, rfl⟩
  have hlive (h : c.Live) : (c.classify k dry).channel.last = c.last ∧
      (c.classify k dry).channel.injectPending = c.injectPending ∧
      (c.injecting = false → (c.classify k dry).channel.injected = c.injected) := by
    rw [classify_live k dry h]
    split
    · exact ⟨rfl, rfl, fun _ => rfl⟩
    · split
      · rename_i hi
        exact ⟨hinjected.1, hinjected.2, fun e => absurd (hi.symm.trans e) (by decide)⟩
      · split
        · exact ⟨hdrill.1, hdrill.2.1, fun _ => hdrill.2.2⟩
        · exact ⟨hplain.1, hplain.2.1, fun _ => hplain.2.2⟩
  cases hs : c.state with
  | dry => exact hlive (Or.inl hs)
  | suspect => exact hlive (Or.inr (Or.inl hs))
  | wet => exact hlive (Or.inr (Or.inr hs))
  | fault =>
    unfold Channel.classify
    rw [hs]
    dsimp only
    split
    · exact ⟨rfl, rfl, fun _ => rfl⟩
    · exact ⟨rfl, rfl, fun _ => rfl⟩
  | masked =>
    unfold Channel.classify
    rw [hs]
    exact ⟨rfl, rfl, fun _ => rfl⟩

theorem classify_fault (h : c.state = .fault) : (c.classify k dry).channel.state = if c.samples = 10 then .dry else .fault := by
  unfold Channel.classify
  rw [h]
  dsimp only
  split
  · rfl
  · exact h

theorem classify_masked (h : c.state = .masked) : c.classify k dry = c.quietStep := by
  unfold Channel.classify
  rw [h]

end

/-- A sample with or without the end of its window (R115, R116). -/
theorem step_channel (c : Channel) (x : Sample) (p : ClassPolicy) (dry : Nat) (start e : Bool) :
    (c.step x p dry start e).channel = if e then
      ((((c.begun start).sample x p.threshold).channel.classify p.confirm dry).channel).endWindow
    else ((c.begun start).sample x p.threshold).channel := by
  unfold Channel.step
  rw [beginWindow_eq]
  cases e <;> rfl

/-! ### A sample and a window end, channel by channel -/

section

variable {c : Channel} {x : Sample} {k : ClassPolicy} {dry : Nat} {inw : Bool} {T U : Channel}
  (hT : T = (c.step x k dry (!inw) false).channel) (hU : U = (c.step x k dry (!inw) true).channel)

/-- The injection of the window a sample falls in (R124). -/
theorem begun_injecting : (c.begun (!inw)).injecting = true ↔ 0 < c.injected ∧ (c.injectPending = false ∨ inw = false) := by
  unfold Channel.begun Channel.injecting
  cases c.injectPending <;> cases inw <;> simp

/-- The channel after its sample. -/
theorem step_sampled : (c.step x k dry (!inw) false).channel = ((c.begun (!inw)).sample x k.threshold).channel :=
  (step_channel c x k dry (!inw) false).trans (if_neg Bool.false_ne_true)

theorem step_classified : (c.step x k dry (!inw) true).channel =
    ((((c.begun (!inw)).sample x k.threshold).channel.classify k.confirm dry).channel).endWindow :=
  (step_channel c x k dry (!inw) true).trans (if_pos rfl)

/-- A live channel whose sample is not the third lost. -/
theorem step_live (h : c.Live) (hx : x.sound = true ∨ c.lostRun < 2) :
    (c.step x k dry (!inw) false).channel = (c.begun (!inw)).counted x k.threshold ∧
    (c.step x k dry (!inw) true).channel =
      ((((c.begun (!inw)).counted x k.threshold).classify k.confirm dry).channel).endWindow := by
  rw [step_sampled, step_classified, sample_counts (c := c.begun (!inw)) x k.threshold h hx]
  exact ⟨rfl, rfl⟩

include hT hU

theorem step_last : T.last = some x ∧ U.last = some x := by
  have hsample : ((c.begun (!inw)).sample x k.threshold).channel.last = some x := by
    cases hs : c.state with
    | masked => rw [sample_masked (c := c.begun (!inw)) x _ hs]
    | fault => rw [sample_fault (c := c.begun (!inw)) x _ hs]
    | dry | suspect | wet =>
      rw [sample_live (c := c.begun (!inw)) x _ (by unfold Channel.Live Channel.begun; rw [hs]; simp)]
      split
      · exact (counted_fields (c := c.begun (!inw)) x k.threshold).2.2.2.2.2.2
      · exact (counted_fields (c := c.begun (!inw)) x k.threshold).2.2.2.2.2.2
  rw [hT, hU, step_sampled, step_classified]
  exact ⟨hsample, (classify_keeps k.confirm dry).1.trans hsample⟩

/-- The third lost sample brings FAULT, and the injection ends (R118). -/
theorem step_lost (h : c.Live) (hx : x.sound = false) (hl : 2 ≤ c.lostRun) {v : Channel} (hv : v = T ∨ v = U) :
    v.state = .fault ∧ v.injected = 0 ∧ v.injectPending = false ∧ v.drill = false := by
  have hsample := sample_lost (c := c.begun (!inw)) x k.threshold h hx hl
  rcases hv with rfl | rfl
  · rw [hT, step_sampled, hsample]
    exact ⟨rfl, rfl, rfl, rfl⟩
  · rw [hU, step_classified, hsample]
    exact ⟨rfl, rfl, rfl, rfl⟩

/-- A window without injection on a channel in DRY or SUSPECT (R116). -/
theorem step_plain {n j : Nat} (h : c.state = .dry ∨ c.state = .suspect) (hx : x.sound = true ∨ c.lostRun < 2)
    (hs : c.sitOut = false) (hd : c.drill = false) (hi : (c.begun (!inw)).injecting = false)
    (hj : j = (if x.sound = true ∧ k.threshold ≤ x.code then 1 else 0)) (hn : n = c.above + j) :
    U.state = (if k.confirm ≤ n then .wet else if 0 < n then .suspect else .dry) ∧ T.state = c.state ∧ T.above = n := by
  have hlive : c.Live := h.elim Or.inl (fun h => Or.inr (Or.inl h))
  obtain ⟨eT, eU⟩ := step_live (k := k) (dry := dry) (inw := inw) hlive hx
  obtain ⟨f1, f2, f3, f4, f5, f6, f7⟩ := counted_fields (c := c.begun (!inw)) x k.threshold
  obtain ⟨_, _, habove⟩ := counted_counts (c := c.begun (!inw)) x k.threshold hs hj
  have hinj : ((c.begun (!inw)).counted x k.threshold).injecting = false := by
    unfold Channel.injecting at hi ⊢; rw [f2, f3]; exact hi
  rw [hT, hU, eT, eU]
  generalize (c.begun (!inw)).counted x k.threshold = a at *
  have hstate : a.state = c.state := f1
  have hn' : a.above = n := (habove hi).trans hn.symm
  refine ⟨?_, hstate, hn'⟩
  have hnw : a.state ≠ .wet := by rw [hstate]; rcases h with h | h <;> rw [h] <;> decide
  rw [classify_plain k.confirm dry (by unfold Channel.Live at hlive ⊢; rw [hstate]; exact hlive) (f5.trans hs) hinj (f4.trans hd)]
  exact (classifyPlain_other k.confirm dry hnw).trans (by rw [hn'])

omit hT in
/-- A window without injection on a channel in WET (R116). -/
theorem step_wet {n j : Nat} (h : c.state = .wet) (hx : x.sound = true ∨ c.lostRun < 2)
    (hs : c.sitOut = false) (hd : c.drill = false) (hi : (c.begun (!inw)).injecting = false)
    (hj : j = (if x.sound = true ∧ k.threshold ≤ x.code then 1 else 0)) (hn : n = c.above + j) :
    U.state = (if n = 0 ∧ dry ≤ c.dryRun + 1 then .dry else .wet) := by
  have hlive : c.Live := Or.inr (Or.inr h)
  obtain ⟨_, eU⟩ := step_live (k := k) (dry := dry) (inw := inw) hlive hx
  obtain ⟨f1, f2, f3, f4, f5, f6, f7⟩ := counted_fields (c := c.begun (!inw)) x k.threshold
  obtain ⟨_, _, habove⟩ := counted_counts (c := c.begun (!inw)) x k.threshold hs hj
  have hinj : ((c.begun (!inw)).counted x k.threshold).injecting = false := by
    unfold Channel.injecting at hi ⊢; rw [f2, f3]; exact hi
  rw [hU, eU]
  generalize (c.begun (!inw)).counted x k.threshold = a at *
  have hstate : a.state = .wet := f1.trans h
  have hn' : a.above = n := (habove hi).trans hn.symm
  have hrun : a.dryRun = c.dryRun := f6
  rw [classify_plain k.confirm dry (Or.inr (Or.inr hstate)) (f5.trans hs) hinj (f4.trans hd)]
  exact (classifyPlain_wet k.confirm dry hstate).trans (by rw [hn', hrun])

/-- A channel that sits out its window (R122). -/
theorem step_sitsOut (h : c.Live) (hx : x.sound = true ∨ c.lostRun < 2) (hs : c.sitOut = true) :
    U.state = c.state ∧ U.sitOut = false ∧ T.state = c.state ∧ T.sitOut = true := by
  obtain ⟨eT, eU⟩ := step_live (k := k) (dry := dry) (inw := inw) h hx
  obtain ⟨f1, f2, f3, f4, f5, f6, f7⟩ := counted_fields (c := c.begun (!inw)) x k.threshold
  rw [hT, hU, eT, eU]
  generalize (c.begun (!inw)).counted x k.threshold = a at *
  have hstate : a.state = c.state := f1
  have hsit : a.sitOut = true := f5.trans hs
  rw [classify_sitOut k.confirm dry (by unfold Channel.Live at h ⊢; rw [hstate]; exact h) hsit]
  exact ⟨hstate, rfl, hstate, hsit⟩

/-- A channel in FAULT (R119). -/
theorem step_faulted {m : Nat} (h : c.state = .fault) (hm : m = (if x.sound = true then c.samples + 1 else 0)) :
    U.state = (if m = 10 then .dry else .fault) ∧ U.samples = 0 ∧ T.state = .fault ∧ T.samples = m := by
  rw [hT, hU, step_sampled, step_classified, sample_fault (c := c.begun (!inw)) x _ h]
  refine ⟨(classify_fault k.confirm dry (c := { c.begun (!inw) with
    last := some x, samples := if x.sound then (c.begun (!inw)).samples + 1 else 0 }) h).trans ?_, rfl, h, hm.symm⟩
  rw [hm]; rfl

/-- An injected window (R125). -/
theorem step_injected {r j : Nat} (h : c.Live) (hx : x.sound = true ∨ c.lostRun < 2) (hs : c.sitOut = false)
    (hi : (c.begun (!inw)).injecting = true) (hj : j = (if x.sound = true ∧ k.threshold ≤ x.code then 1 else 0))
    (hr : r = c.realAbove + j) :
    U.state = .wet ∧ (k.confirm ≤ r → U.injected = 0 ∧ U.drill = false) ∧
    (r < k.confirm → U.injected = c.injected - 1 ∧ U.drill = (c.drill || c.state ≠ .wet)) ∧
    T.state = c.state ∧ T.above = c.above + 1 ∧ T.realAbove = r := by
  obtain ⟨eT, eU⟩ := step_live (k := k) (dry := dry) (inw := inw) h hx
  obtain ⟨f1, f2, f3, f4, f5, f6, f7⟩ := counted_fields (c := c.begun (!inw)) x k.threshold
  obtain ⟨hreal, habove, _⟩ := counted_counts (c := c.begun (!inw)) x k.threshold hs hj
  have hinj : ((c.begun (!inw)).counted x k.threshold).injecting = true := by
    unfold Channel.injecting at hi ⊢; rw [f2, f3]; exact hi
  rw [hT, hU, eT, eU]
  generalize (c.begun (!inw)).counted x k.threshold = a at *
  have hstate : a.state = c.state := f1
  have hr' : a.realAbove = r := hreal.trans hr.symm
  have hdrill : a.drill = c.drill := f4
  have hinjected : a.injected = c.injected := f2
  obtain ⟨g1, g2, g3⟩ := classifyInjected_facts k.confirm a
  rw [hr', hinjected, hdrill, hstate] at g3
  rw [hr'] at g2
  rw [classify_injecting k.confirm dry (by unfold Channel.Live at h ⊢; rw [hstate]; exact h) (f5.trans hs) hinj]
  exact ⟨g1, g2, g3, hstate, habove hi, hr'⟩

omit hT in
/-- The end of a drill mark (R126). -/
theorem step_drillEnds {r j : Nat} (h : c.Live) (hx : x.sound = true ∨ c.lostRun < 2) (hs : c.sitOut = false)
    (hi : (c.begun (!inw)).injecting = false) (hd : c.drill = true)
    (hj : j = (if x.sound = true ∧ k.threshold ≤ x.code then 1 else 0)) (hr : r = c.realAbove + j) :
    U.state = (if k.confirm ≤ r then .wet else if 0 < r then .suspect else .dry) ∧ U.drill = false := by
  obtain ⟨_, eU⟩ := step_live (k := k) (dry := dry) (inw := inw) h hx
  obtain ⟨f1, f2, f3, f4, f5, f6, f7⟩ := counted_fields (c := c.begun (!inw)) x k.threshold
  obtain ⟨hreal, _, _⟩ := counted_counts (c := c.begun (!inw)) x k.threshold hs hj
  have hinj : ((c.begun (!inw)).counted x k.threshold).injecting = false := by
    unfold Channel.injecting at hi ⊢; rw [f2, f3]; exact hi
  rw [hU, eU]
  generalize (c.begun (!inw)).counted x k.threshold = a at *
  have hstate : a.state = c.state := f1
  have hr' : a.realAbove = r := hreal.trans hr.symm
  rw [classify_drillEnd k.confirm dry (by unfold Channel.Live at h ⊢; rw [hstate]; exact h) (f5.trans hs) hinj (f4.trans hd)]
  obtain ⟨g1, g2⟩ := classifyDrillEnd_facts k.confirm a
  exact ⟨g1.trans (by rw [hr']), g2⟩

/-- The pending mark of an injection goes with the first sample of a window (R124). -/
theorem step_pending (h : c.Live) (hx : x.sound = true ∨ c.lostRun < 2) :
    (∀ v, v = T ∨ v = U → v.injectPending = (c.injectPending && inw) ∧
      ((c.begun (!inw)).injecting = false → v.injected = c.injected)) ∧ T.injected = c.injected := by
  obtain ⟨eT, eU⟩ := step_live (k := k) (dry := dry) (inw := inw) h hx
  obtain ⟨f1, f2, f3, f4, f5, f6, f7⟩ := counted_fields (c := c.begun (!inw)) x k.threshold
  have hinj : ((c.begun (!inw)).counted x k.threshold).injecting = (c.begun (!inw)).injecting := by
    unfold Channel.injecting; rw [f2, f3]
  have hpend : (c.begun (!inw)).injectPending = (c.injectPending && inw) := by
    unfold Channel.begun; rw [Bool.not_not]
  obtain ⟨g1, g2, g3⟩ := classify_keeps (c := (c.begun (!inw)).counted x k.threshold) k.confirm dry
  refine ⟨fun v hv => ?_, by rw [hT, eT]; exact f2⟩
  rcases hv with rfl | rfl
  · rw [hT, eT]
    exact ⟨f3.trans hpend, fun _ => f2⟩
  · rw [hU, eU]
    exact ⟨g2.trans (f3.trans hpend), fun hi => (g3 (hinj.trans hi)).trans f2⟩

theorem step_masked (h : c.state = .masked) : T.state = .masked ∧ U.state = .masked := by
  rw [hT, hU, step_sampled, step_classified, sample_masked (c := c.begun (!inw)) x _ h,
    classify_masked k.confirm dry (c := { c.begun (!inw) with last := some x }) h]
  exact ⟨h, h⟩

end

end Sys2Proof.Machine

/-! ## The sample event (R114–R123) -/

namespace Sys2Proof.Machine

-- One after another: side by side the proofs of the whole text take more memory than a check may.
set_option Elab.async false

/-! ### What follows the classification leaves the channels and the policy alone -/

/-- The channels and the policy of a state. -/
def State.sensing (s : State) : Sense × PolicyUnit := (s.sense, s.pol)

theorem sensing_apart : State.Apart State.sensing :=
  ⟨fun {s t} h => show (t.frozen.sense, t.frozen.pol) = (s.frozen.sense, s.frozen.pol) by rw [h], fun _ _ _ => rfl⟩

namespace State.Shows

variable {b s : State}

theorem rederive (cs : List ChannelNo) (h : Shows State.sensing b s) : Shows State.sensing b (s.rederive cs) := by
  have hderive : (s.deriveGuards (s.watchedBy cs)).sensing = s.sensing :=
    deriveGuards_leaves State.sensing (fun _ _ _ => rfl) s _
  have hpass (t : State) : (t.pass [] []).sensing = t.sensing :=
    sensing_apart.frozen (congrArg State.freeze (pass_still t [] []))
  refine ⟨?_, rederive_sound cs h.sound⟩
  unfold State.rederive; dsimp only; split
  · exact ((hpass _).trans hderive).trans h.view
  · exact hderive.trans h.view

theorem holdingLine {f : State → State} (h : Shows State.sensing b s)
    (hf : ∀ t, Shows State.sensing b t → Shows State.sensing b (f t)) : Shows State.sensing b (s.holdingLine f) :=
  (hf { s with bus.line := .stopping } (h.other rfl)).other rfl

theorem stillJoined (a : State) (h : Shows State.sensing b s) : Shows State.sensing b (s.stillJoined a) :=
  h.each _ (fun _ _ h => h.other rfl)

theorem arbiterSpeaksLast (h : Shows State.sensing b s) : Shows State.sensing b s.arbiterSpeaksLast := h.other rfl

end State.Shows

/-- The drip sense unit after a sample event (R114, R115). -/
def State.sampled (s : State) (l : List Sample) (e : Bool) : Sense :=
  { s.sense with
    channels := (s.channelSteps l e).map (fun x => x.2.channel)
    index := if e then 0 else s.sense.index + 1
    inWindow := !e
    nextAt := s.sense.nextAt + Config.samplePeriod
    lastEnd := if e then s.now else s.sense.lastEnd }

/-- After a sample event channels and policy are as the classification leaves them. -/
theorem sampleEvent_sensing {s : State} (h : s.Sound true true) (l : List Sample) (e : Bool) :
    ((s.sampleEvent l e).finish).sense = s.sampled l e ∧ ((s.sampleEvent l e).finish).pol = s.pol := by
  have h0 : State.Shows State.sensing { s with sense := s.sampled l e } { s with sense := s.sampled l e } :=
    .refl _ (show State.Sound true true { s with sense := s.sampled l e } from h.of_same rfl rfl)
  have h1 : State.Shows State.sensing { s with sense := s.sampled l e } (s.sampleEvent l e) := by
    unfold State.sampleEvent; dsimp only
    refine State.Shows.grantLine sensing_apart (State.Shows.arbiterSpeaksLast ?_)
    refine State.Shows.stillJoined _ (State.Shows.each _ (State.Shows.holdingLine (State.Shows.each _ (State.Shows.each _ h0
      (fun _ _ h => h)) (fun t x h => ?_)) (fun _ h => h.rederive _)) (fun _ _ h => h.channelEvent sensing_apart _))
    split
    · exact h
    · exact h.other rfl
  have h2 := h1.finish sensing_apart
  exact ⟨congrArg Prod.fst h2, congrArg Prod.snd h2⟩

/-- A choice by equivalent conditions. -/
theorem ite_of_iff {α : Type} {b c : Prop} [Decidable b] [Decidable c] {x y : α} (h : b ↔ c) :
    (if b then x else y) = if c then x else y := ite_congr (propext h) (fun _ => rfl) (fun _ => rfl)

/-- A channel after the classification of a sample event. -/
theorem sampled_chan (s : State) (l : List Sample) (e : Bool) {ch : ChannelNo} (hc : ch < 34) {x : Sample}
    (hx : l[ch]? = some x) {t : State} (ht : t.sense = s.sampled l e) : t.chan ch =
      ((s.chan ch).step x (s.pol.active.classOf (channelClass ch)) s.pol.active.timing.dryWindows (!s.sense.inWindow)
        e).channel := by
  have hch : Config.channels[ch]? = some ch := by
    unfold Config.channels; rw [List.getElem?_range (by exact hc)]
  unfold State.chan
  rw [ht]
  unfold State.sampled State.channelSteps
  dsimp only
  rw [List.getD_eq_getElem?_getD, List.map_map, List.getElem?_map, hch, Option.map_some, Option.getD_some]
  show (Channel.step _ (l.getD ch ⟨0, false⟩) _ _ _ _).channel = _
  rw [List.getD_eq_getElem?_getD, hx]
  rfl

/-- Settles O50: sample by sample and channel by channel, what the sample and the end of the window make of it. -/
theorem samplesClassifyChannels : Obligations.SamplesClassifyChannels := by
  intro s l ho hp hl
  have hsound : (s.advance s.sense.nextAt).Sound true true := ho.sound.of_same rfl rfl
  obtain ⟨tsense, tpol⟩ := sampleEvent_sensing hsound l (9 ≤ s.sense.index)
  obtain ⟨usense, upol⟩ := sampleEvent_sensing hsound l true
  refine ⟨((s.advance s.sense.nextAt).sampleEvent l (9 ≤ s.sense.index)).finish,
    ((s.advance s.sense.nextAt).sampleEvent l true).finish, unitEvent_powered (decide_eq_true hl) hp _,
    unitEvent_powered (decide_eq_true hl) hp _, ?_⟩
  have hsame : 9 ≤ s.sense.index → ((s.advance s.sense.nextAt).sampleEvent l (9 ≤ s.sense.index)).finish =
      ((s.advance s.sense.nextAt).sampleEvent l true).finish := fun h => by rw [decide_eq_true h]
  generalize ((s.advance s.sense.nextAt).sampleEvent l (9 ≤ s.sense.index)).finish = t at *
  generalize ((s.advance s.sense.nextAt).sampleEvent l true).finish = u at *
  refine ⟨?_, ?_, ?_, ?_, ?_, ?_, ?_, fun h => ?_, hsame, fun ch x k h n r injecting hch hx hk hh hn hr hi => ?_, tpol, upol⟩
  · rw [tsense]
    show (if decide (9 ≤ s.sense.index) = true then 0 else s.sense.index + 1) = _
    exact ite_of_iff decide_eq_true_iff
  · rw [usense]; rfl
  · rw [tsense]
    show (!decide (9 ≤ s.sense.index)) = _
    rw [← decide_not, decide_eq_decide, Nat.not_le]
  · rw [usense]; rfl
  · rw [tsense]; rfl
  · rw [usense]; rfl
  · rw [usense]; rfl
  · rw [tsense]
    show (if decide (9 ≤ s.sense.index) = true then _ else s.sense.lastEnd) = _
    exact if_neg (by rw [decide_eq_true_iff]; exact Nat.not_le.2 h)
  · have hU := sampled_chan (s.advance s.sense.nextAt) l true hch hx usense
    have hT := sampled_chan (s.advance s.sense.nextAt) l (9 ≤ s.sense.index) hch hx tsense
    change u.chan ch = ((s.chan ch).step x (s.pol.active.classOf (channelClass ch)) s.pol.active.timing.dryWindows
      (!s.sense.inWindow) true).channel at hU
    change t.chan ch = ((s.chan ch).step x (s.pol.active.classOf (channelClass ch)) s.pol.active.timing.dryWindows
      (!s.sense.inWindow) (decide (9 ≤ s.sense.index))).channel at hT
    rw [← hk] at hU hT
    generalize s.chan ch = c at *
    generalize hS : (c.step x k s.pol.active.timing.dryWindows (!s.sense.inWindow) false).channel = S at *
    have hS' := hS.symm
    have hTS : s.sense.index < 9 → t.chan ch = S := fun h => by
      rw [hT, decide_eq_false (Nat.not_le.2 h)]; exact hS
    have hTU : t.chan ch = S ∨ t.chan ch = u.chan ch := by
      by_cases h : s.sense.index < 9
      · exact Or.inl (hTS h)
      · exact Or.inr (by rw [hsame (Nat.le_of_not_lt h)])
    have hv {v : State} (h : v = t ∨ v = u) : v.chan ch = S ∨ v.chan ch = u.chan ch := by
      rcases h with rfl | rfl
      · exact hTU
      · exact Or.inr rfl
    have hinj : ¬ injecting → (c.begun (!s.sense.inWindow)).injecting = false := fun h => by
      cases hb : (c.begun (!s.sense.inWindow)).injecting with
      | true => exact absurd (hi.2 (begun_injecting.1 hb)) h
      | false => rfl
    have hlast := step_last hS' hU
    refine ⟨?_, hlast.2, fun v h hl hx h2 => step_lost hS' hU hl hx h2 (hv h), fun hs hx hsit hd hni => ?_,
      fun hs hx hsit hd hni => step_wet hU hs hx hsit hd (hinj hni) hh hn, fun hs hx hsit => ?_, fun m hs hm => ?_,
      fun hs hx hsit => ⟨fun hin => ?_, fun hni hd => step_drillEnds hU hs hx hsit (hinj hni) hd hh hr⟩, fun hs hx => ?_,
      fun hs => ?_⟩
    · rcases hTU with e | e
      · rw [e]; exact hlast.1
      · rw [e]; exact hlast.2
    · obtain ⟨h1, h2, h3⟩ := step_plain hS' hU hs hx hsit hd (hinj hni) hh hn
      exact ⟨h1, fun h9 => by rw [hTS h9]; exact ⟨h2, h3⟩⟩
    · obtain ⟨h1, h2, h3, h4⟩ := step_sitsOut hS' hU hs hx hsit
      exact ⟨h1, h2, fun h9 => by rw [hTS h9]; exact ⟨h3, h4⟩⟩
    · obtain ⟨h1, h2, h3, h4⟩ := step_faulted hS' hU hs hm
      exact ⟨h1, h2, fun h9 => by rw [hTS h9]; exact ⟨h3, h4⟩⟩
    · obtain ⟨h1, h2, h3, h4, h5, h6⟩ := step_injected hS' hU hs hx hsit (begun_injecting.2 (hi.1 hin)) hh hr
      exact ⟨h1, h2, h3, fun h9 => by rw [hTS h9]; exact ⟨h4, h5, h6⟩⟩
    · obtain ⟨h1, h2⟩ := step_pending hS' hU hs hx
      refine ⟨fun v h => ?_, fun h9 => by rw [hTS h9]; exact h2⟩
      obtain ⟨h3, h4⟩ := h1 (v.chan ch) (hv h)
      exact ⟨h3, fun hni => h4 (hinj hni)⟩
    · obtain ⟨h1, h2⟩ := step_masked hS' hU hs
      rcases hTU with e | e
      · rw [e]; exact ⟨h1, h2⟩
      · rw [e]; exact ⟨h2, h2⟩

end Sys2Proof.Machine

/-! ## The work of a window expiry on one branch (R94–R110) -/

namespace Sys2Proof.Machine

-- One after another: side by side the proofs of the whole text take more memory than a check may.
set_option Elab.async false

/-! ### What the work on one branch leaves alone (R96) -/

/-- Whether an actuator moves, and where it stands. -/
def Actuator.motion (x : Actuator) : Bool × Option Nat := (x.moving, x.position)

/-- No actuator has begun or ended to move in the shadows. -/
def State.SameMotion (s t : State) : Prop := t.bus.actuators.map Actuator.motion = s.bus.actuators.map Actuator.motion

theorem State.SameMotion.act {s t : State} (h : s.SameMotion t) (a : ActuatorNo) : (t.act a).motion = (s.act a).motion := by
  have e (u : State) : (u.act a).motion = (u.bus.actuators.map Actuator.motion).getD a Actuator.reset.motion := by
    unfold State.act
    exact (getD_map_apply u.bus.actuators Actuator.reset Actuator.motion).symm
  rw [e, e, show t.bus.actuators.map Actuator.motion = s.bus.actuators.map Actuator.motion from h]

theorem State.SameMotion.trans {s t u : State} (h : s.SameMotion t) (k : t.SameMotion u) : s.SameMotion u := Eq.trans k h

theorem modAct_motion (s : State) (a : ActuatorNo) (f : Actuator → Actuator) (hf : ∀ x, (f x).motion = x.motion) :
    s.SameMotion (s.modAct a f) := map_modify_same Actuator.motion f hf _ _

theorem sendRequest_motion (s : State) (a : ActuatorNo) (r : Request) (n : Nat) : s.SameMotion (s.sendRequest a r n) :=
  modAct_motion s a (fun x => { x with lastTx := some s.now }) (fun _ => rfl)

theorem report_actuators (s : State) (c : Client) (a : ActuatorNo) (k : ReportKind) :
    (s.report c a k).bus.actuators = s.bus.actuators := by
  unfold State.report; split <;> rfl

theorem sendMove_motion (s : State) (c : Claim) : s.SameMotion (s.sendMove c) := by
  have hsup : s.SameMotion (s.supersede c.actuator) := by
    unfold State.supersede; split
    · rfl
    · exact congrArg (List.map Actuator.motion) (report_actuators _ _ _ _)
  have hmod (t : State) : t.SameMotion (t.modAct c.actuator (fun x => { x with
      target := some c.target, owner := some (ownerOf c.client), startRef := none
      move := some { target := c.target, client := c.client, started := false
                     startTimer := some (t.now + Config.startWait), moveTimer := t.now + Config.moveWait
                     sentAt := t.now } })) := modAct_motion t _ _ (fun _ => rfl)
  exact (hsup.trans (hmod _)).trans (sendRequest_motion _ _ _ _)

theorem grantClaim_motion (s : State) : s.SameMotion s.grantClaim := by
  have sent (b : Bus) (c : Claim) (hb : b.actuators = s.bus.actuators) :
      s.SameMotion (State.sendMove { s with bus := b } c) :=
    State.SameMotion.trans (t := { s with bus := b }) (congrArg (List.map Actuator.motion) hb) (sendMove_motion _ c)
  have asked (b : Bus) (a : ActuatorNo) (r : Request) (hb : b.actuators = s.bus.actuators) :
      s.SameMotion (State.sendRequest { s with bus := b } a r 1) :=
    State.SameMotion.trans (t := { s with bus := b }) (congrArg (List.map Actuator.motion) hb) (sendRequest_motion _ a r 1)
  unfold State.grantClaim; split
  · exact asked _ _ _ rfl
  · exact sent _ _ rfl
  · exact sent _ _ rfl
  · exact sent _ _ rfl
  · exact asked _ _ _ rfl
  · rfl

theorem grantLine_motion (s : State) : s.SameMotion s.grantLine := by
  unfold State.grantLine; split
  · split
    · unfold State.grantClear; repeat' split
      · exact sendRequest_motion _ _ _ _
      · exact State.SameMotion.trans (t := { s with bus.clearing := none }) rfl (grantClaim_motion _)
      · rfl
    · exact grantClaim_motion s
  · rfl

theorem placeFlow_motion (s : State) (a : ActuatorNo) (n : Nat) : s.SameMotion (s.placeFlow a n) := by
  unfold State.placeFlow; split
  · exact congrArg (List.map Actuator.motion) (report_actuators _ _ _ _)
  · exact State.SameMotion.trans (t := { s with
      bus.flowQ := coalesce { actuator := a, target := n, client := .flow, madeAt := s.now } s.bus.flowQ }) rfl
      (grantLine_motion _)

/-- A state without its branch table, and without what a pass, the line or notices may write. -/
def State.offBranches (s : State) : State := { s.still with branches := [] }

/-- From `s` to `t` the work of a window expiry has been on branch `p` alone (R96). -/
structure State.WorksOn (p : Position) (s t : State) : Prop where
  off : t.offBranches = s.offBranches
  length : t.branches.length = s.branches.length
  others : ∀ q, q ≠ p → t.br q = s.br q
  motion : s.SameMotion t

namespace State.WorksOn

variable {p : Position} {s t u : State}

theorem refl (p : Position) (s : State) : WorksOn p s s := ⟨rfl, rfl, fun _ _ => rfl, rfl⟩

theorem trans (h : WorksOn p s t) (k : WorksOn p t u) : WorksOn p s u :=
  ⟨k.off.trans h.off, k.length.trans h.length, fun q hq => (k.others q hq).trans (h.others q hq), h.motion.trans k.motion⟩

theorem quiet (hs : t.still = s.still) (hb : t.branches = s.branches) (hm : s.SameMotion t) : WorksOn p s t :=
  ⟨congrArg (fun s : State => { s with branches := [] }) hs, congrArg List.length hb, fun q _ => br_congr hb q, hm⟩

theorem modBr (p : Position) (s : State) (f : Branch → Branch) : WorksOn p s (s.modBr p f) :=
  ⟨rfl, modBr_branches_length s p f, fun _ hq => modBr_br_ne s f hq.symm, rfl⟩

theorem notify (p : Position) (s : State) (n : Notice) : WorksOn p s (s.notify n) := quiet (notify_still s n) rfl rfl

theorem placeFlow (p : Position) (s : State) (a : ActuatorNo) (n : Nat) : WorksOn p s (s.placeFlow a n) :=
  quiet (placeFlow_still s a n) (placeFlow_busOnly s a n).branches (placeFlow_motion s a n)

theorem complete (p : Position) (s : State) (k : LongKind) (st : Status) (b : CompletionBody) : WorksOn p s (s.complete k st b) :=
  quiet (complete_still s k st b) (complete_branches s k st b)
    (congrArg (fun b : Bus => b.actuators.map Actuator.motion) (complete_bus s k st b))

theorem followMarks (p : Position) (s : State) (side : MeterSide) : WorksOn p s (s.followMarks p side) := by
  unfold State.followMarks
  split
  · split
    · exact refl p s
    · rename_i h
      refine trans ?_ (modBr p _ _)
      unfold State.markFault
      exact (if_neg h) ▸ (modBr p s _).trans (notify p _ _)
  · exact modBr p s _

theorem judgeMeters (p : Position) (s : State) : WorksOn p s (s.judgeMeters p) :=
  (((modBr p s _).trans (followMarks p _ .supply)).trans (modBr p _ _)).trans (followMarks p _ .ret)

theorem unsettle (p : Position) (s : State) (c : SettleCause) : WorksOn p s (s.unsettle p c) := by
  unfold State.unsettle; dsimp only; split
  · exact (modBr p s _).trans (notify p _ _)
  · exact modBr p s _

theorem judgeSettle (p : Position) (s : State) : WorksOn p s (s.judgeSettle p) := by
  unfold State.judgeSettle; split
  · dsimp only; split
    · exact (modBr p s _).trans (notify p _ _)
    · exact modBr p s _
  · exact unsettle p s .window

theorem adjust (p : Position) (s : State) (v : Bool) : WorksOn p s (s.adjust p v) := by
  unfold State.adjust; dsimp only; repeat' split
  · exact refl p s
  · exact (modBr p s _).trans (placeFlow p _ _ _)
  · exact refl p s

theorem finishTrim (p : Position) (s : State) : WorksOn p s (s.finishTrim p) := by
  unfold State.finishTrim; dsimp only; repeat' split
  all_goals first
    | exact (modBr p s _).trans (placeFlow p _ _ _)
    | exact modBr p s _

theorem advanceTrim (p : Position) (s : State) (v : Bool) : WorksOn p s (s.advanceTrim p v) := by
  unfold State.advanceTrim; split
  · exact refl p s
  · dsimp only; split
    · exact (((modBr p s _).trans (modBr p _ _)).trans (finishTrim p _)).trans (complete p _ _ _ _)
    · split
      · exact ((modBr p s _).trans (finishTrim p _)).trans (complete p _ _ _ _)
      · exact modBr p s _

theorem judgeImbalance (p : Position) (s : State) : WorksOn p s (s.judgeImbalance p) := by
  unfold State.judgeImbalance; dsimp only; repeat' split
  · exact modBr p s _
  · exact modBr p s _
  · exact refl p s

theorem branchWindow (p : Position) (s : State) : WorksOn p s (s.branchWindow p) :=
  ((((((modBr p s _).trans (judgeMeters p _)).trans (judgeSettle p _)).trans (adjust p _ _)).trans (advanceTrim p _ _)).trans
    (judgeImbalance p _)).trans (modBr p _ _)

theorem bothStill (h : WorksOn p s t) (q : Position) : t.bothStill q = s.bothStill q := by
  have e (a : ActuatorNo) : (t.act a).moving = (s.act a).moving := congrArg Prod.fst (h.motion.act a)
  unfold State.bothStill; rw [e, e]

theorem atLeast (h : WorksOn p s t) (a : ActuatorNo) (n : Nat) : (t.act a).atLeast n = (s.act a).atLeast n := by
  have e : (t.act a).position = (s.act a).position := congrArg Prod.snd (h.motion.act a)
  unfold Actuator.atLeast; rw [e]

theorem pol (h : WorksOn p s t) : t.pol = s.pol := show t.offBranches.pol = s.offBranches.pol by rw [h.off]
theorem window (h : WorksOn p s t) : t.window = s.window := show t.offBranches.window = s.offBranches.window by rw [h.off]

end State.WorksOn

end Sys2Proof.Machine

/-! ## What a window expiry makes of a branch (R94–R110) -/

namespace Sys2Proof.Machine

-- One after another: side by side the proofs of the whole text take more memory than a check may.
set_option Elab.async false

/-! ### The stages of an expiry on a branch record (R95–R97, R108–R110) -/

/-- The flows of a window of a length (R95). -/
def Branch.measured (w : Nat) (b : Branch) : Branch :=
  { b with
    measuredSupply := flowOf b.supplyMeter.pulses b.limits.kSupply w
    measuredReturn := flowOf b.returnMeter.pulses b.limits.kReturn w }

/-- METER_FAULT as the marks of the meters ask for it (R108, R109). -/
def Branch.followed (b : Branch) : Branch :=
  if b.meterMarked then
    if b.meterFault then b else { b with meterFault := true, imbalance := false, imbalanceRun := 0, clearRun := 0 }
  else { b with meterFault := false }

/-- The supply meter is judged, then METER_FAULT (R108). -/
def Branch.supplyJudged (flowing : Bool) (b : Branch) : Branch :=
  Branch.followed { b with supplyMeter := b.supplyMeter.judge flowing }

/-- The return meter is judged, then METER_FAULT (R108). -/
def Branch.returnJudged (flowing : Bool) (b : Branch) : Branch :=
  Branch.followed { b with returnMeter := b.returnMeter.judge flowing }

/-- The settle run of a window (R97). -/
def Branch.settledOver (still : Bool) (g : Timing) (b : Branch) : Branch :=
  if (!b.driveChanged && still) && b.inTolerance g.settleTolerance then
    { b with
      settleRun := if b.settleRun < g.settleCount then b.settleRun + 1 else b.settleRun
      settled := b.settled || (!b.settled && g.settleCount ≤ b.settleRun + 1) }
  else { b with settleRun := 0, settled := false }

/-- The imbalance judgement of a window (R110). -/
def Branch.balanced (still : Bool) (g : Timing) (b : Branch) : Branch :=
  if b.drive = 0 then { b with imbalance := false, imbalanceRun := 0, clearRun := 0 }
  else if (!b.meterMarked && 50 ≤ b.drive) && still then b.judgeImbalance g.imbalanceThreshold g.imbalanceWindows
  else b

/-- A branch as the next window begins (R94, R96). -/
def Branch.begunWindow (b : Branch) : Branch :=
  { b with
    driveChanged := false, supplyMeter := { b.supplyMeter with pulses := 0 }
    returnMeter := { b.returnMeter with pulses := 0 } }

/-- A branch after an expiry, but for what TRACK and a trim write (R96). -/
def Branch.windowed (w : Nat) (flowing still : Bool) (g : Timing) (b : Branch) : Branch :=
  ((((((b.measured w).supplyJudged flowing).returnJudged flowing).settledOver still g).balanced still g)).begunWindow

/-- A branch record without what TRACK and a trim write (R102, R106). -/
def Branch.untrimmed (b : Branch) : Branch := { b with controlTarget := none, trim := none, trimOffset := 0 }

theorem balanced_untrimmed (still : Bool) (g : Timing) (b : Branch) :
    (b.balanced still g).untrimmed = b.untrimmed.balanced still g := by
  have hjudge : (b.judgeImbalance g.imbalanceThreshold g.imbalanceWindows).untrimmed =
      b.untrimmed.judgeImbalance g.imbalanceThreshold g.imbalanceWindows := by
    unfold Branch.judgeImbalance
    rw [show b.untrimmed.imbalance = b.imbalance from rfl, show b.untrimmed.clearRun = b.clearRun from rfl,
      show b.untrimmed.imbalanceRun = b.imbalanceRun from rfl,
      show b.untrimmed.excess g.imbalanceThreshold = b.excess g.imbalanceThreshold from rfl]
    dsimp only
    generalize (if b.excess g.imbalanceThreshold = true then 0 else b.clearRun + 1) = clear
    generalize (if b.excess g.imbalanceThreshold = true then b.imbalanceRun + 1 else 0) = run
    repeat' split
    all_goals rfl
  unfold Branch.balanced
  rw [show b.untrimmed.drive = b.drive from rfl, show b.untrimmed.meterMarked = b.meterMarked from rfl]
  split
  · rfl
  · split
    · exact hjudge
    · rfl

/-! ### The stages of an expiry on the state (R96) -/

theorem measure_br {s : State} {p : Position} (h : p < s.branches.length) :
    (s.measure p).br p = (s.br p).measured s.window.length := modBr_br_self s p _ h

theorem followMarks_br {s : State} {p : Position} (h : p < s.branches.length) (side : MeterSide) :
    (s.followMarks p side).br p = (s.br p).followed := by
  unfold State.followMarks Branch.followed
  by_cases hm : (s.br p).meterMarked = true
  · rw [if_pos hm, if_pos hm]
    by_cases hf : (s.br p).meterFault = true
    · rw [if_pos hf, if_pos hf]
    · rw [if_neg hf, if_neg hf]
      have hmark : s.markFault p .meterFault (some side) =
          (s.modBr p (fun b => { b with meterFault := true })).notify (.branchFault p .meterFault (some side)) := by
        unfold State.markFault; exact if_neg hf
      rw [hmark, modBr_br_self _ p _ (by simpa using h)]
      show ({ (s.modBr p (fun b => { b with meterFault := true })).br p with
        imbalance := false, imbalanceRun := 0, clearRun := 0 } : Branch) = _
      rw [modBr_br_self s p _ h]
  · rw [if_neg hm, if_neg hm]
    exact modBr_br_self s p _ h

theorem judgeMeters_br {s : State} {p : Position} (h : p < s.branches.length) :
    (s.judgeMeters p).br p = ((s.br p).supplyJudged (s.flowExpected p)).returnJudged (s.flowExpected p) := by
  have h1 : ((s.modBr p (fun b => { b with supplyMeter := b.supplyMeter.judge (s.flowExpected p) })).followMarks p .supply).br p =
      (s.br p).supplyJudged (s.flowExpected p) := by
    rw [followMarks_br (by simpa using h), modBr_br_self s p _ h]; rfl
  have hlen : p < ((s.modBr p (fun b => { b with supplyMeter := b.supplyMeter.judge (s.flowExpected p) })).followMarks p
      .supply).branches.length := by
    rw [(State.WorksOn.followMarks p _ .supply).length]; simpa using h
  unfold State.judgeMeters; dsimp only
  rw [followMarks_br (by simpa using hlen), modBr_br_self _ p _ hlen, h1]; rfl

theorem judgeSettle_br {s : State} {p : Position} (h : p < s.branches.length) :
    (s.judgeSettle p).br p = (s.br p).settledOver (s.bothStill p) s.pol.active.timing := by
  have hset : s.settling p = ((!(s.br p).driveChanged && s.bothStill p) &&
      (s.br p).inTolerance s.pol.active.timing.settleTolerance) := rfl
  unfold State.judgeSettle Branch.settledOver
  rw [← hset]
  by_cases hs : s.settling p = true
  · rw [if_pos hs, if_pos hs]
    have hnow : s.settlesNow p = (!(s.br p).settled && decide (s.pol.active.timing.settleCount ≤ (s.br p).settleRun + 1)) := by
      unfold State.settlesNow; rw [hs, Bool.true_and]
    have hmod := modBr_br_self s p (fun b => { b with
      settleRun := if b.settleRun < s.pol.active.timing.settleCount then b.settleRun + 1 else b.settleRun
      settled := b.settled || s.settlesNow p }) h
    dsimp only
    rw [hnow] at hmod ⊢
    split
    · exact hmod
    · exact hmod
  · rw [if_neg hs, if_neg hs]
    unfold State.unsettle; dsimp only
    split
    · exact modBr_br_self s p _ h
    · exact modBr_br_self s p _ h

theorem placeFlow_br (s : State) (a : ActuatorNo) (n : Nat) (p : Position) : (s.placeFlow a n).br p = s.br p :=
  br_congr (placeFlow_busOnly s a n).branches p

theorem modBr_untrimmed (s : State) (p : Position) (f : Branch → Branch) (hf : ∀ b, (f b).untrimmed = b.untrimmed) :
    State.Same Branch.untrimmed s (s.modBr p f) := (State.Same.refl _ s).modBr p f hf

theorem placeFlow_untrimmed (s : State) (a : ActuatorNo) (n : Nat) : State.Same Branch.untrimmed s (s.placeFlow a n) :=
  (State.Same.refl _ s).table (placeFlow_busOnly s a n).branches

theorem adjust_untrimmed (s : State) (p : Position) (v : Bool) : State.Same Branch.untrimmed s (s.adjust p v) := by
  unfold State.adjust; dsimp only; repeat' split
  · exact .refl _ s
  · refine State.Same.trans (modBr_untrimmed s p _ ?_) (placeFlow_untrimmed _ _ _)
    exact fun _ => rfl
  · exact .refl _ s

theorem finishTrim_untrimmed (s : State) (p : Position) : State.Same Branch.untrimmed s (s.finishTrim p) := by
  have h := modBr_untrimmed s p (fun b => { b with
    controlTarget := some ((s.br p).curveTarget (s.br p).drive), trim := none }) (fun _ => rfl)
  unfold State.finishTrim; dsimp only; repeat' split
  all_goals first
    | exact h.trans (placeFlow_untrimmed _ _ _)
    | exact h

theorem advanceTrim_untrimmed (s : State) (p : Position) (v : Bool) : State.Same Branch.untrimmed s (s.advanceTrim p v) := by
  have ended {t : State} (h : State.Same Branch.untrimmed s t) (k : LongKind) (st : Status) (b : CompletionBody) :
      State.Same Branch.untrimmed s ((t.finishTrim p).complete k st b) :=
    (h.trans (finishTrim_untrimmed t p)).table (complete_branches _ k st b)
  unfold State.advanceTrim; split
  · exact .refl _ s
  · rename_i tr _
    have h1 := modBr_untrimmed s p (fun b => { b with trim := some { tr with windows := tr.windows + 1 } }) (fun _ => rfl)
    dsimp only; split
    · refine ended (h1.trans (modBr_untrimmed _ p _ ?_)) _ _ _
      exact fun _ => rfl
    · split
      · exact ended h1 _ _ _
      · exact h1

theorem judgeImbalance_br {s : State} {p : Position} (h : p < s.branches.length) :
    (s.judgeImbalance p).br p = (s.br p).balanced (s.bothStill p) s.pol.active.timing := by
  unfold State.judgeImbalance Branch.balanced
  by_cases hd : (s.br p).drive = 0
  · rw [if_pos hd, if_pos hd]; exact modBr_br_self s p _ h
  · rw [if_neg hd, if_neg hd]
    have hq : s.qualifies p = ((!(s.br p).meterMarked && decide (50 ≤ (s.br p).drive)) && s.bothStill p) := rfl
    rw [← hq]
    split
    · exact modBr_br_self s p _ h
    · rfl

/-- An expiry on one branch, by its stages (R96). -/
theorem branchWindow_br {s : State} {p : Position} (h : p < s.branches.length) : ((s.branchWindow p).br p).untrimmed =
    ((s.br p).windowed s.window.length (s.flowExpected p) (s.bothStill p) s.pol.active.timing).untrimmed := by
  have w1 : State.WorksOn p s (s.measure p) := .modBr p s (fun b => b.measured s.window.length)
  have w2 := w1.trans (State.WorksOn.judgeMeters p (s.measure p))
  have w3 := w2.trans (State.WorksOn.judgeSettle p ((s.measure p).judgeMeters p))
  have w4 := w3.trans (State.WorksOn.adjust p (((s.measure p).judgeMeters p).judgeSettle p) (((s.measure p).judgeMeters p).quiet p))
  have w5 := w4.trans (State.WorksOn.advanceTrim p ((((s.measure p).judgeMeters p).judgeSettle p).adjust p
    (((s.measure p).judgeMeters p).quiet p)) (((s.measure p).judgeMeters p).settlesNow p))
  have w6 := w5.trans (State.WorksOn.judgeImbalance p _)
  have hflow : (s.measure p).flowExpected p = s.flowExpected p := by
    unfold State.flowExpected; rw [measure_br h]; rfl
  have b2 : ((s.measure p).judgeMeters p).br p =
      (((s.br p).measured s.window.length).supplyJudged (s.flowExpected p)).returnJudged (s.flowExpected p) := by
    rw [judgeMeters_br (by rw [w1.length]; exact h), measure_br h, hflow]
  have b3 : (((s.measure p).judgeMeters p).judgeSettle p).br p =
      ((((s.br p).measured s.window.length).supplyJudged (s.flowExpected p)).returnJudged (s.flowExpected p)).settledOver
        (s.bothStill p) s.pol.active.timing := by
    rw [judgeSettle_br (by rw [w2.length]; exact h), b2, w2.bothStill p, w2.pol]
  have hsame := (adjust_untrimmed (((s.measure p).judgeMeters p).judgeSettle p) p (((s.measure p).judgeMeters p).quiet p)).trans
    (advanceTrim_untrimmed _ p (((s.measure p).judgeMeters p).settlesNow p))
  have b5 := hsame.br p
  rw [b3] at b5
  unfold State.branchWindow
  dsimp only
  generalize ((((s.measure p).judgeMeters p).judgeSettle p).adjust p (((s.measure p).judgeMeters p).quiet p)).advanceTrim p
    (((s.measure p).judgeMeters p).settlesNow p) = t at w5 w6 b5
  have b6 : (((t.judgeImbalance p).br p)).untrimmed = (((((s.br p).measured s.window.length).supplyJudged
      (s.flowExpected p)).returnJudged (s.flowExpected p)).settledOver (s.bothStill p) s.pol.active.timing).untrimmed.balanced
        (s.bothStill p) s.pol.active.timing := by
    rw [judgeImbalance_br (by rw [w5.length]; exact h), balanced_untrimmed, b5, w5.bothStill p, w5.pol]
  have b7 : ((t.judgeImbalance p).closeWindow p).br p = ((t.judgeImbalance p).br p).begunWindow :=
    modBr_br_self _ p _ (by rw [w6.length]; exact h)
  rw [b7]
  show ((t.judgeImbalance p).br p).untrimmed.begunWindow = _
  rw [b6, ← balanced_untrimmed]
  rfl

/-- After the work on every branch each has been worked on once, as it stood before (R96). -/
theorem windows_br {s : State} (h : s.branches.length = 24) {p : Position} (hp : p < 24) :
    ((s.forEach Config.positions State.branchWindow).br p).untrimmed =
      ((s.br p).windowed s.window.length (s.flowExpected p) (s.bothStill p) s.pol.active.timing).untrimmed := by
  have hstep (t : State) (q : Position) (ht : t.offBranches = s.offBranches ∧ t.branches.length = 24 ∧ s.SameMotion t) :
      (t.branchWindow q).offBranches = s.offBranches ∧ (t.branchWindow q).branches.length = 24 ∧
        s.SameMotion (t.branchWindow q) :=
    have w := State.WorksOn.branchWindow q t
    ⟨w.off.trans ht.1, w.length.trans ht.2.1, ht.2.2.trans w.motion⟩
  obtain ⟨t, ⟨hoff, hlen, hmotion⟩, hbr, hrun⟩ := forEach_br_once
    (fun t => t.offBranches = s.offBranches ∧ t.branches.length = 24 ∧ s.SameMotion t) State.branchWindow hstep
    (fun t q r _ hr => (State.WorksOn.branchWindow q t).others r hr) Config.positions List.nodup_range s ⟨rfl, h, rfl⟩
    (mem_positions.2 hp)
  have hpol : t.pol = s.pol := show t.offBranches.pol = s.offBranches.pol by rw [hoff]
  have hwindow : t.window = s.window := show t.offBranches.window = s.offBranches.window by rw [hoff]
  have hmoving (a : ActuatorNo) : (t.act a).moving = (s.act a).moving := congrArg Prod.fst (hmotion.act a)
  have hposition (a : ActuatorNo) : (t.act a).position = (s.act a).position := congrArg Prod.snd (hmotion.act a)
  have hstill : t.bothStill p = s.bothStill p := by unfold State.bothStill; rw [hmoving, hmoving]
  have hflow : t.flowExpected p = s.flowExpected p := by
    unfold State.flowExpected Actuator.atLeast; rw [hbr, hposition, hposition]
  rw [hrun, branchWindow_br (by rw [hlen]; exact hp), hbr, hwindow, hstill, hflow, hpol]

/-- The work on the branches leaves the rest of the state as it was. -/
theorem windows_off (s : State) : (s.forEach Config.positions State.branchWindow).offBranches = s.offBranches :=
  forEach_leaves State.offBranches State.branchWindow (fun t p => (State.WorksOn.branchWindow p t).off) _ s

end Sys2Proof.Machine

/-! ## The fields of a branch after a window expiry (R94–R110) -/

namespace Sys2Proof.Machine

-- One after another: side by side the proofs of the whole text take more memory than a check may.
set_option Elab.async false

/-! ### What each stage writes -/

theorem followed_field {γ : Type} (f : Branch → γ) (b : Branch)
    (hf : ∀ x y z w, f { b with meterFault := x, imbalance := y, imbalanceRun := z, clearRun := w } = f b) :
    f b.followed = f b := by
  unfold Branch.followed; repeat' split
  · rfl
  · exact hf true false 0 0
  · exact hf false b.imbalance b.imbalanceRun b.clearRun

theorem settledOver_field {γ : Type} (f : Branch → γ) (still : Bool) (g : Timing) (b : Branch)
    (hf : ∀ x y, f { b with settleRun := x, settled := y } = f b) : f (b.settledOver still g) = f b := by
  unfold Branch.settledOver; split
  · exact hf _ _
  · exact hf _ _

theorem judgeImbalance_field {γ : Type} (f : Branch → γ) (threshold windows : Nat) (b : Branch)
    (hf : ∀ x y z, f { b with imbalance := x, imbalanceRun := y, clearRun := z } = f b) :
    f (b.judgeImbalance threshold windows) = f b := by
  unfold Branch.judgeImbalance
  dsimp only
  generalize (if b.excess threshold = true then 0 else b.clearRun + 1) = clear
  generalize (if b.excess threshold = true then b.imbalanceRun + 1 else 0) = run
  repeat' split
  · exact hf false 0 0
  · exact hf b.imbalance b.imbalanceRun clear
  · exact hf true 0 0
  · exact hf b.imbalance run b.clearRun

theorem balanced_field {γ : Type} (f : Branch → γ) (still : Bool) (g : Timing) (b : Branch)
    (hf : ∀ x y z, f { b with imbalance := x, imbalanceRun := y, clearRun := z } = f b) : f (b.balanced still g) = f b := by
  unfold Branch.balanced; repeat' split
  · exact hf false 0 0
  · exact judgeImbalance_field f _ _ b hf
  · rfl

/-! ### The meters of a branch (R108, R109) -/

/-- A branch after both its meters are judged. -/
def Branch.judged (flowing : Bool) (b : Branch) : Branch := (b.supplyJudged flowing).returnJudged flowing

theorem judged_field {γ : Type} (f : Branch → γ) (flowing : Bool) (b : Branch)
    (hf : ∀ (b : Branch) x y z w, f { b with meterFault := x, imbalance := y, imbalanceRun := z, clearRun := w } = f b)
    (hm : ∀ (b : Branch) x y, f { b with supplyMeter := x, returnMeter := y } = f b) : f (b.judged flowing) = f b := by
  have h1 : f (b.supplyJudged flowing) = f b :=
    (followed_field f _ (hf _)).trans (hm b (b.supplyMeter.judge flowing) b.returnMeter)
  refine Eq.trans ?_ h1
  exact (followed_field f _ (hf _)).trans
    (hm (b.supplyJudged flowing) (b.supplyJudged flowing).supplyMeter ((b.supplyJudged flowing).returnMeter.judge flowing))

theorem judged_meters (flowing : Bool) (b : Branch) : (b.judged flowing).supplyMeter = b.supplyMeter.judge flowing ∧
    (b.judged flowing).returnMeter = b.returnMeter.judge flowing := by
  have h1 : (b.supplyJudged flowing).supplyMeter = b.supplyMeter.judge flowing :=
    followed_field Branch.supplyMeter _ (fun _ _ _ _ => rfl)
  have h2 : (b.supplyJudged flowing).returnMeter = b.returnMeter := followed_field Branch.returnMeter _ (fun _ _ _ _ => rfl)
  refine ⟨Eq.trans ?_ h1, ?_⟩
  · exact followed_field Branch.supplyMeter _ (fun _ _ _ _ => rfl)
  · refine (followed_field Branch.returnMeter _ (fun _ _ _ _ => rfl)).trans ?_
    exact congrArg (Meter.judge · flowing) h2

theorem followed_meterFault (b : Branch) : b.followed.meterFault = b.meterMarked := by
  unfold Branch.followed
  by_cases hm : b.meterMarked = true
  · rw [if_pos hm, hm]
    split
    · assumption
    · rfl
  · rw [if_neg hm]
    exact ((Bool.not_eq_true _).mp hm).symm

theorem judged_meterFault (flowing : Bool) (b : Branch) : (b.judged flowing).meterFault = (b.judged flowing).meterMarked := by
  have h : (b.judged flowing).meterMarked =
      ({ b.supplyJudged flowing with returnMeter := (b.supplyJudged flowing).returnMeter.judge flowing } : Branch).meterMarked :=
    followed_field Branch.meterMarked _ (fun _ _ _ _ => rfl)
  exact (followed_meterFault _).trans h.symm

/-- A branch shows no imbalance, and counts no run of it. -/
def Branch.Even (b : Branch) : Prop := b.imbalance = false ∧ b.imbalanceRun = 0 ∧ b.clearRun = 0

/-- METER_FAULT that stands or enters leaves no imbalance (R109). -/
theorem followed_even {b : Branch} (h : b.meterFault = true → b.Even) (hf : b.followed.meterFault = true) : b.followed.Even := by
  have hm : b.meterMarked = true := (followed_meterFault b).symm.trans hf
  unfold Branch.followed at hf ⊢
  rw [if_pos hm] at hf ⊢
  by_cases hb : b.meterFault = true
  · rw [if_pos hb]; exact h hb
  · rw [if_neg hb]; exact ⟨rfl, rfl, rfl⟩

theorem judged_even {b : Branch} (h : b.meterFault = true → b.Even) (flowing : Bool)
    (hf : (b.judged flowing).meterFault = true) : (b.judged flowing).Even := by
  refine followed_even (b := { b.supplyJudged flowing with
    returnMeter := (b.supplyJudged flowing).returnMeter.judge flowing }) (fun e => ?_) hf
  exact followed_even (b := { b with supplyMeter := b.supplyMeter.judge flowing }) h e

/-- Without METER_FAULT the imbalance of a branch is as it was: no mark has been made on the way. -/
theorem judged_unfaulted {b : Branch} (h : b.MetersAgree) (flowing : Bool) (hf : (b.judged flowing).meterFault = false) :
    (b.judged flowing).imbalance = b.imbalance ∧ (b.judged flowing).imbalanceRun = b.imbalanceRun ∧
    (b.judged flowing).clearRun = b.clearRun := by
  have hkept {a : Branch} (ha : a.meterMarked = true → a.meterFault = true) : a.followed.imbalance = a.imbalance ∧
      a.followed.imbalanceRun = a.imbalanceRun ∧ a.followed.clearRun = a.clearRun := by
    unfold Branch.followed
    by_cases hm : a.meterMarked = true
    · rw [if_pos hm, if_pos (ha hm)]; exact ⟨rfl, rfl, rfl⟩
    · rw [if_neg hm]; exact ⟨rfl, rfl, rfl⟩
  have hmarked : (b.judged flowing).meterMarked = false := (judged_meterFault flowing b).symm.trans hf
  obtain ⟨m1, m2⟩ := judged_meters flowing b
  have hnone : (b.supplyMeter.judge flowing).marked = false ∧ (b.returnMeter.judge flowing).marked = false := by
    unfold Branch.meterMarked at hmarked
    rw [m1, m2, Bool.or_eq_false_iff] at hmarked
    exact hmarked
  have hfirst := hkept (a := { b with supplyMeter := b.supplyMeter.judge flowing }) (fun hm => by
    refine h.1.trans ?_
    unfold Branch.meterMarked at hm ⊢
    rw [hnone.1, Bool.false_or] at hm
    rw [show b.returnMeter.marked = true from hm, Bool.or_true])
  have hsecond := hkept (a := { b.supplyJudged flowing with
      returnMeter := (b.supplyJudged flowing).returnMeter.judge flowing }) (fun hm => by
    have e : ({ b.supplyJudged flowing with
        returnMeter := (b.supplyJudged flowing).returnMeter.judge flowing } : Branch).meterMarked = false := by
      rw [← followed_meterFault]; exact hf
    exact absurd (e.symm.trans hm) Bool.false_ne_true)
  exact ⟨hsecond.1.trans hfirst.1, hsecond.2.1.trans hfirst.2.1, hsecond.2.2.trans hfirst.2.2⟩

/-! ### The branch as the next window begins -/

section

variable (w : Nat) (flowing still : Bool) (g : Timing) (b : Branch)

theorem windowed_eq : b.windowed w flowing still g =
    ((((b.measured w).judged flowing).settledOver still g).balanced still g).begunWindow := rfl

/-- A field that no stage but the first writes. -/
theorem windowed_field {γ : Type} (f : Branch → γ)
    (h1 : ∀ (b : Branch) x y z w, f { b with meterFault := x, imbalance := y, imbalanceRun := z, clearRun := w } = f b)
    (h2 : ∀ (b : Branch) x y, f { b with supplyMeter := x, returnMeter := y } = f b)
    (h3 : ∀ (b : Branch) x y, f { b with settleRun := x, settled := y } = f b)
    (h4 : ∀ (b : Branch) x, f { b with driveChanged := x } = f b) : f (b.windowed w flowing still g) = f (b.measured w) := by
  have hbegun (a : Branch) : f a.begunWindow = f a := (h2 { a with driveChanged := false } _ _).trans (h4 a false)
  rw [windowed_eq, hbegun, balanced_field f still g _ (fun x y z => h1 _ _ x y z), settledOver_field f still g _ (h3 _),
    judged_field f flowing _ h1 h2]

/-- The meters after the expiry: judged, and their counts begin anew (R94, R108). -/
theorem windowed_meters : (b.windowed w flowing still g).supplyMeter = { b.supplyMeter.judge flowing with pulses := 0 } ∧
    (b.windowed w flowing still g).returnMeter = { b.returnMeter.judge flowing with pulses := 0 } := by
  obtain ⟨m1, m2⟩ := judged_meters flowing (b.measured w)
  rw [windowed_eq]
  refine ⟨congrArg (fun m : Meter => { m with pulses := 0 }) (Eq.trans ?_ m1),
    congrArg (fun m : Meter => { m with pulses := 0 }) (Eq.trans ?_ m2)⟩
  · rw [balanced_field Branch.supplyMeter still g _ (fun _ _ _ => rfl),
      settledOver_field Branch.supplyMeter still g _ (fun _ _ => rfl)]
  · rw [balanced_field Branch.returnMeter still g _ (fun _ _ _ => rfl),
      settledOver_field Branch.returnMeter still g _ (fun _ _ => rfl)]

theorem windowed_meterFault : (b.windowed w flowing still g).meterFault = ((b.measured w).judged flowing).meterFault := by
  rw [windowed_eq]
  show (Branch.balanced _ _ _).meterFault = _
  rw [balanced_field Branch.meterFault still g _ (fun _ _ _ => rfl),
    settledOver_field Branch.meterFault still g _ (fun _ _ => rfl)]

/-- METER_FAULT stands just while a meter is marked (R108). -/
theorem windowed_marked : (b.windowed w flowing still g).meterFault = true ↔
    (b.windowed w flowing still g).supplyMeter.marked = true ∨ (b.windowed w flowing still g).returnMeter.marked = true := by
  obtain ⟨m1, m2⟩ := windowed_meters w flowing still g b
  obtain ⟨j1, j2⟩ := judged_meters flowing (b.measured w)
  rw [windowed_meterFault, judged_meterFault, m1, m2]
  unfold Branch.meterMarked
  rw [j1, j2, Bool.or_eq_true]
  exact Iff.rfl

/-- The settle run after the expiry (R97). -/
theorem windowed_settle : (b.windowed w flowing still g).driveChanged = false ∧
    (b.windowed w flowing still g).settleRun = ((b.measured w).settledOver still g).settleRun ∧
    (b.windowed w flowing still g).settled = ((b.measured w).settledOver still g).settled := by
  have hin (a : Branch) (hd : a.driveChanged = (b.measured w).driveChanged)
      (ht : a.inTolerance g.settleTolerance = (b.measured w).inTolerance g.settleTolerance)
      (hr : a.settleRun = (b.measured w).settleRun) (hs : a.settled = (b.measured w).settled) :
      (a.settledOver still g).settleRun = ((b.measured w).settledOver still g).settleRun ∧
      (a.settledOver still g).settled = ((b.measured w).settledOver still g).settled := by
    unfold Branch.settledOver
    rw [hd, ht]
    split
    · dsimp only; rw [hr, hs]; exact ⟨rfl, rfl⟩
    · exact ⟨rfl, rfl⟩
  have hj := hin ((b.measured w).judged flowing)
    (judged_field Branch.driveChanged flowing _ (fun _ _ _ _ _ => rfl) (fun _ _ _ => rfl))
    (judged_field (fun b => b.inTolerance g.settleTolerance) flowing _ (fun _ _ _ _ _ => rfl) (fun _ _ _ => rfl))
    (judged_field Branch.settleRun flowing _ (fun _ _ _ _ _ => rfl) (fun _ _ _ => rfl))
    (judged_field Branch.settled flowing _ (fun _ _ _ _ _ => rfl) (fun _ _ _ => rfl))
  rw [windowed_eq]
  refine ⟨rfl, Eq.trans ?_ hj.1, Eq.trans ?_ hj.2⟩
  · exact balanced_field Branch.settleRun still g _ (fun _ _ _ => rfl)
  · exact balanced_field Branch.settled still g _ (fun _ _ _ => rfl)

end

/-! ### The imbalance of a branch (R109, R110) -/

section

variable {w : Nat} {flowing still : Bool} {g : Timing} {b : Branch}

theorem settledOver_drive (a : Branch) : (a.settledOver still g).drive = a.drive :=
  settledOver_field Branch.drive still g a (fun _ _ => rfl)

theorem judged_drive : ((b.measured w).judged flowing).drive = b.drive :=
  judged_field Branch.drive flowing _ (fun _ _ _ _ _ => rfl) (fun _ _ _ => rfl)

/-- METER_FAULT or no drive: no imbalance (R109, R110). -/
theorem windowed_even (h : b.meterFault = true → b.Even)
    (hd : (b.windowed w flowing still g).meterFault = true ∨ b.drive = 0) : (b.windowed w flowing still g).Even := by
  have hclear : ((((b.measured w).judged flowing).settledOver still g).balanced still g).Even := by
    unfold Branch.balanced
    rw [settledOver_drive, judged_drive]
    by_cases h0 : b.drive = 0
    · rw [if_pos h0]; exact ⟨rfl, rfl, rfl⟩
    · have hfault := hd.resolve_right h0
      rw [windowed_meterFault] at hfault
      have hmarked : ((((b.measured w).judged flowing).settledOver still g)).meterMarked = true := by
        rw [settledOver_field Branch.meterMarked still g _ (fun _ _ => rfl), ← judged_meterFault]; exact hfault
      rw [if_neg h0, hmarked, if_neg (by simp)]
      obtain ⟨e1, e2, e3⟩ := judged_even (b := b.measured w) h flowing hfault
      exact ⟨(settledOver_field Branch.imbalance still g _ (fun _ _ => rfl)).trans e1,
        (settledOver_field Branch.imbalanceRun still g _ (fun _ _ => rfl)).trans e2,
        (settledOver_field Branch.clearRun still g _ (fun _ _ => rfl)).trans e3⟩
  rw [windowed_eq]
  exact hclear

/-- A window that does not qualify leaves the imbalance as it was (R110). -/
theorem windowed_unqualified (h : b.MetersAgree) (hf : (b.windowed w flowing still g).meterFault = false) (hd : 0 < b.drive)
    (hq : b.drive < 50 ∨ still = false) : (b.windowed w flowing still g).imbalance = b.imbalance ∧
    (b.windowed w flowing still g).imbalanceRun = b.imbalanceRun ∧ (b.windowed w flowing still g).clearRun = b.clearRun := by
  rw [windowed_meterFault] at hf
  obtain ⟨e1, e2, e3⟩ := judged_unfaulted (b := b.measured w) h flowing hf
  have hsame : (((b.measured w).judged flowing).settledOver still g).balanced still g =
      ((b.measured w).judged flowing).settledOver still g := by
    unfold Branch.balanced
    rw [settledOver_drive, judged_drive, if_neg (Nat.ne_of_gt hd)]
    refine if_neg ?_
    rcases hq with hq | hq
    · rw [decide_eq_false (Nat.not_le.2 hq), Bool.and_false, Bool.false_and]; exact Bool.false_ne_true
    · rw [hq, Bool.and_false]; exact Bool.false_ne_true
  rw [windowed_eq, hsame]
  exact ⟨(settledOver_field Branch.imbalance still g _ (fun _ _ => rfl)).trans e1,
    (settledOver_field Branch.imbalanceRun still g _ (fun _ _ => rfl)).trans e2,
    (settledOver_field Branch.clearRun still g _ (fun _ _ => rfl)).trans e3⟩

/-- A window that qualifies is judged on the flows just measured (R110). -/
theorem windowed_qualified (h : b.MetersAgree) (hf : (b.windowed w flowing still g).meterFault = false) (hd : 50 ≤ b.drive)
    (hs : still = true) : ∃ a : Branch, a.imbalance = b.imbalance ∧ a.imbalanceRun = b.imbalanceRun ∧ a.clearRun = b.clearRun ∧
      a.measuredSupply = (b.measured w).measuredSupply ∧ a.measuredReturn = (b.measured w).measuredReturn ∧
      (b.windowed w flowing still g).imbalance = (a.judgeImbalance g.imbalanceThreshold g.imbalanceWindows).imbalance ∧
      (b.windowed w flowing still g).imbalanceRun = (a.judgeImbalance g.imbalanceThreshold g.imbalanceWindows).imbalanceRun ∧
      (b.windowed w flowing still g).clearRun = (a.judgeImbalance g.imbalanceThreshold g.imbalanceWindows).clearRun := by
  rw [windowed_meterFault] at hf
  obtain ⟨e1, e2, e3⟩ := judged_unfaulted (b := b.measured w) h flowing hf
  have hsame : (((b.measured w).judged flowing).settledOver still g).balanced still g =
      (((b.measured w).judged flowing).settledOver still g).judgeImbalance g.imbalanceThreshold g.imbalanceWindows := by
    have hmarked : ((((b.measured w).judged flowing).settledOver still g)).meterMarked = false := by
      rw [settledOver_field Branch.meterMarked still g _ (fun _ _ => rfl), ← judged_meterFault]; exact hf
    unfold Branch.balanced
    rw [settledOver_drive, judged_drive, if_neg (Nat.ne_of_gt (Nat.lt_of_lt_of_le (by decide) hd)), hmarked,
      decide_eq_true hd]
    exact if_pos (by rw [hs]; rfl)
  refine ⟨((b.measured w).judged flowing).settledOver still g,
    (settledOver_field Branch.imbalance still g _ (fun _ _ => rfl)).trans e1,
    (settledOver_field Branch.imbalanceRun still g _ (fun _ _ => rfl)).trans e2,
    (settledOver_field Branch.clearRun still g _ (fun _ _ => rfl)).trans e3, ?_, ?_, ?_⟩
  · refine (settledOver_field Branch.measuredSupply still g _ (fun _ _ => rfl)).trans ?_
    exact judged_field Branch.measuredSupply flowing _ (fun _ _ _ _ _ => rfl) (fun _ _ _ => rfl)
  · refine (settledOver_field Branch.measuredReturn still g _ (fun _ _ => rfl)).trans ?_
    exact judged_field Branch.measuredReturn flowing _ (fun _ _ _ _ _ => rfl) (fun _ _ _ => rfl)
  · rw [windowed_eq, hsame]; exact ⟨rfl, rfl, rfl⟩

end

end Sys2Proof.Machine

/-! ## What becomes of a settling within an event (R97): it stands, or a change of drive has taken it -/

namespace Sys2Proof.Machine

-- One after another: side by side the proofs of the whole text take more memory than a check may.
set_option Elab.async false

/-- The settling of a branch, and whether its drive has changed. -/
def Branch.settling (b : Branch) : Nat × Bool × Bool := (b.settleRun, b.settled, b.driveChanged)

theorem settling_undrawn (b : Branch) : b.undrawn.settling = b.settling := rfl

/-- The settling of a branch is that of `c`, or gone with a change of its drive (R97). -/
def Branch.Lapsed (c b : Branch) : Prop :=
  (b.driveChanged = true → b.settleRun = 0 ∧ b.settled = false) ∧
  (b.driveChanged = false → b.settleRun = c.settleRun ∧ b.settled = c.settled)

theorem lapsed_of_settling {c b d : Branch} (h : c.Lapsed b) (e : d.settling = b.settling) : c.Lapsed d := by
  obtain ⟨e1, e2⟩ := Prod.mk.inj e
  obtain ⟨e2, e3⟩ := Prod.mk.inj e2
  unfold Branch.Lapsed
  rw [e1, e2, e3]; exact h

/-- From `b` to `s` every settling stands or is gone with a change of drive. -/
def State.Lapses (b s : State) : Prop := ∀ q, (b.br q).Lapsed (s.br q)

namespace State.Lapses

variable {b s t : State}

theorem refl (h : ∀ q, (s.br q).driveChanged = false) : Lapses s s :=
  fun q => ⟨fun e => absurd ((h q).symm.trans e) Bool.false_ne_true, fun _ => ⟨rfl, rfl⟩⟩

/-! ### What writes no settling -/

theorem same (h : Lapses b s) (k : ∀ q, (t.br q).settling = (s.br q).settling) : Lapses b t :=
  fun q => lapsed_of_settling (h q) (k q)

theorem table (h : Lapses b s) (e : t.branches = s.branches) : Lapses b t :=
  h.same (fun q => congrArg Branch.settling (br_congr e q))

theorem view {γ : Type} {g : Branch → γ} (h : Lapses b s) (k : State.Same g s t) (v : γ → Nat × Bool × Bool)
    (e : ∀ x, x.settling = v (g x)) : Lapses b t :=
  h.same (fun q => (k.view v e).br q)

theorem each {α : Type} {f : State → α → State} (l : List α) (h : Lapses b s) (hf : ∀ s a, Lapses b s → Lapses b (f s a)) :
    Lapses b (s.forEach l f) := forEach_keeps _ f hf l s h

theorem modBr (p : Position) (f : Branch → Branch) (h : Lapses b s) (hf : ∀ x, (f x).settling = x.settling) :
    Lapses b (s.modBr p f) :=
  fun q => modBr_keeps (b.br q).Lapsed (h q) (fun _ => lapsed_of_settling (h q) (hf _))

theorem busOnly (h : Lapses b s) (k : s.BusOnly t) : Lapses b t := h.table k.branches
theorem placeIso (a : ActuatorNo) (n : Nat) (c : Client) (h : Lapses b s) : Lapses b (s.placeIso a n c) :=
  h.busOnly (placeIso_busOnly s a n c)
theorem placeFlow (a : ActuatorNo) (n : Nat) (h : Lapses b s) : Lapses b (s.placeFlow a n) := h.busOnly (placeFlow_busOnly s a n)
theorem grantLine (h : Lapses b s) : Lapses b s.grantLine := h.busOnly (grantLine_busOnly s)

theorem placeSvc (a : ActuatorNo) (n : Nat) (c : Client) (h : Lapses b s) : Lapses b (s.placeSvc a n c) := by
  unfold State.placeSvc; split
  · exact h.busOnly (report_busOnly s c a _)
  · exact h.busOnly (State.BusOnly.trans ⟨_, rfl⟩ (grantLine_busOnly _))

theorem notify (n : Notice) (h : Lapses b s) : Lapses b (s.notify n) := h.table rfl
theorem askPass (l : List Position) (h : Lapses b s) : Lapses b (s.askPass l) := h.table rfl

theorem askDrawPass (h : Lapses b s) : Lapses b s.askDrawPass := by
  unfold State.askDrawPass; split
  · exact h
  · exact h.askPass []

theorem clearDraw (p : Position) (h : Lapses b s) : Lapses b (s.clearDraw p) :=
  h.modBr p (fun b => { b with draw := 0 }) (fun _ => rfl)

theorem complete (k : LongKind) (st : Status) (x : CompletionBody) (h : Lapses b s) : Lapses b (s.complete k st x) :=
  h.table (complete_branches s k st x)

theorem endService (st : Status) (x : CompletionBody) (h : Lapses b s) : Lapses b (s.endService st x) :=
  h.table (endService_branches s st x)

theorem endVerify (p : Position) (st : VerifyStatus) (v : Bool) (h : Lapses b s) : Lapses b (s.endVerify p st v) :=
  (h.clearDraw p).table (endVerify_branches s p st v)

theorem markFault (p : Position) (m : FaultMember) (v : Option MeterSide) (h : Lapses b s) : Lapses b (s.markFault p m v) := by
  unfold State.markFault; repeat' split
  · exact h
  · exact (h.modBr p (fun b => { b with valveFault := true }) (fun _ => rfl)).notify _
  · exact h
  · exact (h.modBr p (fun b => { b with meterFault := true }) (fun _ => rfl)).notify _
  · exact h
  · exact (h.modBr p (fun b => { b with returnOpen := true }) (fun _ => rfl)).notify _

/-! ### Changes of drive (R97, R100) -/

theorem actOnDrive (p : Position) (h : Lapses b s) : Lapses b (s.actOnDrive p) := by
  have rest : Lapses b (s.modBr p (fun b => { b with controlTarget := some 0 })) := h.modBr p _ (fun _ => rfl)
  have curve : Lapses b (s.followCurve p) :=
    (h.modBr p (fun b => { b with controlTarget := some ((s.br p).curveTarget (s.br p).drive) }) (fun _ => rfl)).table
      (followCurve_branches s p)
  unfold State.actOnDrive; split
  · exact curve.table (returnRule_branches _ p)
  · exact rest
  · exact rest
  · exact rest
  · exact rest
  · exact h

/-- A drive handed over takes the settling with it (R97). -/
theorem handOver (p : Position) (h : Lapses b s) : Lapses b (s.handOver p) := by
  unfold State.handOver; dsimp only
  refine actOnDrive p ?_
  have hlapsed : Lapses b (s.modBr p (fun b => { b with driveChanged := true, settleRun := 0, settled := false })) :=
    fun q => modBr_keeps (b.br q).Lapsed (h q) (fun _ => ⟨fun _ => ⟨rfl, rfl⟩, fun e => absurd e (by simp)⟩)
  have hmod : (s.modBr p (fun b => { b with driveChanged := true })).modBr p (fun b => { b with settleRun := 0, settled := false }) =
      s.modBr p (fun b => { b with driveChanged := true, settleRun := 0, settled := false }) := modBr_modBr s p _ _
  unfold State.unsettle; dsimp only
  rw [hmod]
  split
  · exact hlapsed.notify _
  · exact hlapsed

theorem setDrive (p : Position) (d : Nat) (h : Lapses b s) : Lapses b (s.setDrive p d) := by
  unfold State.setDrive; split
  · exact h
  · exact (h.modBr p (fun b => { b with drive := d }) (fun _ => rfl)).handOver p

theorem rises (ps : List Position) (h : Lapses b s) : Lapses b (s.rises ps) := by
  have round (v : Branch → Nat) (l : List Position) : ∀ x : State × Int, Lapses b x.1 → Lapses b (l.foldl (riseStep v) x).1 := by
    induction l with
    | nil => exact fun _ hx => hx
    | cons p l ih =>
      intro x hx
      refine ih _ ?_
      unfold riseStep; dsimp only; split
      · exact hx.setDrive _ _
      · exact hx
  unfold State.rises; split
  · exact h
  · exact round _ _ _ (round _ _ _ h)

theorem setRiseWaiting (h : Lapses b s) : Lapses b s.setRiseWaiting :=
  h.each _ (fun _ p h => h.modBr p (fun b => { b with riseWaiting := b.state = .active && b.drive < b.grant }) (fun _ => rfl))

theorem reexamine (h : Lapses b s) : Lapses b s.reexamine := (h.rises _).setRiseWaiting

theorem compareDrive (p : Position) (h : Lapses b s) : Lapses b (s.compareDrive p) := by
  unfold State.compareDrive; dsimp only; repeat' split
  · exact h
  · refine h.modBr p _ ?_; exact fun _ => rfl
  · exact h.setDrive p _
  · exact h
  · exact h
  · refine h.modBr p _ ?_; exact fun _ => rfl
  · exact h.modBr p (fun b => { b with cut := none }) (fun _ => rfl)

/-- An allocation pass (R31). -/
theorem pass (l : List Position) (as : List AlertCause) (h : Lapses b s) : Lapses b (s.pass l as) := by
  have hfit : Lapses b s.fitDraws := h.same (fun q =>
    (settling_undrawn _).symm.trans ((congrArg Branch.settling (fitDraws_undrawn s q)).trans (settling_undrawn _)))
  have hgrant : Lapses b s.granted := hfit.view (granted_ungranted s) Branch.settling (fun _ => rfl)
  have hrisen : Lapses b s.risen := by
    unfold State.risen
    exact ((hgrant.each _ (fun _ p h => h.compareDrive p)).rises _).setRiseWaiting
  exact hrisen.same (fun q => congrArg Branch.settling (pass_br s l as q))

end State.Lapses

end Sys2Proof.Machine

/-! ## Settlings through the sequencer, the clients of the bus and localization (R97): they stand or a change of drive takes them -/

namespace Sys2Proof.Machine

-- One after another: side by side the proofs of the whole text take more memory than a check may.
set_option Elab.async false

theorem reserve_branches (s : State) (i : JobId) (a : ActuatorNo) : (s.reserve i a).branches = s.branches :=
  forEach_leaves State.branches (fun (s : State) (c : Claim) => s.report c.client a .refusedReserved)
    (fun s c => (report_busOnly s c.client a _).branches) _ _

theorem endClosing_branches (s : State) (p : Position) : (s.endClosing p).branches = s.branches := by
  unfold State.endClosing; repeat' split
  all_goals rfl

theorem warnTargets_branches (s : State) (i : JobId) (ps : List Position) : (s.warnTargets i ps).branches = s.branches :=
  warnTargets_leaves State.branches (fun _ _ => rfl) s i ps

namespace State.Lapses

variable {b s t : State}

theorem holdIfChanged (x : State) (h : Lapses b s) : Lapses b (s.holdIfChanged x) :=
  h.table (holdIfChanged_leaves State.branches (fun _ _ => rfl) s x)

/-- What is in a state under a condition. -/
theorem ite {c : Prop} [Decidable c] (h : Lapses b s) (k : Lapses b s → Lapses b t) : Lapses b (if c then t else s) := by
  split
  · exact k h
  · exact h

/-! ### Phases (R151–R160) -/

theorem modJob (i : JobId) (f : Job → Job) (h : Lapses b s) : Lapses b (s.modJob i f) := h.table rfl
theorem setPhase (i : JobId) (ph : Phase) (d : Option Time) (h : Lapses b s) : Lapses b (s.setPhase i ph d) := h.table rfl

theorem checkReturns (i : JobId) (h : Lapses b s) : Lapses b (s.checkReturns i) := by
  unfold State.checkReturns; repeat' split
  · exact h
  · exact h.setPhase i _ none
  · exact h

theorem enterCloseReturn (i : JobId) (h : Lapses b s) : Lapses b (s.enterCloseReturn i) := by
  have h1 := (h.setPhase i .closeReturn none).modJob i (fun j => { j with
    targets := j.targets.map (fun t => { t with ret := t.ret.retried })
    trunk := j.trunk.map (fun k => { k with ret := k.ret.retried }) })
  unfold State.enterCloseReturn; dsimp only; split
  · exact h1
  · refine (each _ ?_ (fun _ _ h => h.placeIso _ _ _)).checkReturns i
    split
    · exact h1.placeIso _ _ _
    · exact h1

theorem enterDrain (i : JobId) (h : Lapses b s) : Lapses b (s.enterDrain i) := by
  unfold State.enterDrain; dsimp only; split
  · exact (h.setPhase i _ _).enterCloseReturn i
  · exact h.setPhase i _ _

theorem tellUncontained (i : JobId) (v : Bool) (h : Lapses b s) : Lapses b (s.tellUncontained i v) := by
  unfold State.tellUncontained; split
  · exact h
  · exact h.notify _

theorem enterUncontained (i : JobId) (h : Lapses b s) : Lapses b (s.enterUncontained i) :=
  (h.setPhase i _ _).tellUncontained i false

theorem foundContained (i : JobId) (h : Lapses b s) : Lapses b (s.foundContained i) :=
  ((h.modJob i (fun j => { j with deadline := none })).tellUncontained i true).enterDrain i

theorem checkSupply (i : JobId) (h : Lapses b s) : Lapses b (s.checkSupply i) := by
  unfold State.checkSupply; repeat' split
  · exact h
  · exact h.enterDrain i
  · exact h.enterUncontained i
  · exact h

theorem latchTargets (l : List Target) (h : Lapses b s) : Lapses b (s.latchTargets l) :=
  h.each l (fun _ x h => h.modBr x.pos (fun b => { b with latched := true, maint := false }) (fun _ => rfl))

theorem latch (j : Job) (h : Lapses b s) : Lapses b (s.latch j) := by
  unfold State.latch; dsimp only; split
  · exact (h.latchTargets _).table rfl
  · exact h.latchTargets _

theorem enterCloseSupply (i : JobId) (h : Lapses b s) : Lapses b (s.enterCloseSupply i) := by
  unfold State.enterCloseSupply; dsimp only; split
  · exact h
  · rename_i j _
    have h1 := ((h.latch j).setPhase i .closeSupply none).holdIfChanged s
    refine (each _ ?_ (fun _ _ h => h.placeIso _ _ _)).checkSupply i
    split
    · exact h1.placeIso _ _ _
    · exact h1

theorem endNotify (i : JobId) (h : Lapses b s) : Lapses b (s.endNotify i) := by
  unfold State.endNotify; dsimp only
  have h1 := h.modJob i (fun j => { j with
    targets := j.targets.map (fun t => if t.warning = .opened then { t with warning := .expired } else t) })
  split
  · exact h1
  · rename_i j _
    split
    · rw [enterSimulate_eq]
      refine (h1.each _ (fun s t h => h.table ?_)).setPhase _ _ _
      unfold State.noteSilent; split <;> rfl
    · exact h1.enterCloseSupply i

theorem checkNotify (i : JobId) (h : Lapses b s) : Lapses b (s.checkNotify i) := by
  unfold State.checkNotify; repeat' split
  · exact h
  · exact h.endNotify i
  · exact h

theorem retakeTrunk (i : JobId) (h : Lapses b s) : Lapses b (s.retakeTrunk i) := by
  unfold State.retakeTrunk; repeat' split
  · exact h
  · exact (h.modJob i _).table (reserveTrunk_branches _ i)
  · exact h.modJob i _
  · exact h

theorem latchArrivals (j : Job) (h : Lapses b s) : Lapses b (s.latchArrivals j) :=
  holdIfChanged s ((h.latchTargets _).table rfl)

theorem rackPhase (i : JobId) (h : Lapses b s) : Lapses b (s.rackPhase i) := by
  unfold State.rackPhase; dsimp only; split
  · exact h
  · have h1 := h.retakeTrunk i
    split
    · exact h1
    · split
      · split
        · exact (h1.latchArrivals _).placeIso _ _ _
        · exact h1.latchArrivals _
      · exact h1.enterCloseSupply i

theorem enterHold (i : JobId) (h : Lapses b s) : Lapses b (s.enterHold i) := by
  have h1 : Lapses b ((s.setPhase i .hold none).modJob i (fun j => { j with quarantine := 0 })) :=
    (h.setPhase i .hold none).modJob i _
  unfold State.enterHold; dsimp only; split
  · exact h1
  · refine table ?_ (afterPass_branches _ _)
    exact (h1.each _ (fun _ t h => (h.modBr t.pos (fun b => if b.state = .isolating then { b with state := .isolated } else b)
      (fun x => by split <;> rfl)).setDrive t.pos 0)).askPass []

theorem confirmJob (j : Job) (h : Lapses b s) : Lapses b (s.confirmJob j) := by
  unfold State.confirmJob; split
  · exact h
  · split
    · exact (h.modJob j.id _).enterHold j.id
    · exact h.modJob j.id _

/-! ### The drill, and joining (R148, R166, R167) -/

theorem takeFromDrill (p : Position) (h : Lapses b s) : Lapses b (s.takeFromDrill p) := by
  unfold State.takeFromDrill; dsimp only; repeat' split
  all_goals exact h.table rfl

theorem cancelTrim (p : Position) (c : TrimAbort) (h : Lapses b s) : Lapses b (s.cancelTrim p c) := by
  unfold State.cancelTrim; split
  · exact (h.modBr p (fun b => { b with
      trim := none, controlTarget := if c = .leftActive then some 0 else b.controlTarget }) (fun _ => rfl)).complete _ _ _
  · exact h

theorem clearArbiterFields (p : Position) (h : Lapses b s) : Lapses b (s.clearArbiterFields p) :=
  (h.modBr p (fun b => { b with
    request := 0, urgent := false, stamp := none, riseWaiting := false, cut := none }) (fun _ => rfl)).cancelTrim p _

theorem join (i : JobId) (p : Position) (h : Lapses b s) : Lapses b (s.join i p) := by
  refine table ?_ (join_branches s i p)
  unfold State.leaveForJob; dsimp only
  have h1 := (h.takeFromDrill p).ite (c := (s.takeFromDrill p).verifyOn p = true) (fun h => h.endVerify p (.aborted .isolation) false)
  refine modBr p _ ?_ ?_
  · refine ite (clearDraw p (table ?_ (endClosing_branches _ p))) (fun h => h.clearArbiterFields p)
    exact h1.ite (fun h => h.endService .aborted (.aborted (.service .joined)))
  · exact fun _ => rfl

theorem joinAll (i : JobId) (ps : List Position) (h : Lapses b s) : Lapses b (s.joinAll i ps) :=
  table ((((h.each ps (fun _ p h => h.join i p)).table (warnTargets_branches _ i ps))).askPass _) (afterPass_branches _ _)

theorem createReal (slot : Nat) (l : JobLevel) (o : Origin) (e : List Evidence) (ps : List Position) (h : Lapses b s) :
    Lapses b (s.createReal slot l o e ps) := by
  unfold State.createReal; dsimp only
  refine joinAll _ ps ?_
  split
  · exact h.table (reserveTrunk_branches _ _)
  · exact h.table rfl

theorem escalate (j : Job) (h : Lapses b s) : Lapses b (s.escalate j) := by
  unfold State.escalate; dsimp only
  exact joinAll _ _ (h.table (reserveTrunk_branches _ _))

theorem transfer (j r : Job) (h : Lapses b s) : Lapses b (s.transfer j r) := by
  refine askPass [] (rackPhase _ (modJob _ _ (table ?_ (passTargets_branches _ j r.id))))
  exact each _ (h.table rfl) (fun _ t h => h.modBr t.pos (fun b => { b with job := r.id }) (fun _ => rfl))

/-! ### Reports of closes (R152) -/

theorem afterSupply (i : JobId) (h : Lapses b s) : Lapses b (s.afterSupply i) := by
  unfold State.afterSupply; repeat' split
  · exact h
  · exact h.foundContained i
  · exact h.checkSupply i

theorem afterFailure (i : JobId) (h : Lapses b s) : Lapses b (s.afterFailure i) := by
  unfold State.afterFailure; repeat' split
  · exact h
  · exact h.checkSupply i
  · exact h
  · exact h.enterUncontained i

theorem closeOk (j : Job) (x : Side) (h : Lapses b s) : Lapses b (s.closeOk j x) := by
  have h1 := each (j.stopped x) (h.modJob j.id (fun j => j.setClose x .ok)) (f := fun s p => s.setDrive p 0)
    (fun _ _ h => h.setDrive _ _)
  unfold State.closeOk; dsimp only; split
  · exact h1.reexamine.afterSupply _
  · exact h1.checkReturns _

theorem closeFailed (j : Job) (x : Side) (f : FaultCode) (h : Lapses b s) : Lapses b (s.closeFailed j x f) := by
  have h1 := h.modJob j.id (fun j => j.setClose x (.failed f))
  unfold State.closeFailed; dsimp only; split
  · split
    · exact h1.afterFailure j.id
    · split
      · exact h1.escalate _
      · exact h1.transfer _ _
      · exact h1
  · exact h1.afterFailure j.id
  · exact (h1.markFault _ _ _).checkReturns j.id
  · exact h1.checkReturns j.id

theorem closeAgain (j : Job) (x : Side) (a : ActuatorNo) (h : Lapses b s) : Lapses b (s.closeAgain j x a) :=
  (h.modJob j.id _).placeIso _ _ _

theorem lateReport (a : ActuatorNo) (k : ReportKind) (h : Lapses b s) : Lapses b (s.lateReport a k) := by
  unfold State.lateReport; split
  · exact h.markFault _ _ _
  · exact h

theorem isoReport (i : JobId) (a : ActuatorNo) (r : ReportKind) (h : Lapses b s) : Lapses b (s.isoReport i a r) := by
  unfold State.isoReport; split
  · exact h.lateReport a r
  · split
    · split
      · exact h.closeOk _ _
      · exact h.closeFailed _ _ _
      · exact h.closeAgain _ _ _
      · exact h.closeAgain _ _ _
      all_goals exact h
    · exact h.lateReport a r

/-! ### Intake (R144, R145, R165) -/

theorem mergeInto (i : JobId) (l : List Evidence) (h : Lapses b s) : Lapses b (s.mergeInto i l) := h.modJob i _

theorem rackAgain (r : Job) (e : List Evidence) (h : Lapses b s) : Lapses b (s.rackAgain r e) := by
  have h1 := h.mergeInto r.id e
  unfold State.rackAgain; dsimp only; split
  · split
    · exact h1.rackPhase r.id
    · exact h1
  · exact (setPhase r.id _ _ (h1.ite (fun h => h.retakeTrunk r.id))).joinAll _ _

theorem takeRack (o : Origin) (e : List Evidence) (h : Lapses b s) : Lapses b (s.takeRack o e) := by
  unfold State.takeRack; split
  · exact h.rackAgain _ _
  · exact h.createReal _ _ _ _ _

theorem endDrill (h : Lapses b s) : Lapses b s.endDrill := by
  unfold State.endDrill; split
  · exact h
  · exact h.each _ (fun _ _ h => h.takeFromDrill _)

theorem takeReal (r : IsoRequest) (h : Lapses b s) : Lapses b (s.takeReal r) := by
  have h1 : ∀ l : List Job, Lapses b (s.forEach l (fun s j => s.mergeInto j.id r.evidence)) :=
    fun l => h.each l (fun _ j h => h.mergeInto j.id _)
  have h2 : ∀ (l : List Position) (t : State), Lapses b t → Lapses b (t.forEach l State.takeFromDrill) :=
    fun l t ht => ht.each l (fun _ p h => h.takeFromDrill p)
  unfold State.takeReal; dsimp only; split
  · exact h1 _
  · split
    · exact ((h2 _ _ (h1 _)).ite (fun h => h.endDrill)).createReal _ _ _ _ _
    · exact ((h2 _ _ (h1 _)).ite (fun h => h.endDrill)).takeRack _ _

theorem takeDrill (r : IsoRequest) (h : Lapses b s) : Lapses b (s.takeDrill r) := by
  have hc (slot : Nat) (ps : List Position) : Lapses b (s.createDrill slot r ps) := by
    rw [createDrill_eq]
    exact checkNotify _ (h.table (warnTargets_branches _ _ ps))
  unfold State.takeDrill; dsimp only
  generalize (if r.level = JobLevel.rack then s.newcomers else _) = ps
  repeat' split
  · exact h
  · exact h
  · exact hc _ _

theorem takeRequest (r : IsoRequest) (h : Lapses b s) : Lapses b (s.takeRequest r) := by
  unfold State.takeRequest; repeat' split
  · exact h.takeDrill r
  · exact h.takeRack _ _
  · exact h.takeReal r

end State.Lapses

end Sys2Proof.Machine

/-! ## Settlings through localization, the clients of the bus and the end of an event (R97): they stand or a change of drive
takes them -/

namespace Sys2Proof.Machine

-- One after another: side by side the proofs of the whole text take more memory than a check may.
set_option Elab.async false

theorem enqueue_branches (s : State) (e : OutEntry) (is : List Nat) : (s.enqueue e is).branches = s.branches := by
  unfold State.enqueue; split
  · rfl
  · unfold State.countFor
    refine forEach_leaves State.branches _ ?_ _ _
    exact fun _ _ => rfl

theorem hand_branches (s : State) (x : HeldNotice) : (s.hand x).branches = s.branches := by
  unfold State.hand; split
  · rfl
  · exact enqueue_branches _ _ _

theorem transmit_branches (s : State) : s.transmit.branches = s.branches := by
  unfold State.transmit; repeat' split
  all_goals rfl

namespace State.Lapses

variable {b s t : State}

/-! ### Localization (R131–R141) -/

theorem setCase (k : Nat) (c : Option Case) (h : Lapses b s) : Lapses b (s.setCase k c) := h.table rfl

theorem caseNotice (ev : CaseEvent) (src : CaseSource) (d : Bool) (e : List Evidence) (t : Option Time)
    (r : Option IsoRequest) (h : Lapses b s) : Lapses b (s.caseNotice ev src d e t r) := h.notify _

theorem handRequest (src : CaseSource) (r : IsoRequest) (h : Lapses b s) : Lapses b (s.handRequest src r) := by
  unfold State.handRequest; split
  · exact h.caseNotice _ _ _ _ _ _
  · exact h.takeRequest r

theorem makeRequest (ev : CaseEvent) (src : CaseSource) (r : IsoRequest) (h : Lapses b s) :
    Lapses b (s.makeRequest ev src r) := (h.caseNotice _ _ _ _ _ _).handRequest src r

theorem addToCase (k : Nat) (e : Evidence) (h : Lapses b s) : Lapses b (s.addToCase k e) := by
  unfold State.addToCase; split
  · exact h
  · exact h.setCase _ _

theorem fineOnset (p : Position) (e : Evidence) (o : Origin) (h : Lapses b s) : Lapses b (s.fineOnset p e o) := by
  rw [fineOnset_eq]; split
  · split
    · exact h.makeRequest _ _ _
    · exact h.each _ (fun _ _ h => h.addToCase _ _)
  · exact (h.each _ (fun _ _ h => (h.setCase _ _).caseNotice _ _ _ _ _ _)).handRequest _ _

theorem imbalanceEvent (x : ImbalanceEvent) (h : Lapses b s) : Lapses b (s.imbalanceEvent x) := by
  unfold State.imbalanceEvent; split
  · exact h.fineOnset _ _ _
  · exact h

/-! ### The curve verify (R89–R91) -/

theorem judgeStop (p : Position) (n : Nat) (h : Lapses b s) : Lapses b (s.judgeStop p n) := by
  unfold State.judgeStop; dsimp only; split
  · exact askDrawPass (endVerify _ _ _ (h.table rfl))
  · split
    · exact askDrawPass (endVerify _ _ _ (h.table rfl))
    · exact placeSvc _ _ _ (h.table rfl)

theorem verifyWindow (h : Lapses b s) : Lapses b s.verifyWindow := by
  unfold State.verifyWindow; repeat' split
  · exact h.table rfl
  · exact h.judgeStop _ _
  · exact h
  · exact h

theorem verifyMove (x : VerifyStep) (h : Lapses b s) : Lapses b (s.verifyMove x) := by
  unfold State.verifyMove; dsimp only; split
  · exact h.table rfl
  · exact placeSvc _ _ _ (h.table rfl)

theorem verifyReport (r : ReportKind) (h : Lapses b s) : Lapses b (s.verifyReport r) := by
  have hfault (p : Position) (f : FaultCode) : Lapses b (s.verifyFault p f) := (h.endVerify p (.fault f) true).askDrawPass
  unfold State.verifyReport; repeat' split
  · exact h
  · exact h.verifyMove _
  · exact h.verifyMove _
  · exact h
  · exact h
  · exact hfault _ _
  · exact h.verifyMove _
  · exact hfault _ _
  · exact hfault _ _
  · exact h
  · exact h
  · exact h

theorem closingReport (a : ActuatorNo) (k : ReportKind) (h : Lapses b s) : Lapses b (s.closingReport a k) := by
  unfold State.closingReport; repeat' split
  · exact h
  · exact h.table rfl
  · exact placeSvc _ _ _ (h.table rfl)
  · exact placeSvc _ _ _ h
  · exact h.table rfl
  · exact h

/-! ### The other clients of the bus (R72, R87, R104, R163) -/

theorem flowReport (a : ActuatorNo) (k : ReportKind) (h : Lapses b s) : Lapses b (s.flowReport a k) := by
  unfold State.flowReport; repeat' split
  · exact h
  · exact h
  · exact h.markFault _ _ _
  · exact h
  · exact h.placeFlow _ _
  · exact h
  · exact h
  · exact h
  · exact (h.markFault _ _ _).placeFlow _ _
  · exact h.markFault _ _ _
  · exact h.markFault _ _ _

theorem openingReport (a : ActuatorNo) (k : ReportKind) (h : Lapses b s) : Lapses b (s.openingReport a k) := by
  unfold State.openingReport; repeat' split
  · exact h.placeIso _ _ _
  · exact h
  · exact h

theorem serviceReport (a : ActuatorNo) (r : ReportKind) (h : Lapses b s) : Lapses b (s.serviceReport a r) := by
  have h1 := h.endService (s.serviceResult a r).1 (s.serviceResult a r).2
  unfold State.serviceReport; split
  · exact h
  · split
    · dsimp only; split
      · exact h1
      · exact h1.ite (fun h => (h.clearDraw _).askDrawPass)
    · exact h

/-! ### The end of an event (R31, R72, R181) -/

theorem deliverOne (r : Report) (h : Lapses b s) : Lapses b (s.deliverOne r) := by
  unfold State.deliverOne; split
  · exact h
  · exact h.flowReport _ _
  · exact h.isoReport _ _ _
  · exact h.openingReport _ _
  · exact h.serviceReport _ _
  · exact h.verifyReport _
  · exact h.closingReport _ _

theorem deliverSome : ∀ (n : Nat) {s : State}, Lapses b s → Lapses b (s.deliverSome n)
  | 0, _, h => h.table rfl
  | n + 1, s, h => by
    unfold State.deliverSome; split
    · exact h
    · rename_i r l _
      have h1 : Lapses b { s with bus.reports := l } := h.table rfl
      exact deliverSome n (h1.deliverOne r)

theorem follow (x : AfterPass) (h : Lapses b s) : Lapses b (s.follow x) := by
  unfold State.follow; split
  · exact h.notify _
  · exact h.checkNotify _

theorem runPass (h : Lapses b s) : Lapses b s.runPass := by
  have h1 := ite (c := s.work.due = true) (t := (State.pass { s with work.due := false, work.left := [] } s.work.left []).arbiterSpeaksLast)
    h (fun h => (pass s.work.left [] (s := { s with work.due := false, work.left := [] }) (h.table rfl)).table
      (arbiterSpeaksLast_branches _))
  unfold State.runPass; dsimp only
  generalize (if s.work.due = true then _ else s) = t at h1 ⊢
  exact each _ (h1.table rfl) (fun _ x h => h.follow x)

theorem settle (h : Lapses b s) : Lapses b s.settle := deliverSome _ (runPass (deliverSome _ h))

theorem finish (h : Lapses b s) : Lapses b s.finish := by
  have h1 := h.settle.grantLine.settle
  unfold State.finish
  generalize s.settle.grantLine.settle = t at h1 ⊢
  exact (h1.table (t := t.flush) (forEach_leaves State.branches State.hand hand_branches t.work.held t)).table
    (transmit_branches _)

end State.Lapses

end Sys2Proof.Machine

/-! ## The judgements of a window expiry on one branch, in numbers (R95, R97, R108, R110) -/

namespace Sys2Proof.Machine

-- One after another: side by side the proofs of the whole text take more memory than a check may.
set_option Elab.async false

/-! ### Flows (R95) -/

theorem flowOf_eq {pulses k w : Nat} (h : 0 < k * w) : flowOf pulses k w = min 600 (pulses * 600000 / (k * w)) := by
  have hq : floorQuot ((pulses : Int) * 600000) ((k : Int) * w) = ((pulses * 600000 / (k * w) : Nat) : Int) := by
    unfold floorQuot
    have hkw : ¬ (k : Int) * w = 0 := by
      rw [← Int.natCast_mul]
      exact fun e => Nat.ne_of_gt h (Int.ofNat.inj e)
    rw [if_neg hkw]; rfl
  unfold flowOf clampNat
  rw [hq]
  generalize pulses * 600000 / (k * w) = n
  omega

/-! ### A meter (R108) -/

section

variable (m : Meter) (e : Bool)

theorem judge_unmarked_live (hm : m.marked = false) (h : e = false ∨ 0 < m.pulses) :
    (m.judge e).marked = false ∧ (m.judge e).silentRun = 0 := by
  have hc : ¬ (e && m.pulses = 0) = true := by
    rcases h with h | h
    · rw [h]; exact Bool.false_ne_true
    · rw [decide_eq_false (Nat.ne_of_gt h), Bool.and_false]; exact Bool.false_ne_true
  unfold Meter.judge
  rw [if_neg (by rw [hm]; exact Bool.false_ne_true), if_neg hc]
  exact ⟨hm, rfl⟩

theorem judge_unmarked_silent (hm : m.marked = false) (he : e = true) (h : m.pulses = 0) :
    (m.silentRun < 4 → (m.judge e).marked = false ∧ (m.judge e).silentRun = m.silentRun + 1) ∧
    (4 ≤ m.silentRun → (m.judge e).marked = true ∧ (m.judge e).silentRun = 0 ∧ (m.judge e).liveRun = 0) := by
  have hc : (e && decide (m.pulses = 0)) = true := by rw [he, decide_eq_true h]; rfl
  unfold Meter.judge
  rw [if_neg (by rw [hm]; exact Bool.false_ne_true), if_pos hc]
  refine ⟨fun hr => ?_, fun hr => ?_⟩
  · dsimp only
    rw [if_neg (by omega)]; exact ⟨hm, rfl⟩
  · dsimp only
    rw [if_pos (by omega)]; exact ⟨rfl, rfl, rfl⟩

theorem judge_marked_silent (hm : m.marked = true) (h : m.pulses = 0) :
    (m.judge e).marked = true ∧ (m.judge e).liveRun = 0 := by
  have hc : ¬ 0 < m.pulses := by omega
  unfold Meter.judge
  rw [if_pos hm, if_neg hc]
  exact ⟨hm, rfl⟩

theorem judge_marked_live (hm : m.marked = true) (h : 0 < m.pulses) :
    (m.liveRun = 0 → (m.judge e).marked = true ∧ (m.judge e).liveRun = 1) ∧
    (1 ≤ m.liveRun → (m.judge e).marked = false ∧ (m.judge e).silentRun = 0 ∧ (m.judge e).liveRun = 0) := by
  unfold Meter.judge
  rw [if_pos hm, if_pos h]
  refine ⟨fun hr => ?_, fun hr => ?_⟩
  · dsimp only
    rw [if_neg (by omega)]; exact ⟨hm, congrArg (· + 1) hr⟩
  · dsimp only
    rw [if_pos (by omega)]; exact ⟨rfl, rfl, rfl⟩

end

/-! ### Settling (R97) -/

/-- A flow in tolerance, both ways around (R97). -/
theorem inTolerance_iff (b : Branch) (t : Nat) : b.inTolerance t = true ↔
    (b.drive = 0 → b.measuredSupply ≤ 2) ∧
    (b.drive ≠ 0 → b.measuredSupply ≤ b.drive + t * b.drive / 100 ∧ b.drive ≤ b.measuredSupply + t * b.drive / 100) := by
  unfold Branch.inTolerance gap
  generalize t * b.drive / 100 = d
  by_cases h : b.drive = 0
  · rw [if_pos h, decide_eq_true_iff]
    exact ⟨fun k => ⟨fun _ => k, fun k => absurd h k⟩, fun k => k.1 h⟩
  · rw [if_neg h, decide_eq_true_iff]
    refine ⟨fun k => ⟨fun e => absurd e h, fun _ => ⟨?_, ?_⟩⟩, fun k => ?_⟩
    · omega
    · omega
    · obtain ⟨k1, k2⟩ := k.2 h; omega

/-- A window in tolerance with nothing moving counts for the settle run (R97). -/
theorem settledOver_calm {still : Bool} {g : Timing} {b : Branch} (hd : b.driveChanged = false) (hs : still = true)
    (ht : b.inTolerance g.settleTolerance = true) :
    (b.settledOver still g).settleRun = (if b.settleRun < g.settleCount then b.settleRun + 1 else b.settleRun) ∧
    (b.settledOver still g).settled = (b.settled || decide (g.settleCount ≤ b.settleRun + 1)) := by
  unfold Branch.settledOver
  rw [hd, hs, ht, if_pos (by decide)]
  refine ⟨rfl, ?_⟩
  show (b.settled || (!b.settled && _)) = _
  cases b.settled <;> rfl

/-- Any other window ends it (R97). -/
theorem settledOver_uncalm {still : Bool} {g : Timing} {b : Branch}
    (h : ¬ (b.driveChanged = false ∧ still = true ∧ b.inTolerance g.settleTolerance = true)) :
    (b.settledOver still g).settleRun = 0 ∧ (b.settledOver still g).settled = false := by
  unfold Branch.settledOver
  rw [if_neg]
  · exact ⟨rfl, rfl⟩
  · intro e
    rw [Bool.and_eq_true, Bool.and_eq_true, Bool.not_eq_true'] at e
    exact h ⟨e.1.1, e.1.2, e.2⟩

/-! ### Imbalance (R110) -/

section

variable (b : Branch) (threshold windows : Nat)

theorem judgeImbalance_clear (hi : b.imbalance = false) (he : ¬ b.measuredReturn + threshold < b.measuredSupply) :
    (b.judgeImbalance threshold windows).imbalance = false ∧ (b.judgeImbalance threshold windows).imbalanceRun = 0 := by
  have hx : ¬ b.excess threshold = true := fun e => he (of_decide_eq_true e)
  unfold Branch.judgeImbalance
  rw [if_neg (by rw [hi]; exact Bool.false_ne_true), if_neg hx]
  exact ⟨hi, rfl⟩

theorem judgeImbalance_rising (hi : b.imbalance = false) (he : b.measuredReturn + threshold < b.measuredSupply) :
    (b.imbalanceRun + 1 < windows → (b.judgeImbalance threshold windows).imbalance = false ∧
      (b.judgeImbalance threshold windows).imbalanceRun = b.imbalanceRun + 1) ∧
    (windows ≤ b.imbalanceRun + 1 → (b.judgeImbalance threshold windows).imbalance = true ∧
      (b.judgeImbalance threshold windows).imbalanceRun = 0 ∧ (b.judgeImbalance threshold windows).clearRun = 0) := by
  have hx : b.excess threshold = true := decide_eq_true he
  unfold Branch.judgeImbalance
  rw [if_neg (by rw [hi]; exact Bool.false_ne_true), if_pos hx]
  refine ⟨fun hr => ?_, fun hr => ?_⟩
  · dsimp only
    rw [decide_eq_false (Nat.not_le.2 hr), Bool.and_false, if_neg Bool.false_ne_true]; exact ⟨hi, rfl⟩
  · dsimp only
    rw [decide_eq_true hr, decide_eq_true (Nat.succ_pos _)]; exact ⟨rfl, rfl, rfl⟩

theorem judgeImbalance_falling (hi : b.imbalance = true) (he : ¬ b.measuredReturn + threshold < b.measuredSupply) :
    (b.clearRun + 1 < windows → (b.judgeImbalance threshold windows).imbalance = true ∧
      (b.judgeImbalance threshold windows).clearRun = b.clearRun + 1) ∧
    (windows ≤ b.clearRun + 1 → (b.judgeImbalance threshold windows).imbalance = false ∧
      (b.judgeImbalance threshold windows).imbalanceRun = 0 ∧ (b.judgeImbalance threshold windows).clearRun = 0) := by
  have hx : ¬ b.excess threshold = true := fun e => he (of_decide_eq_true e)
  unfold Branch.judgeImbalance
  rw [if_pos hi, if_neg hx]
  refine ⟨fun hr => ?_, fun hr => ?_⟩
  · dsimp only
    rw [if_neg (Nat.not_le.2 hr)]; exact ⟨hi, rfl⟩
  · dsimp only
    rw [if_pos hr]; exact ⟨rfl, rfl, rfl⟩

theorem judgeImbalance_standing (hi : b.imbalance = true) (he : b.measuredReturn + threshold < b.measuredSupply)
    (hw : 0 < windows) :
    (b.judgeImbalance threshold windows).imbalance = true ∧ (b.judgeImbalance threshold windows).clearRun = 0 := by
  have hx : b.excess threshold = true := decide_eq_true he
  unfold Branch.judgeImbalance
  rw [if_pos hi, if_pos hx]
  dsimp only
  rw [if_neg (Nat.not_le.2 hw)]; exact ⟨hi, rfl⟩

end

end Sys2Proof.Machine

/-! ## A window expiry as a whole (R94, R96, R184) -/

namespace Sys2Proof.Machine

-- One after another: side by side the proofs of the whole text take more memory than a check may.
set_option Elab.async false

/-! ### What follows the work on the branches -/

namespace State.Shows

variable {α : Type} {f : State → α} {b s : State} (hf : State.Apart f)

include hf

/-- A write to the record of the verify is no business of the view. -/
theorem verify (v : Verify) (h : Shows f b s) : Shows f b { s with bus.verify := v } :=
  h.other (hf.frozen (s := s) (t := { s with bus.verify := v }) rfl)

theorem judgeStop (p : Position) (k : Nat) (h : Shows f b s) : Shows f b (s.judgeStop p k) := by
  have ended (t : State) (ht : Shows f b t) (st : VerifyStatus) (v : Bool) : Shows f b (t.endVerify p st v).askDrawPass :=
    ht.onward hf (fun h => (h.endVerify p st v).askDrawPass)
  unfold State.judgeStop; dsimp only; split
  · exact ended _ (verify hf _ (h.verify hf _)) _ _
  · split
    · exact ended _ (h.verify hf _) _ _
    · exact onward hf (verify hf _ (h.verify hf _)) (fun h => h.placeSvc _ _ _)

theorem verifyWindow (h : Shows f b s) : Shows f b s.verifyWindow := by
  unfold State.verifyWindow; repeat' split
  · exact h.verify hf _
  · exact h.judgeStop hf _ _
  · exact h
  · exact h

theorem confirmJob (j : Job) (h : Shows f b s) : Shows f b (s.confirmJob j) := by
  unfold State.confirmJob; split
  · exact h
  · split
    · exact h.onward hf (fun h => (h.modJob _ _).enterHold _)
    · exact h.onward hf (fun h => h.modJob _ _)

end State.Shows

/-- A state without what localization and the work of jobs may write. -/
def State.uncased (s : State) : State := { s.frozen with cases := [] }

theorem uncased_apart : State.Apart State.uncased :=
  ⟨fun h => congrArg (fun s : State => { s with cases := [] }) h, fun _ _ _ => rfl⟩

/-- The work on the branches of a window that ends (R96). -/
def State.afterBranches (s : State) : State := s.advanceCounter.forEach Config.positions State.branchWindow

theorem told_branches (s : State) : s.sendTelemetry.nextWindow.branches = s.branches := rfl

/-- No drive counts as changed in the window that begins (R97). -/
theorem afterBranches_unchanged {s : State} (hb : s.branches.length = 24) (q : Position) :
    (s.afterBranches.br q).driveChanged = false := by
  have hlen : s.afterBranches.branches.length = 24 :=
    (forEach_leaves (fun s : State => s.branches.length) State.branchWindow
      (fun t p => (State.WorksOn.branchWindow p t).length) _ _).trans hb
  by_cases hq : q < 24
  · exact (field_of_view (g := Branch.untrimmed) Branch.driveChanged (windows_br (s := s.advanceCounter) hb hq)
      (fun _ => rfl)).trans (windowed_settle _ _ _ _ _).1
  · rw [br_eq_reset (by rw [hlen]; exact Nat.le_of_not_lt hq)]; rfl

/-- What follows the work on the branches leaves flows, meters and imbalances alone, and settlings but for changes of
drive (R96, R97). -/
theorem windowExpiry_rest {s w : State} (h : State.Good true s) (hb : s.branches.length = 24)
    (hw : w = s.afterBranches.sendTelemetry.nextWindow) {t : State} (ht : t = s.windowExpiry.finish) :
    t.uncased = w.uncased ∧ w.Lapses t := by
  have hd (q : Position) : (w.br q).driveChanged = false := by
    rw [hw, br_congr (told_branches _) q]; exact afterBranches_unchanged hb q
  have hsound : w.Sound true false := by
    have h0 : State.Good true s.advanceCounter := by
      refine h.other rfl rfl rfl rfl rfl rfl rfl ?_ rfl rfl (h.sound.of_same rfl rfl)
      have := h.shape.counter
      show (if s.window.counter = 255 then 0 else s.window.counter + 1) ≤ 255
      split <;> omega
    rw [hw]
    exact (State.Good.nextWindow (State.Good.sendTelemetry (State.Good.each Config.positions h0
      (fun _ p h => State.Good.branchWindow p h)))).sound
  obtain ⟨es, hrun⟩ : ∃ es : List ImbalanceEvent, s.windowExpiry =
      ((w.forEach es State.imbalanceEvent).verifyWindow).forEach
        ((w.forEach es State.imbalanceEvent).verifyWindow.jobs.filter (fun j => j.phase = .confirm)) State.confirmJob := by
    rw [hw]; exact ⟨_, rfl⟩
  rw [ht, hrun]
  clear hrun ht hw
  refine ⟨State.Shows.finish uncased_apart ?_, State.Lapses.finish ?_⟩
  · refine State.Shows.each _ (State.Shows.verifyWindow uncased_apart (State.Shows.each _ (.refl _ hsound)
      (fun _ _ h => h.imbalanceEvent uncased_apart _))) (fun _ _ h => h.confirmJob uncased_apart _)
  · exact State.Lapses.each _ (State.Lapses.verifyWindow (State.Lapses.each _ (.refl hd) (fun _ _ h => h.imbalanceEvent _)))
      (fun _ _ h => h.confirmJob _)

/-! ### The fields that stand at the end of the event -/

/-- A branch record without what a pass, the work of a job, TRACK or a trim may write. -/
def Branch.gauged (b : Branch) : Branch := b.still.freeze.untrimmed

/-- States that agree but for localization and the work of jobs agree in the flows and meters of every branch. -/
theorem gauged_of_uncased {s t : State} (h : t.uncased = s.uncased) (p : Position) : (t.br p).gauged = (s.br p).gauged := by
  have m (u : State) : u.uncased.branches = u.branches.map (fun b => b.still.freeze) := List.map_map
  have hb : t.branches.map (fun b => b.still.freeze) = s.branches.map (fun b => b.still.freeze) := by
    rw [← m, ← m, h]
  exact congrArg Branch.untrimmed (br_view (fun b => b.still.freeze) hb p)

/-- They agree in the requesters but for the number each is at. -/
theorem requester_of_uncased {s t : State} (h : t.uncased = s.uncased) (k : Nat) :
    (t.requester k).map Requester.still = (s.requester k).map Requester.still := by
  have read (u : State) : (u.requester k).map Requester.still = u.uncased.link.requesters.getD k none :=
    (getD_map_apply u.link.requesters none (Option.map Requester.still)).symm
  rw [read, read, h]

/-! ### The state at the end of the event, branch by branch -/

/-- At the end of the event a branch is as the expiry made it, but for a drive that the event has changed (R96, R97). -/
theorem windowExpiry_branch {s : State} (h : State.Good true s) (hb : s.branches.length = 24) {t : State}
    (ht : t = s.windowExpiry.finish) {p : Position} (hp : p < 24) {c : Branch}
    (hc : c = (s.br p).windowed s.window.length (s.flowExpected p) (s.bothStill p) s.pol.active.timing) :
    (t.br p).gauged = c.gauged ∧ c.Lapsed (t.br p) := by
  have hbr : (s.afterBranches.br p).untrimmed =
      ((s.br p).windowed s.window.length (s.flowExpected p) (s.bothStill p) s.pol.active.timing).untrimmed :=
    windows_br (s := s.advanceCounter) hb hp
  have hbase (q : Position) : (s.afterBranches.sendTelemetry.nextWindow).br q = s.afterBranches.br q :=
    br_congr (told_branches _) q
  obtain ⟨h1, h2⟩ := windowExpiry_rest h hb rfl ht
  have hu := hbr.trans (congrArg Branch.untrimmed hc.symm)
  have h3 := h2 p
  rw [hbase p] at h3
  refine ⟨(gauged_of_uncased h1 p).trans ?_, ?_⟩
  · have e (b : Branch) : b.untrimmed.gauged = b.gauged := rfl
    rw [hbase p, ← e c, ← hu, e]
  · have hset : (s.afterBranches.br p).settling = c.settling :=
      field_of_view (g := Branch.untrimmed) Branch.settling hu (fun _ => rfl)
    obtain ⟨e1, e2⟩ := Prod.mk.inj hset
    obtain ⟨e2, -⟩ := Prod.mk.inj e2
    unfold Branch.Lapsed at h3 ⊢
    rw [← e1, ← e2]; exact h3

end Sys2Proof.Machine

/-! ## What a window expiry measures and judges (R94–R110, R184) -/

namespace Sys2Proof.Machine

-- One after another: side by side the proofs of the whole text take more memory than a check may.
set_option Elab.async false

/-! ### The conditions of an expiry, read from the shadows -/

theorem atLeast_iff (x : Actuator) (n : Nat) : x.atLeast n = true ↔ ∃ q, x.position = some q ∧ n ≤ q := by
  unfold Actuator.atLeast; split
  · rename_i h; rw [h]; simp
  · rename_i h; rw [h]; simp

theorem flowExpected_iff (s : State) (p : Position) : s.flowExpected p = true ↔
    0 < (s.br p).drive ∧ (∃ q, (s.act (supplyOf p)).position = some q ∧ 100 ≤ q) ∧
      ∃ q, (s.act (returnOf p)).position = some q ∧ 100 ≤ q := by
  unfold State.flowExpected
  rw [Bool.and_eq_true, Bool.and_eq_true, decide_eq_true_iff, atLeast_iff, atLeast_iff, and_assoc]

theorem bothStill_iff (s : State) (p : Position) : s.bothStill p = true ↔
    (s.act (supplyOf p)).moving = false ∧ (s.act (returnOf p)).moving = false := by
  unfold State.bothStill
  rw [Bool.and_eq_true, Bool.not_eq_true', Bool.not_eq_true']

/-! ### A branch at the end of the event -/

section

variable {w : Nat} {e still : Bool} {g : Timing} {b c d : Branch} (hc : c = b.windowed w e still g)
  (hd : d.gauged = c.gauged)

include hc hd

/-- A field that only the first stage of an expiry writes. -/
theorem gauged_field {γ : Type} (f : Branch → γ) (h0 : ∀ b : Branch, f b.gauged = f b)
    (h1 : ∀ (b : Branch) x y z w, f { b with meterFault := x, imbalance := y, imbalanceRun := z, clearRun := w } = f b)
    (h2 : ∀ (b : Branch) x y, f { b with supplyMeter := x, returnMeter := y } = f b)
    (h3 : ∀ (b : Branch) x y, f { b with settleRun := x, settled := y } = f b)
    (h4 : ∀ (b : Branch) x, f { b with driveChanged := x } = f b) : f d = f (b.measured w) :=
  (field_of_view f hd h0).trans (hc ▸ windowed_field w e still g b f h1 h2 h3 h4)

theorem gauged_supply : d.measuredSupply = (b.measured w).measuredSupply :=
  gauged_field hc hd Branch.measuredSupply (fun _ => rfl) (fun _ _ _ _ _ => rfl) (fun _ _ _ => rfl) (fun _ _ _ => rfl)
    (fun _ _ => rfl)

theorem gauged_return : d.measuredReturn = (b.measured w).measuredReturn :=
  gauged_field hc hd Branch.measuredReturn (fun _ => rfl) (fun _ _ _ _ _ => rfl) (fun _ _ _ => rfl) (fun _ _ _ => rfl)
    (fun _ _ => rfl)

/-- The flows of the window, and what no expiry writes (R95). -/
theorem gauged_flows :
    (0 < b.limits.kSupply * w → d.measuredSupply = min 600 (b.supplyMeter.pulses * 600000 / (b.limits.kSupply * w))) ∧
    (0 < b.limits.kReturn * w → d.measuredReturn = min 600 (b.returnMeter.pulses * 600000 / (b.limits.kReturn * w))) ∧
    d.limits = b.limits ∧ d.overdue = b.overdue ∧ d.boundTo = b.boundTo := by
  refine ⟨fun h => (gauged_supply hc hd).trans (flowOf_eq h), fun h => (gauged_return hc hd).trans (flowOf_eq h), ?_, ?_, ?_⟩
  · exact gauged_field hc hd Branch.limits (fun _ => rfl) (fun _ _ _ _ _ => rfl) (fun _ _ _ => rfl) (fun _ _ _ => rfl)
      (fun _ _ => rfl)
  · exact gauged_field hc hd Branch.overdue (fun _ => rfl) (fun _ _ _ _ _ => rfl) (fun _ _ _ => rfl) (fun _ _ _ => rfl)
      (fun _ _ => rfl)
  · exact gauged_field hc hd Branch.boundTo (fun _ => rfl) (fun _ _ _ _ _ => rfl) (fun _ _ _ => rfl) (fun _ _ _ => rfl)
      (fun _ _ => rfl)

omit hc hd in
/-- One meter: its mark and its runs (R94, R108). -/
theorem judged_meter {flowing : Prop} (hf : flowing ↔ e = true) {m n : Meter} (hn : n = { m.judge e with pulses := 0 }) :
    n.pulses = 0 ∧
    (m.marked = false → ¬ flowing ∨ 0 < m.pulses → n.marked = false ∧ n.silentRun = 0) ∧
    (m.marked = false → flowing → m.pulses = 0 →
      (m.silentRun < 4 → n.marked = false ∧ n.silentRun = m.silentRun + 1) ∧
      (4 ≤ m.silentRun → n.marked = true ∧ n.silentRun = 0 ∧ n.liveRun = 0)) ∧
    (m.marked = true → m.pulses = 0 → n.marked = true ∧ n.liveRun = 0) ∧
    (m.marked = true → 0 < m.pulses →
      (m.liveRun = 0 → n.marked = true ∧ n.liveRun = 1) ∧
      (1 ≤ m.liveRun → n.marked = false ∧ n.silentRun = 0 ∧ n.liveRun = 0)) := by
  rw [hn]
  refine ⟨rfl, fun hm h => judge_unmarked_live m e hm (h.imp_left (fun h => ?_)),
    fun hm h h0 => judge_unmarked_silent m e hm (hf.1 h) h0, fun hm h0 => judge_marked_silent m e hm h0,
    fun hm h0 => judge_marked_live m e hm h0⟩
  exact Bool.eq_false_iff.2 (fun k => h (hf.2 k))

theorem gauged_meters : d.supplyMeter = { b.supplyMeter.judge e with pulses := 0 } ∧
    d.returnMeter = { b.returnMeter.judge e with pulses := 0 } ∧ d.meterFault = c.meterFault ∧
    (d.meterFault = true ↔ d.supplyMeter.marked = true ∨ d.returnMeter.marked = true) := by
  obtain ⟨m1, m2⟩ := windowed_meters w e still g b
  have f1 : d.supplyMeter = c.supplyMeter := field_of_view Branch.supplyMeter hd (fun _ => rfl)
  have f2 : d.returnMeter = c.returnMeter := field_of_view Branch.returnMeter hd (fun _ => rfl)
  have f3 : d.meterFault = c.meterFault := field_of_view Branch.meterFault hd (fun _ => rfl)
  refine ⟨f1.trans (hc ▸ m1), f2.trans (hc ▸ m2), f3, ?_⟩
  rw [f1, f2, f3, hc]
  exact windowed_marked w e still g b

omit hc hd in
theorem settled_of_lapsed {x : Nat} {y : Bool} (hr : c.settleRun = x) (hs : c.settled = y) (hl : c.Lapsed d) :
    d.driveChanged = false → d.settleRun = x ∧ d.settled = y := fun h =>
  ⟨(hl.2 h).1.trans hr, (hl.2 h).2.trans hs⟩

/-- The settle run of a branch, unless the event has changed its drive (R97). -/
theorem gauged_settle (hl : c.Lapsed d) {calm : Prop} (hcalm : calm ↔ b.driveChanged = false ∧ still = true ∧
      (b.drive = 0 → d.measuredSupply ≤ 2) ∧
      (b.drive ≠ 0 → d.measuredSupply ≤ b.drive + g.settleTolerance * b.drive / 100 ∧
        b.drive ≤ d.measuredSupply + g.settleTolerance * b.drive / 100)) :
    (d.driveChanged = true ∨ ¬ calm → d.settleRun = 0 ∧ d.settled = false) ∧
    (d.driveChanged = false → calm →
      d.settleRun = (if b.settleRun < g.settleCount then b.settleRun + 1 else b.settleRun) ∧
      d.settled = (b.settled || decide (g.settleCount ≤ b.settleRun + 1))) := by
  obtain ⟨-, w2, w3⟩ := windowed_settle w e still g b
  rw [← hc] at w2 w3
  have hiff : calm ↔ (b.measured w).driveChanged = false ∧ still = true ∧
      (b.measured w).inTolerance g.settleTolerance = true := by
    rw [inTolerance_iff, ← gauged_supply hc hd]; exact hcalm
  refine ⟨fun h => ?_, fun h k => ?_⟩
  · cases hch : d.driveChanged with
    | true => exact hl.1 hch
    | false =>
      have hno : ¬ calm := h.resolve_left (by rw [hch]; exact Bool.false_ne_true)
      obtain ⟨u1, u2⟩ := settledOver_uncalm (fun k => hno (hiff.2 k))
      exact settled_of_lapsed (w2.trans u1) (w3.trans u2) hl hch
  · obtain ⟨k1, k2, k3⟩ := hiff.1 k
    obtain ⟨u1, u2⟩ := settledOver_calm k1 k2 k3
    exact settled_of_lapsed (w2.trans u1) (w3.trans u2) hl h

/-- The imbalance of a branch (R109, R110). -/
theorem gauged_imbalance (hb : b.MetersAgree) {exceeds : Prop}
    (he : exceeds ↔ d.measuredReturn + g.imbalanceThreshold < d.measuredSupply) :
    (d.meterFault = true ∨ b.drive = 0 → d.imbalance = false ∧ d.imbalanceRun = 0 ∧ d.clearRun = 0) ∧
    (d.meterFault = false → 0 < b.drive → b.drive < 50 ∨ still = false →
      d.imbalance = b.imbalance ∧ d.imbalanceRun = b.imbalanceRun ∧ d.clearRun = b.clearRun) ∧
    (d.meterFault = false → 50 ≤ b.drive → still = true →
      (b.imbalance = false → exceeds → b.imbalanceRun + 1 < g.imbalanceWindows →
        d.imbalance = false ∧ d.imbalanceRun = b.imbalanceRun + 1) ∧
      (b.imbalance = false → exceeds → g.imbalanceWindows ≤ b.imbalanceRun + 1 →
        d.imbalance = true ∧ d.imbalanceRun = 0 ∧ d.clearRun = 0) ∧
      (b.imbalance = false → ¬ exceeds → d.imbalance = false ∧ d.imbalanceRun = 0) ∧
      (b.imbalance = true → ¬ exceeds → b.clearRun + 1 < g.imbalanceWindows →
        d.imbalance = true ∧ d.clearRun = b.clearRun + 1) ∧
      (b.imbalance = true → ¬ exceeds → g.imbalanceWindows ≤ b.clearRun + 1 →
        d.imbalance = false ∧ d.imbalanceRun = 0 ∧ d.clearRun = 0) ∧
      (b.imbalance = true → exceeds → 0 < g.imbalanceWindows → d.imbalance = true ∧ d.clearRun = 0)) := by
  have hfault : d.meterFault = c.meterFault := field_of_view Branch.meterFault hd (fun _ => rfl)
  have f1 : d.imbalance = c.imbalance := field_of_view Branch.imbalance hd (fun _ => rfl)
  have f2 : d.imbalanceRun = c.imbalanceRun := field_of_view Branch.imbalanceRun hd (fun _ => rfl)
  have f3 : d.clearRun = c.clearRun := field_of_view Branch.clearRun hd (fun _ => rfl)
  rw [gauged_supply hc hd, gauged_return hc hd] at he
  rw [f1, f2, f3, hfault, hc]
  refine ⟨windowed_even hb.2, windowed_unqualified hb, fun hf h50 hs => ?_⟩
  obtain ⟨a, a1, a2, a3, a4, a5, a6, a7, a8⟩ := windowed_qualified (flowing := e) hb hf h50 hs
  rw [← a4, ← a5] at he
  rw [a6, a7, a8, ← a1, ← a2, ← a3]
  exact ⟨fun hi h => (judgeImbalance_rising a _ _ hi (he.1 h)).1, fun hi h => (judgeImbalance_rising a _ _ hi (he.1 h)).2,
    fun hi h => judgeImbalance_clear a _ _ hi (fun k => h (he.2 k)),
    fun hi h => (judgeImbalance_falling a _ _ hi (fun k => h (he.2 k))).1,
    fun hi h => (judgeImbalance_falling a _ _ hi (fun k => h (he.2 k))).2,
    fun hi h hw => judgeImbalance_standing a _ _ hi (he.1 h) hw⟩

end

/-! ### The rest of the state at the end of the event -/

/-- A requester whose telemetry mode has counted down (R184). -/
def Requester.countedDown (r : Requester) : Requester := { r with telemetry := r.telemetry.countDown }

theorem told_requester (s : State) (k : Nat) :
    s.sendTelemetry.nextWindow.requester k = (s.requester k).map Requester.countedDown :=
  getD_map_apply s.link.requesters none (Option.map Requester.countedDown)

theorem aside_of_uncased {s t : State} (h : t.uncased = s.uncased) :
    t.now = s.now ∧ t.window = s.window ∧ t.pol = s.pol ∧ t.sense = s.sense :=
  ⟨show t.uncased.now = s.uncased.now by rw [h], show t.uncased.window = s.uncased.window by rw [h],
    show t.uncased.pol = s.uncased.pol by rw [h], show t.uncased.sense = s.uncased.sense by rw [h]⟩

theorem aside_of_offBranches {s t : State} (h : t.offBranches = s.offBranches) :
    t.now = s.now ∧ t.window = s.window ∧ t.pol = s.pol ∧ t.sense = s.sense :=
  ⟨show t.offBranches.now = s.offBranches.now by rw [h], show t.offBranches.window = s.offBranches.window by rw [h],
    show t.offBranches.pol = s.offBranches.pol by rw [h], show t.offBranches.sense = s.offBranches.sense by rw [h]⟩

theorem requester_of_offBranches {s t : State} (h : t.offBranches = s.offBranches) (k : Nat) :
    (t.requester k).map Requester.still = (s.requester k).map Requester.still := by
  have read (v : State) : (v.requester k).map Requester.still = v.offBranches.link.requesters.getD k none :=
    (getD_map_apply v.link.requesters none (Option.map Requester.still)).symm
  rw [read, read, h]

/-- Time, window, policy and channels at the end of the event, and every requester but for its number (R94, R184). -/
theorem windowExpiry_aside {s : State} (h : State.Good true s) (hb : s.branches.length = 24) {t : State}
    (ht : t = s.windowExpiry.finish) :
    t.now = s.now ∧ t.window.counter = (if s.window.counter = 255 then 0 else s.window.counter + 1) ∧
    t.window.deadline = s.window.deadline + s.pol.active.timing.measurementWindow ∧
    t.window.length = s.pol.active.timing.measurementWindow ∧ t.pol = s.pol ∧ t.sense = s.sense ∧
    ∀ k, (t.requester k).map Requester.still = ((s.requester k).map Requester.countedDown).map Requester.still := by
  have hrest := (windowExpiry_rest h hb rfl ht).1
  have hoff : s.afterBranches.offBranches = s.advanceCounter.offBranches := windows_off s.advanceCounter
  generalize s.afterBranches = u at hrest hoff
  obtain ⟨u1, u2, u3, u4⟩ := aside_of_offBranches hoff
  obtain ⟨t1, t2, t3, t4⟩ := aside_of_uncased hrest
  have hreq (k : Nat) : (u.requester k).map Requester.still = (s.requester k).map Requester.still :=
    requester_of_offBranches hoff k
  refine ⟨t1.trans u1, ?_, ?_, ?_, t3.trans u3, t4.trans u4, fun k => ?_⟩
  · rw [t2]; exact congrArg Window.counter u2
  · rw [t2]
    show u.window.deadline + u.pol.active.timing.measurementWindow = _
    rw [u2, u3]; rfl
  · rw [t2]
    show u.pol.active.timing.measurementWindow = _
    rw [u3]; rfl
  · have hcomm (o : Option Requester) : (o.map Requester.countedDown).map Requester.still =
        (o.map Requester.still).map Requester.countedDown := by cases o <;> rfl
    rw [requester_of_uncased hrest k, told_requester, hcomm, hcomm, hreq]

/-- A requester after an expiry, with its telemetry mode counted down (R184). -/
theorem counted_requester {o p : Option Requester} (h : p.map Requester.still = (o.map Requester.countedDown).map Requester.still)
    {r : Requester} (hr : o = some r) : ∃ q, p = some q ∧
      q.addr = r.addr ∧ q.role = r.role ∧ q.branch = r.branch ∧ q.mask = r.mask ∧
      (r.telemetry = .off ∨ r.telemetry = .snapshot → q.telemetry = .off) ∧
      (r.telemetry = .stream → q.telemetry = .stream) ∧
      (∀ n, r.telemetry = .counted n → q.telemetry = (if n ≤ 1 then .off else .counted (n - 1))) := by
  rw [hr] at h
  obtain ⟨q, hq, hqr⟩ := Option.map_eq_some_iff.1 h
  have htel : q.telemetry = r.telemetry.countDown := show q.still.telemetry = _ by rw [hqr]; rfl
  refine ⟨q, hq, show q.still.addr = _ by rw [hqr]; rfl, show q.still.role = _ by rw [hqr]; rfl,
    show q.still.branch = _ by rw [hqr]; rfl, show q.still.mask = _ by rw [hqr]; rfl, fun e => ?_, fun e => ?_, fun n e => ?_⟩
  · rcases e with e | e <;> rw [htel, e] <;> rfl
  · rw [htel, e]; rfl
  · rw [htel, e]; rfl

/-- Settles O48: an expiry measures flows, judges meters, settlings and imbalances, and counts the telemetry down. -/
theorem windowExpiryMeasures : Obligations.WindowExpiryMeasures := by
  intro s ho hp
  have hb : s.branches.length = 24 := ho.sized.branches
  have hgood : State.Good true (s.advance s.window.deadline) :=
    (State.Kept.good (v := false) ⟨ho, nofun⟩).advance s.window.deadline
  have hrun : exec .measurementWindowExpiry s = .next (s.advance s.window.deadline).windowExpiry.finish :=
    event_powered hp (fun s => (s.advance s.window.deadline).windowExpiry.finish)
  refine ⟨_, hrun, ?_⟩
  clear hrun
  generalize ht : (s.advance s.window.deadline).windowExpiry.finish = t
  obtain ⟨h1, h2, h3, h4, h5, h6, h7⟩ := windowExpiry_aside hgood hb ht.symm
  have hbr (p : Position) (hp : p < 24) := windowExpiry_branch hgood hb ht.symm hp rfl
  have hmeters (p : Position) (hp : p < 24) : (s.br p).MetersAgree :=
    (ho.fit.branches _ (br_mem (Nat.lt_of_lt_of_eq hp hb.symm))).2.2
  refine ⟨h1, h2, h3, h4, fun p hp => gauged_flows rfl (hbr p hp).1, fun p flowing hp hf => ⟨fun m n hm => ?_, ?_⟩,
    fun p calm count hp hcount hcalm => ?_, fun p exceeds windows hp hw he => ?_, fun k r _ hr => counted_requester (h7 k) hr, h5, h6⟩
  · obtain ⟨m1, m2, -⟩ := gauged_meters rfl (hbr p hp).1
    refine judged_meter (hf.trans (flowExpected_iff s p).symm) ?_
    rcases hm with ⟨rfl, rfl⟩ | ⟨rfl, rfl⟩
    · exact m1
    · exact m2
  · exact (gauged_meters rfl (hbr p hp).1).2.2.2
  · rw [hcount]
    refine gauged_settle rfl (hbr p hp).1 (hbr p hp).2 (hcalm.trans ?_)
    rw [show (s.advance s.window.deadline).bothStill p = s.bothStill p from rfl, bothStill_iff, and_assoc]
    exact Iff.rfl
  · rw [hw]
    obtain ⟨i1, i2, i3⟩ := gauged_imbalance rfl (hbr p hp).1 (hmeters p hp) he
    refine ⟨i1, fun hf h0 h => i2 hf h0 (h.imp_right (fun h => ?_)), fun hf h50 hs hr => i3 hf h50 ((bothStill_iff s p).2 ⟨hs, hr⟩)⟩
    refine Bool.eq_false_iff.2 (fun k => ?_)
    obtain ⟨k1, k2⟩ := (bothStill_iff s p).1 k
    rcases h with h | h
    · rw [k1] at h; exact Bool.false_ne_true h
    · rw [k2] at h; exact Bool.false_ne_true h

end Sys2Proof.Machine

/-! ## An apply (R58): the policy is copied, and trims end where a curve changed -/

namespace Sys2Proof.Machine

-- One after another: side by side the proofs of the whole text take more memory than a check may.
set_option Elab.async false

/-! ### What no step of an apply writes after the copy -/

/-- The parts of a state beside the branches that no step of an apply writes once the policy is copied and the supply record
has aged. -/
def State.beside (s : State) : PolicyUnit × SupplyRecord × Sense × List (Option Case) × Sequencer × Store × List AfterPass :=
  (s.pol, s.arb.supply, s.sense, s.cases, s.iso, s.store, s.work.after)

theorem beside_of_still {s t : State} (h : t.still = s.still) : t.beside = s.beside :=
  show t.still.beside = s.still.beside by rw [h]

theorem beside_modBr (s : State) (p : Position) (f : Branch → Branch) : (s.modBr p f).beside = s.beside := rfl

theorem beside_takeStamp (s : State) (p : Position) : (s.takeStamp p).beside = s.beside := by
  have hgive (s : State) (p : Position) : (s.giveStamp p).beside = s.beside := rfl
  rcases Nat.lt_or_ge s.arb.nextStamp 4294967295 with h | h
  · rw [takeStamp_below h, hgive]
  · rw [takeStamp_end h, hgive, forEach_leaves State.beside State.giveStamp hgive]; rfl

/-! ### Steps 1 to 3: the copy (R58) -/

/-- The policy unit after the copy. -/
def State.copiedUnit (s : State) : PolicyUnit :=
  { s.pol with active := s.pol.staged, dirty := false, derived := s.pol.staged.derive (s.budgetUnder s.pol.staged) }

/-- A branch record with its guard and the effective ceiling under it (R9). -/
def Branch.guardedBy (g : Guard) (cap : Bool) (b : Branch) : Branch :=
  { b with guardLevel := g, effCeiling := ({ b with guardLevel := g } : Branch).ceilingUnder cap }

/-- The fields of a policy written into a branch record (R2, R58). -/
def Branch.relimited (new : Limits) (b : Branch) : Branch :=
  { b with limits := new, trimOffset := if b.limits.p0 ≠ new.p0 || b.limits.pfull ≠ new.pfull then 0 else b.trimOffset }

theorem copyLimits_eq (s : State) (p : Position) : s.copyLimits p = s.modBr p (Branch.relimited (s.policyOf p).limits) := rfl

theorem copyLimits_length (s : State) (p : Position) : (s.copyLimits p).branches.length = s.branches.length := by
  rw [copyLimits_eq]; exact modBr_branches_length s p _

/-- The copy as its three walks over the branches. -/
theorem copyPolicy_eq (s : State) : ∃ t w : State,
    t = State.forEach { s with pol.active := s.pol.staged, pol.dirty := false } Config.positions State.copyLimits ∧
    w = State.forEach { t with pol.derived := s.pol.staged.derive t.budget } Config.positions
      (fun s' p => s'.modBr p (fun b => { b with zone := zoneOf s.pol.staged.zones p })) ∧
    s.copyPolicy = w.deriveGuards Config.positions := ⟨_, _, rfl, rfl, rfl⟩

/-- What the copy leaves of the arbiter and of all that is neither policy nor branches. -/
theorem copyPolicy_leaves {α : Type} (f : State → α)
    (hf : ∀ (s : State) x y, f { s with branches := x, pol := y } = f s) (s : State) : f s.copyPolicy = f s := by
  obtain ⟨t, w, ht, hw, hrun⟩ := copyPolicy_eq s
  rw [hrun, deriveGuards_leaves f (fun s p g => hf s _ s.pol), hw]
  refine (forEach_leaves f (fun (s' : State) (p : Position) => s'.modBr p (fun b => { b with
    zone := zoneOf s.pol.staged.zones p })) (fun s' p => hf s' _ s'.pol) _ _).trans ((hf t t.branches _).trans ?_)
  rw [ht]
  exact (forEach_leaves f State.copyLimits (fun s' p => hf s' _ s'.pol) _ _).trans (hf s s.branches _)

/-- The policy unit after the copy (R58, R59). -/
theorem copyPolicy_pol (s : State) : s.copyPolicy.pol = s.copiedUnit := by
  obtain ⟨t, w, ht, hw, hrun⟩ := copyPolicy_eq s
  have hpol : t.pol = { s.pol with active := s.pol.staged, dirty := false } := by
    rw [ht]; exact forEach_leaves State.pol State.copyLimits (fun _ _ => rfl) _ _
  have harb : t.arb = s.arb := by
    rw [ht]; exact forEach_leaves State.arb State.copyLimits (fun _ _ => rfl) _ _
  have hbudget : t.budget = s.budgetUnder s.pol.staged := by
    unfold State.budget State.supplyInUse State.budgetUnder
    rw [hpol, harb] <;> rfl
  have hzones : w.pol = { t.pol with derived := s.pol.staged.derive t.budget } := by
    rw [hw]
    exact forEach_leaves State.pol (fun (s' : State) (p : Position) => s'.modBr p (fun b => { b with
      zone := zoneOf s.pol.staged.zones p })) (fun _ _ => rfl) _ _
  rw [hrun, deriveGuards_leaves State.pol (fun _ _ _ => rfl), hzones, hpol, hbudget]; rfl

theorem copyPolicy_length (s : State) : s.copyPolicy.branches.length = s.branches.length := by
  obtain ⟨t, w, ht, hw, hrun⟩ := copyPolicy_eq s
  have hlimits : t.branches.length = s.branches.length := by
    rw [ht]; exact forEach_leaves (fun s : State => s.branches.length) State.copyLimits copyLimits_length _ _
  have hzones : w.branches.length = t.branches.length := by
    rw [hw]
    exact forEach_leaves (fun s : State => s.branches.length) (fun (s' : State) (p : Position) => s'.modBr p (fun b => { b with
      zone := zoneOf s.pol.staged.zones p })) (fun s' p => modBr_branches_length s' p _) _ _
  rw [hrun, deriveGuards_leaves (fun s : State => s.branches.length) (fun s p g => modBr_branches_length s p g)]
  exact hzones.trans hlimits

/-- A branch after the copy (R2, R8, R9, R58). -/
theorem copyPolicy_br {s : State} (h : s.branches.length = 24) {p : Position} (hp : p < 24) : s.copyPolicy.br p =
    Branch.guardedBy (s.copyPolicy.guardOf p) s.pol.staged.supply.unguardedCap { (s.br p).relimited
      (s.pol.staged.branches.getD p BranchPolicy.factory).limits with zone := zoneOf s.pol.staged.zones p } := by
  obtain ⟨t, w, ht, hw, hrun⟩ := copyPolicy_eq s
  have hlimits : t.br p = (s.br p).relimited (s.pol.staged.branches.getD p BranchPolicy.factory).limits ∧
      t.branches.length = 24 := by
    obtain ⟨x, ⟨hx, hxl⟩, hbr, hone⟩ := forEach_br_once (fun x => x.pol.active = s.pol.staged ∧ x.branches.length = 24)
      State.copyLimits (fun x q hx => ⟨hx.1, (copyLimits_length x q).trans hx.2⟩)
      (fun x q r _ hr => modBr_br_ne x _ hr.symm) Config.positions List.nodup_range
      { s with pol.active := s.pol.staged, pol.dirty := false } ⟨rfl, h⟩ (mem_positions.2 hp)
    rw [ht]
    refine ⟨hone.trans ?_, ?_⟩
    · rw [copyLimits_eq, modBr_br_self x p _ (Nat.lt_of_lt_of_eq hp hxl.symm), hbr]
      unfold State.policyOf
      rw [hx]; rfl
    · exact (forEach_leaves (fun s : State => s.branches.length) State.copyLimits copyLimits_length _ _).trans h
  have hzone : w.br p = { t.br p with zone := zoneOf s.pol.staged.zones p } ∧ w.branches.length = 24 := by
    obtain ⟨x, hxl, hbr, hone⟩ := forEach_br_once (fun x => x.branches.length = 24)
      (fun (s' : State) (p : Position) => s'.modBr p (fun b => { b with zone := zoneOf s.pol.staged.zones p }))
      (fun x q hx => (modBr_branches_length x q _).trans hx)
      (fun x q r _ hr => modBr_br_ne x _ hr.symm) Config.positions List.nodup_range
      { t with pol.derived := s.pol.staged.derive t.budget } hlimits.2 (mem_positions.2 hp)
    rw [hw]
    refine ⟨hone.trans ?_, ?_⟩
    · rw [modBr_br_self x p _ (Nat.lt_of_lt_of_eq hp hxl.symm), hbr]; rfl
    · exact (forEach_leaves (fun s : State => s.branches.length) (fun (s' : State) (p : Position) => s'.modBr p (fun b => { b with
        zone := zoneOf s.pol.staged.zones p })) (fun s' p => modBr_branches_length s' p _) _ _).trans hlimits.2
  have hguards := (deriveGuards_br Config.positions w p List.nodup_range
    (fun q hq => Nat.lt_of_lt_of_eq (mem_positions.1 hq) hzone.2.symm)).1
  rw [if_pos (mem_positions.2 hp), ← hrun] at hguards
  have hcap : w.pol.active = s.pol.staged := by
    have e : s.copyPolicy.pol = w.pol := by rw [hrun, deriveGuards_leaves State.pol (fun _ _ _ => rfl)]
    rw [← e, copyPolicy_pol]; rfl
  have hguard : s.copyPolicy.guardOf p = w.guardOf p := by
    have hz : (s.copyPolicy.br p).zone = (w.br p).zone := by rw [hguards]
    have hs : s.copyPolicy.sense = w.sense := by rw [hrun, deriveGuards_leaves State.sense (fun _ _ _ => rfl)]
    unfold State.guardOf State.chan
    rw [hz, hs]
  rw [hguard, hguards, hcap, hzone.1, hlimits.1]; rfl

/-- A branch after the copy is of the state, the request and the stamp it had (R58). -/
theorem copyPolicy_field {γ : Type} (f : Branch → γ)
    (hf : ∀ (b : Branch) l o z g e, f { b with limits := l, trimOffset := o, zone := z, guardLevel := g, effCeiling := e } = f b)
    {s : State} (h : s.branches.length = 24) {p : Position} (hp : p < 24) : f (s.copyPolicy.br p) = f (s.br p) := by
  rw [copyPolicy_br h hp]
  exact hf (s.br p) _ _ _ _ _

theorem copyPolicy_sound {g m : Bool} {s : State} (h : s.Sound g m) : s.copyPolicy.Sound g m :=
  h.of_same (copyPolicy_leaves (fun s => s.link.outbound) (fun _ _ _ => rfl) s) (copyPolicy_leaves State.bus (fun _ _ _ => rfl) s)

end Sys2Proof.Machine

/-! ## An apply (R58): what follows the copy, up to the pass -/

namespace Sys2Proof.Machine

-- One after another: side by side the proofs of the whole text take more memory than a check may.
set_option Elab.async false

/-! ### Step 4: the supply record, the trims and the hall line (R24, R60, R61) -/

theorem reage_leaves {α : Type} (f : State → α) (hf : ∀ (s : State) x, f { s with arb.supply := x } = f s) (s b : State) :
    f (s.reage b) = f s := by
  unfold State.reage; split
  · dsimp only; split
    · exact hf s _
    · exact hf s _
  · rfl

theorem rehall_leaves {α : Type} (f : State → α) (hf : ∀ (s : State) x, f { s with hall := x } = f s) (s b : State) :
    f (s.rehall b) = f s := by
  unfold State.rehall; split
  · exact hf s _
  · rfl

/-- A branch record without its trim, and without what a pass or a change of drive may write. -/
def Branch.poised (b : Branch) : Branch := { b.still with trim := none }

theorem poised_of_still {s t : State} (h : t.still = s.still) : State.Same Branch.poised s t :=
  State.Same.view (g := Branch.still) (fun b => { b with trim := none }) (congrArg State.branches h) (fun _ => rfl)

theorem nextStamp_of_still {s t : State} (h : t.still = s.still) : t.arb.nextStamp = s.arb.nextStamp :=
  show t.still.arb.nextStamp = s.still.arb.nextStamp by rw [h]

theorem modBr_poised (s : State) (p : Position) (f : Branch → Branch) (hf : ∀ b, (f b).poised = b.poised) :
    State.Same Branch.poised s (s.modBr p f) := (State.Same.refl _ s).modBr p f hf

theorem cancelTrim_poised (s : State) (p : Position) (c : TrimAbort) : State.Same Branch.poised s (s.cancelTrim p c) :=
  (modBr_poised s p (fun b => { b with trim := none }) (fun _ => rfl)).trans (poised_of_still (cancelTrim_still s p c))

/-- What a changed curve does to a branch is no business of its policy fields, its state or its request (R60). -/
theorem recurve_poised (s b : State) (p : Position) : State.Same Branch.poised s (s.recurve b p) := by
  unfold State.recurve; split
  · have h := cancelTrim_poised s p .policyChanged
    dsimp only; split
    · exact h.trans (poised_of_still (handOver_still _ p))
    · exact (h.trans (modBr_poised _ p (fun b => { b with driveChanged := true }) (fun _ => rfl))).trans
        (poised_of_still (unsettle_still _ p _))
  · exact .refl _ s

theorem recurve_leaves {α : Type} (f : State → α) (hb : ∀ (s : State) p g, f (s.modBr p g) = f s)
    (hs : ∀ s t : State, t.still = s.still → f t = f s) (s b : State) (p : Position) : f (s.recurve b p) = f s := by
  have hc : f (s.cancelTrim p .policyChanged) = f s := (hs _ _ (cancelTrim_still s p _)).trans (hb s p _)
  unfold State.recurve; split
  · dsimp only; split
    · exact (hs _ _ (handOver_still _ p)).trans hc
    · exact ((hs _ _ (unsettle_still _ p _)).trans (hb _ p _)).trans hc
  · rfl

theorem recurve_sound {g m : Bool} {s : State} (b : State) (p : Position) (h : s.Sound g m) : (s.recurve b p).Sound g m := by
  have hc := cancelTrim_sound p .policyChanged h
  unfold State.recurve; split
  · dsimp only; split
    · exact handOver_sound _ hc
    · exact unsettle_sound _ _ (modBr_sound _ _ hc)
  · exact h

/-! ### Step 5: the occupancy of a branch (R15) -/

theorem vacate_sound {g m : Bool} {s : State} (p : Position) (h : s.Sound g m) : (s.vacate p).Sound g m :=
  shutBranch_sound _ (clearArbiterFields_sound _ (modBr_sound _ _ h))

theorem occupy_sound {g m : Bool} {s : State} (p : Position) (h : s.Sound g m) : (s.occupy p).Sound g m :=
  returnRule_sound _ (takeStamp_sound _ (modBr_sound _ _ h))

theorem occupancy_sound {g m : Bool} {s : State} (p : Position) (h : s.Sound g m) : (s.occupancy p).Sound g m := by
  unfold State.occupancy; split
  · exact vacate_sound p h
  · exact occupy_sound p h
  · exact h

/-- A branch record as its occupancy asks for it (R15). -/
def Branch.occupiedBy (occupied : Bool) (b : Branch) : Branch := match b.state, occupied with
  | .active, false => { b with state := .vacant, request := 0, urgent := false, stamp := none }
  | .vacant, true => { b with state := .active, request := b.limits.entryRequest }
  | _, _ => b

theorem occupiedBy_left {b : Branch} (h : b.state = .active) : b.occupiedBy false =
    { b with state := .vacant, request := 0, urgent := false, stamp := none } := by
  unfold Branch.occupiedBy; rw [h]

theorem occupiedBy_entered {b : Branch} (h : b.state = .vacant) : b.occupiedBy true =
    { b with state := .active, request := b.limits.entryRequest } := by
  unfold Branch.occupiedBy; rw [h]

theorem occupiedBy_stays {b : Branch} {o : Bool} (h : ¬ (b.state = .active ∧ o = false)) (k : ¬ (b.state = .vacant ∧ o = true)) :
    b.occupiedBy o = b := by
  unfold Branch.occupiedBy; split
  · rename_i e; exact absurd ⟨e, rfl⟩ h
  · rename_i e; exact absurd ⟨e, rfl⟩ k
  · rfl

/-- What the occupancy of branch `p` makes of a state. -/
structure State.Occupies (p : Position) (s t : State) : Prop where
  beside : t.beside = s.beside
  length : t.branches.length = s.branches.length
  others : ∀ q, q ≠ p → (t.br q).poised.unstamped = (s.br q).poised.unstamped
  self : (t.br p).poised.unstamped = ((s.br p).occupiedBy (s.policyOf p).occupied).poised.unstamped
  unstamped : (s.br p).state = .active → (s.policyOf p).occupied = false → (t.br p).stamp = none
  inactive : ∀ q, q ≠ p → (s.br q).state ≠ .active → (t.br q).stamp = (s.br q).stamp
  below : s.arb.nextStamp < 4294967295 →
    (∀ q, q ≠ p → (t.br q).stamp = (s.br q).stamp) ∧
    ((s.br p).state = .active → (s.policyOf p).occupied = true → (t.br p).stamp = (s.br p).stamp) ∧
    ((s.br p).state = .vacant → (s.policyOf p).occupied = true → (t.br p).stamp = some s.arb.nextStamp) ∧
    t.arb.nextStamp = s.arb.nextStamp +
      (if (s.br p).state = .vacant ∧ (s.policyOf p).occupied = true then 1 else 0)

theorem vacate_still (s : State) (p : Position) : (s.vacate p).still =
    (s.modBr p (fun b => { b with state := .vacant, request := 0, urgent := false, stamp := none, trim := none })).still := by
  unfold State.vacate State.clearArbiterFields
  rw [shutBranch_still, cancelTrim_still, modBr_modBr, modBr_modBr]
  have h := modBr_still (s.modBr p (fun b => { b with
      state := .vacant, request := 0, urgent := false, stamp := none, trim := none })) p
    (fun b => { b with riseWaiting := false, cut := none }) (fun _ => rfl)
  rw [modBr_modBr] at h
  exact h

/-- A branch leaves ACTIVE for VACANT (R11, R15). -/
theorem vacate_occupies {s : State} {p : Position} (h : p < s.branches.length) (ha : (s.br p).state = .active)
    (ho : (s.policyOf p).occupied = false) : s.Occupies p (s.vacate p) := by
  have hstill := vacate_still s p
  have hself := (br_still hstill p).trans (congrArg Branch.still (modBr_br_self s p _ h))
  have hother (q : Position) (hq : q ≠ p) : ((s.vacate p).br q).still = (s.br q).still :=
    (br_still hstill q).trans (congrArg Branch.still (modBr_br_ne s _ hq.symm))
  have hpoised (b : Branch) : b.poised = { b.still with trim := none } := rfl
  refine ⟨(beside_of_still hstill).trans (beside_modBr s p _), (length_of_still hstill).trans (modBr_branches_length ..), fun q hq => ?_, ?_, fun _ _ => ?_,
    fun q hq _ => field_of_view (g := Branch.still) Branch.stamp (hother q hq) (fun _ => rfl), fun _ =>
    ⟨fun q hq => field_of_view (g := Branch.still) Branch.stamp (hother q hq) (fun _ => rfl),
      fun _ e => absurd (ho.symm.trans e) Bool.false_ne_true, fun _ e => absurd (ho.symm.trans e) Bool.false_ne_true, ?_⟩⟩
  · rw [hpoised, hpoised, hother q hq]
  · rw [hpoised, hself]
    rw [ho, occupiedBy_left ha]; rfl
  · exact field_of_view (g := Branch.still) Branch.stamp hself (fun _ => rfl)
  · rw [if_neg (fun e => absurd (ho.symm.trans e.2) Bool.false_ne_true)]
    exact (nextStamp_of_still hstill).trans (Eq.refl s.arb.nextStamp)

/-- A stamp taken leaves a branch that is not ACTIVE its own (R26). -/
theorem takeStamp_stamp_inactive {s : State} (h : s.branches.length = 24) {p q : Position} (hq : q ≠ p)
    (ha : (s.br q).state ≠ .active) : ((s.takeStamp p).br q).stamp = (s.br q).stamp := by
  rcases Nat.lt_or_ge s.arb.nextStamp 4294967295 with hn | hn
  · rw [takeStamp_below hn, giveStamp_br_ne s hq.symm]
  · obtain ⟨-, hrest, -⟩ := giveStamps s.byStamp { s with arb.nextStamp := 1 } (byStamp_nodup s)
      (fun r hr => Nat.lt_of_lt_of_eq (mem_byStamp.1 hr).1 h.symm)
    rw [takeStamp_end hn, giveStamp_br_ne _ hq.symm, hrest q (fun hm => ha (mem_byStamp.1 hm).2.1)]; rfl

/-- A branch enters ACTIVE from VACANT (R15, R26). -/
theorem occupy_occupies {s : State} {p : Position} (h : s.branches.length = 24) (hp : p < 24) (ha : (s.br p).state = .vacant)
    (ho : (s.policyOf p).occupied = true) : s.Occupies p (s.occupy p) := by
  obtain ⟨m, hm⟩ : ∃ m, m = s.modBr p (fun b => { b with
    state := .active, request := b.limits.entryRequest, controlTarget := some 0 }) := ⟨_, rfl⟩
  have hlen : m.branches.length = 24 := by rw [hm]; exact (modBr_branches_length ..).trans h
  have hself : m.br p = { s.br p with state := .active, request := (s.br p).limits.entryRequest, controlTarget := some 0 } := by
    rw [hm]; exact modBr_br_self s p _ (Nat.lt_of_lt_of_eq hp h.symm)
  have hother (q : Position) (hq : q ≠ p) : m.br q = s.br q := by rw [hm]; exact modBr_br_ne s _ hq.symm
  have hbeside : m.beside = s.beside := by rw [hm]; exact beside_modBr s p _
  have hnext : m.arb.nextStamp = s.arb.nextStamp := by rw [hm]; rfl
  have hrun : s.occupy p = (m.takeStamp p).returnRule p := by rw [hm]; rfl
  have hbr (q : Position) : (s.occupy p).br q = (m.takeStamp p).br q := by
    rw [hrun]; exact br_congr (returnRule_branches _ p) q
  have hview (q : Position) : ((s.occupy p).br q).poised.unstamped = (m.br q).poised.unstamped := by
    rw [hbr]
    exact field_of_view (g := Branch.unstamped) (fun b => b.poised.unstamped) ((takeStamp_unstamped m p).br q) (fun _ => rfl)
  refine ⟨?_, ?_, fun q hq => by rw [hview, hother q hq], ?_, fun e => absurd (ha.symm.trans e) (by decide), fun q hq e => ?_,
    fun hn => ⟨fun q hq => ?_, fun e => absurd (ha.symm.trans e) (by decide), fun _ _ => ?_, ?_⟩⟩
  · rw [hrun]; exact ((beside_of_still (returnRule_still _ p)).trans (beside_takeStamp m p)).trans hbeside
  · rw [hrun, congrArg List.length (returnRule_branches _ p), (takeStamp_unstamped m p).length, hlen, h]
  · rw [hview, hself, ho, occupiedBy_entered ha]; rfl
  · rw [hbr, takeStamp_stamp_inactive hlen hq (by rw [hother q hq]; exact e), hother q hq]
  · rw [hbr, takeStamp_below (hnext.symm ▸ hn), giveStamp_br_ne m hq.symm, hother q hq]
  · rw [hbr, takeStamp_below (hnext.symm ▸ hn), giveStamp_br_self (Nat.lt_of_lt_of_eq hp hlen.symm), hnext]
  · rw [hrun, nextStamp_of_still (returnRule_still _ p), takeStamp_below (hnext.symm ▸ hn), if_pos ⟨ha, ho⟩]
    exact congrArg (· + 1) hnext

/-- Step 5 on a branch (R15). -/
theorem occupancy_occupies {s : State} {p : Position} (h : s.branches.length = 24) (hp : p < 24) :
    s.Occupies p (s.occupancy p) := by
  by_cases h1 : (s.br p).state = .active ∧ (s.policyOf p).occupied = false
  · have hrun : s.occupancy p = s.vacate p := by unfold State.occupancy; rw [h1.1, h1.2]
    rw [hrun]; exact vacate_occupies (Nat.lt_of_lt_of_eq hp h.symm) h1.1 h1.2
  · by_cases h2 : (s.br p).state = .vacant ∧ (s.policyOf p).occupied = true
    · have hrun : s.occupancy p = s.occupy p := by unfold State.occupancy; rw [h2.1, h2.2]
      rw [hrun]; exact occupy_occupies h hp h2.1 h2.2
    · have hrun : s.occupancy p = s := by
        unfold State.occupancy; split
        · rename_i e o; exact absurd ⟨e, o⟩ h1
        · rename_i e o; exact absurd ⟨e, o⟩ h2
        · rfl
      rw [hrun]
      exact ⟨rfl, rfl, fun _ _ => rfl, by rw [occupiedBy_stays h1 h2], fun e o => absurd ⟨e, o⟩ h1, fun _ _ _ => rfl,
        fun _ => ⟨fun _ _ => rfl, fun _ _ => rfl, fun e o => absurd ⟨e, o⟩ h2, by rw [if_neg h2]; rfl⟩⟩

end Sys2Proof.Machine

/-! ## An apply (R58): the occupancy of every branch, and the stamps of the newcomers (R15, R26) -/

namespace Sys2Proof.Machine

-- One after another: side by side the proofs of the whole text take more memory than a check may.
set_option Elab.async false

/-- How many VACANT branches below a position are to be occupied (R15). -/
def State.newBelow (s : State) (k : Nat) : Nat :=
  ((List.range k).filter (fun q => (s.br q).state = .vacant && (s.policyOf q).occupied)).length

theorem newBelow_le (s : State) (k : Nat) : s.newBelow k ≤ k :=
  Nat.le_trans (List.length_filter_le _ _) (Nat.le_of_eq List.length_range)

theorem newBelow_succ (s : State) (k : Nat) : s.newBelow (k + 1) =
    s.newBelow k + if (s.br k).state = .vacant ∧ (s.policyOf k).occupied = true then 1 else 0 := by
  unfold State.newBelow
  rw [List.range_succ, List.filter_append, List.length_append]
  refine congrArg _ ?_
  by_cases h : (s.br k).state = .vacant ∧ (s.policyOf k).occupied = true
  · rw [if_pos h, List.filter_cons_of_pos (by simpa using h)]; rfl
  · rw [if_neg h, List.filter_cons_of_neg (by simpa using h)]; rfl

/-- What an occupancy writes depends on what it does not hide. -/
theorem occupiedBy_view (b : Branch) (o : Bool) :
    (b.occupiedBy o).poised.unstamped = (b.poised.unstamped.occupiedBy o).poised.unstamped := by
  by_cases h1 : b.state = .active ∧ o = false
  · obtain ⟨h, rfl⟩ := h1
    rw [occupiedBy_left h, occupiedBy_left (show b.poised.unstamped.state = .active from h)]; rfl
  · by_cases h2 : b.state = .vacant ∧ o = true
    · obtain ⟨h, rfl⟩ := h2
      rw [occupiedBy_entered h, occupiedBy_entered (show b.poised.unstamped.state = .vacant from h)]; rfl
    · rw [occupiedBy_stays h1 h2, occupiedBy_stays (b := b.poised.unstamped) h1 h2]; rfl

/-- The branches below `k` are as their occupancy asks for it, and the others as they were (R15). -/
structure State.OccupiedTo (b : State) (k : Nat) (s : State) : Prop where
  beside : s.beside = b.beside
  length : s.branches.length = 24
  done : ∀ q, q < k → (s.br q).poised.unstamped = ((b.br q).occupiedBy (b.policyOf q).occupied).poised.unstamped
  rest : ∀ q, k ≤ q → (s.br q).poised.unstamped = (b.br q).poised.unstamped
  left : ∀ q, q < k → (b.br q).state = .active → (b.policyOf q).occupied = false → (s.br q).stamp = none
  stamps : b.arb.nextStamp + 24 ≤ 4294967295 →
    s.arb.nextStamp = b.arb.nextStamp + b.newBelow k ∧
    (∀ q, q < k → (b.br q).state = .active → (b.policyOf q).occupied = true → (s.br q).stamp = (b.br q).stamp) ∧
    (∀ q, q < k → (b.br q).state = .vacant → (b.policyOf q).occupied = true →
      (s.br q).stamp = some (b.arb.nextStamp + b.newBelow q)) ∧
    (∀ q, k ≤ q → (s.br q).stamp = (b.br q).stamp)

theorem policyOf_of_beside {s t : State} (h : t.beside = s.beside) (p : Position) : t.policyOf p = s.policyOf p := by
  have e : t.pol = s.pol := congrArg Prod.fst h
  unfold State.policyOf; rw [e]

theorem State.OccupiedTo.step {b s t : State} {k : Nat} (h : b.OccupiedTo k s) (hk : k < 24) (o : s.Occupies k t) :
    b.OccupiedTo (k + 1) t := by
  have hpol : s.policyOf k = b.policyOf k := policyOf_of_beside h.beside k
  have hstate : (s.br k).state = (b.br k).state :=
    field_of_view (g := fun x => x.poised.unstamped) Branch.state (h.rest k (Nat.le_refl k)) (fun _ => rfl)
  have below {q : Position} (hq : q < k + 1) : q = k ∨ q ≠ k ∧ q < k :=
    (Nat.lt_succ_iff_lt_or_eq.1 hq).symm.imp_right (fun h => ⟨Nat.ne_of_lt h, h⟩)
  have above {q : Position} (hq : k + 1 ≤ q) : q ≠ k ∧ k ≤ q := ⟨Nat.ne_of_gt hq, Nat.le_of_succ_le hq⟩
  refine ⟨o.beside.trans h.beside, o.length.trans h.length, fun q hq => ?_, fun q hq => ?_, fun q hq ha hn => ?_, fun hmax => ?_⟩
  · rcases below hq with rfl | ⟨hne, hlt⟩
    · rw [o.self, hpol, occupiedBy_view, h.rest q (Nat.le_refl q), ← occupiedBy_view]
    · exact (o.others q hne).trans (h.done q hlt)
  · exact (o.others q (above hq).1).trans (h.rest q (above hq).2)
  · rcases below hq with rfl | ⟨hne, hlt⟩
    · exact o.unstamped (hstate.trans ha) (hpol ▸ hn)
    · have hgone : (s.br q).state = .vacant := by
        have e := field_of_view (g := fun x => x.poised.unstamped) Branch.state (h.done q hlt) (fun _ => rfl)
        rw [e, hn, occupiedBy_left ha]
      exact (o.inactive q hne (by rw [hgone]; exact fun e => nomatch e)).trans (h.left q hlt ha hn)
  · obtain ⟨s1, s2, s3, s4⟩ := h.stamps hmax
    have hnext : s.arb.nextStamp < 4294967295 := by
      have := newBelow_le b k
      omega
    obtain ⟨o1, o2, o3, o4⟩ := o.below hnext
    refine ⟨?_, fun q hq ha hy => ?_, fun q hq hv hy => ?_, fun q hq => (o1 q (above hq).1).trans (s4 q (above hq).2)⟩
    · rw [o4, s1, newBelow_succ, hstate, hpol, Nat.add_assoc]
    · rcases below hq with rfl | ⟨hne, hlt⟩
      · exact (o2 (hstate.trans ha) (hpol ▸ hy)).trans (s4 q (Nat.le_refl q))
      · exact (o1 q hne).trans (s2 q hlt ha hy)
    · rcases below hq with rfl | ⟨hne, hlt⟩
      · rw [o3 (hstate.trans hv) (hpol ▸ hy), s1]
      · exact (o1 q hne).trans (s3 q hlt hv hy)

/-- Step 5 of an apply on every branch (R15). -/
theorem occupancies {b : State} (h : b.branches.length = 24) :
    b.OccupiedTo 24 (b.forEach Config.positions State.occupancy) := by
  have hto (k : Nat) : k ≤ 24 → b.OccupiedTo k (b.forEach (List.range k) State.occupancy) := by
    induction k with
    | zero =>
      exact fun _ => ⟨rfl, h, fun _ hq => absurd hq (Nat.not_lt_zero _), fun _ _ => rfl, fun _ hq => absurd hq (Nat.not_lt_zero _),
        fun _ => ⟨rfl, fun _ hq => absurd hq (Nat.not_lt_zero _), fun _ hq => absurd hq (Nat.not_lt_zero _), fun _ _ => rfl⟩⟩
    | succ k ih =>
      intro hk
      have hprev := ih (Nat.le_of_succ_le hk)
      have hrun : b.forEach (List.range (k + 1)) State.occupancy = (b.forEach (List.range k) State.occupancy).occupancy k := by
        unfold State.forEach
        rw [List.range_succ, List.foldl_append]; rfl
      rw [hrun]
      exact State.OccupiedTo.step hprev hk (occupancy_occupies hprev.length hk)
  exact hto 24 (Nat.le_refl 24)

/-- The state of a branch once its occupancy is as asked for (R15). -/
theorem occupiedBy_state {b : Branch} {o : Bool} :
    (b.state = .active → o = true → (b.occupiedBy o).state = .active ∧ (b.occupiedBy o).request = b.request ∧
      (b.occupiedBy o).urgent = b.urgent) ∧
    (b.state = .active → o = false → (b.occupiedBy o).state = .vacant ∧ (b.occupiedBy o).request = 0 ∧
      (b.occupiedBy o).urgent = false) ∧
    (b.state = .vacant → o = true → (b.occupiedBy o).state = .active ∧ (b.occupiedBy o).request = b.limits.entryRequest) ∧
    (b.state = .vacant → o = false → (b.occupiedBy o).state = .vacant) ∧
    (b.state ≠ .active → b.state ≠ .vacant → (b.occupiedBy o).state = b.state) := by
  have stays (h : ¬ (b.state = .active ∧ o = false)) (k : ¬ (b.state = .vacant ∧ o = true)) := occupiedBy_stays h k
  refine ⟨fun h ho => ?_, fun h ho => ?_, fun h ho => ?_, fun h ho => ?_, fun h k => ?_⟩
  · rw [stays (fun e => absurd (ho.symm.trans e.2) (by decide)) (fun e => absurd (h.symm.trans e.1) (by decide))]
    exact ⟨h, rfl, rfl⟩
  · rw [ho, occupiedBy_left h]; exact ⟨rfl, rfl, rfl⟩
  · rw [ho, occupiedBy_entered h]; exact ⟨rfl, rfl⟩
  · rw [stays (fun e => absurd (h.symm.trans e.1) (by decide)) (fun e => absurd (ho.symm.trans e.2) (by decide))]
    exact h
  · rw [stays (fun e => h e.1) (fun e => k e.1)]

/-- The policy fields of a branch, its guard and its ceiling are no business of its occupancy. -/
theorem occupiedBy_field {γ : Type} (f : Branch → γ)
    (hf : ∀ (b : Branch) s r u t, f { b with state := s, request := r, urgent := u, stamp := t } = f b) (b : Branch) (o : Bool) :
    f (b.occupiedBy o) = f b := by
  unfold Branch.occupiedBy; split
  · exact hf b .vacant 0 false none
  · exact hf b .active b.limits.entryRequest b.urgent b.stamp
  · rfl

end Sys2Proof.Machine

/-! ## APPLY_POLICY of a staged copy without error (R54–R62) -/

namespace Sys2Proof.Machine

-- One after another: side by side the proofs of the whole text take more memory than a check may.
set_option Elab.async false

/-! ### The apply up to its occupancies, and up to its pass (R58) -/

/-- The part with the policy copied, the supply record aged, and trims and hall line seen to: steps 1 to 4. -/
def State.recast (b : State) : State :=
  ((b.copyPolicy.reage b).forEach Config.positions (fun s p => s.recurve b p)).rehall b

/-- The part before the pass of an apply: steps 1 to 5. -/
def State.resettled (b : State) : State := b.recast.forEach Config.positions State.occupancy

theorem applyPolicy_eq (b : State) : b.applyPolicy = b.resettled.pass
    (Config.positions.filter (fun p => (b.br p).state = .active && (b.resettled.br p).state ≠ .active))
    (if (decide ((b.copyPolicy.reage b).arb.supply.state = .stale) && decide (b.arb.supply.state ≠ .stale)) = true
      then [.staleEntered] else []) := rfl

theorem recast_eq (b : State) : b.recast =
    ((b.copyPolicy.reage b).forEach Config.positions (fun s p => s.recurve b p)).rehall b := rfl

theorem recast_sound {g m : Bool} {b : State} (h : b.Sound g m) : b.recast.Sound g m := by
  have h1 : (b.copyPolicy.reage b).Sound g m := (copyPolicy_sound h).of_same
    (reage_leaves (fun s => s.link.outbound) (fun _ _ => rfl) _ b) (reage_leaves State.bus (fun _ _ => rfl) _ b)
  have h2 : ((b.copyPolicy.reage b).forEach Config.positions (fun s p => s.recurve b p)).Sound g m :=
    forEach_sound _ h1 (fun _ p h => recurve_sound b p h)
  rw [recast_eq]
  exact h2.of_same (rehall_leaves (fun s => s.link.outbound) (fun _ _ => rfl) _ b) (rehall_leaves State.bus (fun _ _ => rfl) _ b)

theorem resettled_sound {g m : Bool} {b : State} (h : b.Sound g m) : b.resettled.Sound g m :=
  forEach_sound _ (recast_sound h) (fun _ p h => occupancy_sound p h)

theorem beside_parts {s : State} {x : PolicyUnit × SupplyRecord × Sense × List (Option Case) × Sequencer × Store × List AfterPass}
    (h : s.beside = x) : s.pol = x.1 ∧ s.arb.supply = x.2.1 ∧ s.sense = x.2.2.1 ∧ s.cases = x.2.2.2.1 ∧
      s.iso = x.2.2.2.2.1 ∧ s.store = x.2.2.2.2.2.1 ∧ s.work.after = x.2.2.2.2.2.2 := by
  rw [← h]; exact ⟨rfl, rfl, rfl, rfl, rfl, rfl, rfl⟩

/-- What neither the work on trims nor the hall line writes. -/
theorem recast_leaves {α : Type} (f : State → α) (hb : ∀ (s : State) p g, f (s.modBr p g) = f s)
    (hs : ∀ s t : State, t.still = s.still → f t = f s) (hh : ∀ (s : State) x, f { s with hall := x } = f s) (b : State) :
    f b.recast = f (b.copyPolicy.reage b) := by
  rw [recast_eq, rehall_leaves f hh]
  exact forEach_leaves f (fun s p => s.recurve b p) (fun s p => recurve_leaves f hb hs s b p) _ _

/-- Beside the branches steps 1 to 4 write the policy unit and the supply record. -/
theorem recast_beside (b : State) : b.recast.beside =
    (b.copiedUnit, (b.copyPolicy.reage b).arb.supply, b.sense, b.cases, b.iso, b.store, b.work.after) := by
  have h1 : b.recast.beside = (b.copyPolicy.reage b).beside :=
    recast_leaves State.beside beside_modBr (fun _ _ h => beside_of_still h) (fun _ _ => rfl) b
  have h2 {α : Type} (f : State → α) (hf : ∀ (s : State) x, f { s with arb := x } = f s)
      (hc : ∀ (s : State) x y, f { s with branches := x, pol := y } = f s) : f (b.copyPolicy.reage b) = f b :=
    (reage_leaves f (fun s x => hf s { s.arb with supply := x }) _ b).trans (copyPolicy_leaves f hc b)
  have hpol : (b.copyPolicy.reage b).pol = b.copiedUnit :=
    (reage_leaves State.pol (fun _ _ => rfl) _ b).trans (copyPolicy_pol b)
  rw [h1]
  unfold State.beside
  rw [hpol, h2 State.sense (fun _ _ => rfl) (fun _ _ _ => rfl), h2 State.cases (fun _ _ => rfl) (fun _ _ _ => rfl),
    h2 State.iso (fun _ _ => rfl) (fun _ _ _ => rfl), h2 State.store (fun _ _ => rfl) (fun _ _ _ => rfl),
    h2 (fun s => s.work.after) (fun _ _ => rfl) (fun _ _ _ => rfl)]

theorem recast_nextStamp (b : State) : b.recast.arb.nextStamp = b.arb.nextStamp := by
  have h1 : b.recast.arb.nextStamp = (b.copyPolicy.reage b).arb.nextStamp :=
    recast_leaves (fun s => s.arb.nextStamp) (fun _ _ _ => rfl) (fun _ _ h => nextStamp_of_still h) (fun _ _ => rfl) b
  exact (h1.trans (reage_leaves (fun s => s.arb.nextStamp) (fun _ _ => rfl) _ b)).trans
    (copyPolicy_leaves (fun s => s.arb.nextStamp) (fun _ _ _ => rfl) b)

/-- Step 4 leaves policy fields, states, requests and stamps of the branches. -/
theorem recast_poised (b : State) : State.Same Branch.poised b.copyPolicy b.recast := by
  have h1 : State.Same Branch.poised b.copyPolicy (b.copyPolicy.reage b) :=
    (State.Same.refl _ _).table (reage_leaves State.branches (fun _ _ => rfl) _ b)
  rw [recast_eq]
  exact (h1.each _ (fun s p => recurve_poised s b p)).table (rehall_leaves State.branches (fun _ _ => rfl) _ b)

theorem recast_length (b : State) : b.recast.branches.length = b.branches.length :=
  (recast_poised b).length.trans (copyPolicy_length b)

theorem recast_policyOf (b : State) (p : Position) :
    b.recast.policyOf p = b.pol.staged.branches.getD p BranchPolicy.factory := by
  have e : b.recast.pol = b.copiedUnit := (beside_parts (recast_beside b)).1
  unfold State.policyOf; rw [e]; rfl

/-- A field that the copy writes, or that only the occupancy writes, as it is before the occupancies. -/
theorem recast_field {γ : Type} (f : Branch → γ) (hf : ∀ b : Branch, f b.poised = f b) (b : State) (p : Position) :
    f (b.recast.br p) = f (b.copyPolicy.br p) := field_of_view f ((recast_poised b).br p) hf

/-- The branches before the pass, and what stands beside them (R15, R58). -/
theorem resettled_occupied {b : State} (h : b.branches.length = 24) : b.recast.OccupiedTo 24 b.resettled :=
  occupancies ((recast_length b).trans h)

/-- A field that no occupancy writes, before the pass. -/
theorem resettled_field {γ : Type} (f : Branch → γ) (h1 : ∀ b : Branch, f b.poised = f b) (h2 : ∀ b : Branch, f b.unstamped = f b)
    (h3 : ∀ (b : Branch) s r u t, f { b with state := s, request := r, urgent := u, stamp := t } = f b)
    {b : State} (h : b.branches.length = 24) {p : Position} (hp : p < 24) : f (b.resettled.br p) = f (b.copyPolicy.br p) := by
  have e := field_of_view (g := fun x => x.poised.unstamped) f ((resettled_occupied h).done p hp) (fun x => (h2 _).trans (h1 x))
  exact (e.trans (occupiedBy_field f h3 _ _)).trans (recast_field f h1 b p)

/-- State, request and urgency of a branch before the pass, by its occupancy (R15). -/
theorem resettled_state {b : State} (h : b.branches.length = 24) {p : Position} (hp : p < 24) {o : Bool}
    (ho : o = (b.pol.staged.branches.getD p BranchPolicy.factory).occupied) :
    ∃ x : Branch, x.state = (b.br p).state ∧ x.request = (b.br p).request ∧ x.urgent = (b.br p).urgent ∧
      x.limits = (b.pol.staged.branches.getD p BranchPolicy.factory).limits ∧
      (b.resettled.br p).state = (x.occupiedBy o).state ∧ (b.resettled.br p).request = (x.occupiedBy o).request ∧
      (b.resettled.br p).urgent = (x.occupiedBy o).urgent := by
  have hdone := (resettled_occupied h).done p hp
  rw [recast_policyOf, ← ho] at hdone
  have field {γ : Type} (f : Branch → γ) (hf : ∀ x : Branch, f x.poised = f x)
      (hc : ∀ (b : Branch) l o z g e, f { b with limits := l, trimOffset := o, zone := z, guardLevel := g, effCeiling := e } = f b) :
      f (b.recast.br p) = f (b.br p) := (recast_field f hf b p).trans (copyPolicy_field f hc h hp)
  refine ⟨b.recast.br p, field Branch.state (fun _ => rfl) (fun _ _ _ _ _ _ => rfl),
    field Branch.request (fun _ => rfl) (fun _ _ _ _ _ _ => rfl), field Branch.urgent (fun _ => rfl) (fun _ _ _ _ _ _ => rfl),
    ?_, ?_, ?_, ?_⟩
  · rw [recast_field Branch.limits (fun _ => rfl), copyPolicy_br h hp]; rfl
  · exact field_of_view (g := fun x => x.poised.unstamped) Branch.state hdone (fun _ => rfl)
  · exact field_of_view (g := fun x => x.poised.unstamped) Branch.request hdone (fun _ => rfl)
  · exact field_of_view (g := fun x => x.poised.unstamped) Branch.urgent hdone (fun _ => rfl)

end Sys2Proof.Machine

/-! ## APPLY_POLICY: its answer, its notice and what it leaves (R54–R62) -/

namespace Sys2Proof.Machine

-- One after another: side by side the proofs of the whole text take more memory than a check may.
set_option Elab.async false

/-- APPLY_POLICY of a staged copy without error (R57, R58). -/
theorem applyPolicyBlock_applies {s : State} (h : s.jobs.any Job.beforeHold = false) (he : s.pol.staged.error = none)
    {ws : List (ApplyCode × Option Nat)} (hw : ws = s.applyWarnings s.pol.staged) {r : ApplyResult}
    (hr : r = applyRecord s.now (if ws.isEmpty then .done else .doneWarn) ws (ws.map (fun x => x.1))) :
    applyPolicyBlock s = (State.tellApplied { s.applyPolicy with pol.applied := r } s,
      answer (if ws.isEmpty then .done else .doneWarn) (.applyCode r.code r.index)) := by
  unfold applyPolicyBlock
  rw [if_neg (by rw [h]; exact Bool.false_ne_true), he, hr, hw]

/-- POLICY_APPLIED of a policy that has been copied (R62). -/
theorem tellApplied_copied {u b s : State} {r : ApplyResult} (hu : u.pol = { b.copiedUnit with applied := r }) (hb : b.br = s.br) :
    u.tellApplied b = u.notify (.policyApplied {
      result := r.result, warnings := r.warnings
      uncovered := if r.warnings.contains .branchUncovered then b.pol.staged.uncovered.head? else none
      floorSum := b.pol.staged.floorSum, margin := (b.budgetUnder b.pol.staged : Int) - b.pol.staged.floorSum
      changes := u.stateChanges s, shortfall := shortfallCause b.arb.shortfall u.arb.shortfall }) := by
  have hchanges : u.stateChanges b = u.stateChanges s := by unfold State.stateChanges; rw [hb]
  unfold State.tellApplied
  rw [hu, hchanges]; rfl

/-- The branches that leave ACTIVE on an apply: those that their policy leaves unoccupied (R15). -/
theorem resettled_left {b : State} (h : b.branches.length = 24) :
    Config.positions.filter (fun p => (b.br p).state = .active && (b.resettled.br p).state ≠ .active) =
      Config.positions.filter (fun p =>
        (b.br p).state = .active && !(b.pol.staged.branches.getD p BranchPolicy.factory).occupied) := by
  refine List.filter_congr (fun p hp => ?_)
  obtain ⟨x, hx, -, -, -, hstate, -, -⟩ := resettled_state h (mem_positions.1 hp) rfl
  obtain ⟨k1, k2, -⟩ := occupiedBy_state (b := x) (o := (b.pol.staged.branches.getD p BranchPolicy.factory).occupied)
  by_cases ha : (b.br p).state = .active
  · rw [ha, hstate]
    cases ho : (b.pol.staged.branches.getD p BranchPolicy.factory).occupied with
    | true => rw [ho] at k1; rw [(k1 (hx.trans ha) rfl).1]; rfl
    | false => rw [ho] at k2; rw [(k2 (hx.trans ha) rfl).1]; rfl
  · rw [decide_eq_false ha, Bool.false_and, Bool.false_and]

/-- The newcomers below a position, by the staged copy (R15). -/
theorem recast_newBelow {b : State} (h : b.branches.length = 24) {p : Nat} (hp : p < 24) : b.recast.newBelow p =
    ((List.range p).filter (fun q =>
      (b.br q).state = .vacant && (b.pol.staged.branches.getD q BranchPolicy.factory).occupied)).length := by
  unfold State.newBelow
  refine congrArg List.length (List.filter_congr (fun q hq => ?_))
  have hq24 : q < 24 := Nat.lt_trans (List.mem_range.1 hq) hp
  have hstate : (b.recast.br q).state = (b.br q).state := (recast_field Branch.state (fun _ => rfl) b q).trans
    (copyPolicy_field Branch.state (fun _ _ _ _ _ _ => rfl) h hq24)
  rw [hstate, recast_policyOf]

/-- What an apply has made of a branch before the pass (R2, R8, R9, R15, R26, R58). -/
structure Branch.AppliedBy (s : State) (g : BranchPolicy) (p : Position) (x : Branch) : Prop where
  limits : x.limits = g.limits
  zone : x.zone = zoneOf s.pol.staged.zones p
  trim : x.trimOffset =
    (if (s.br p).limits.p0 ≠ g.limits.p0 ∨ (s.br p).limits.pfull ≠ g.limits.pfull then 0 else (s.br p).trimOffset)
  ceiling : x.effCeiling =
    (if x.guardLevel = .unguarded ∧ s.pol.staged.supply.unguardedCap = true then g.limits.floor else g.limits.ceiling)
  stamps : s.arb.nextStamp + 24 ≤ 4294967295 →
    ((s.br p).state = .active → g.occupied = true → x.stamp = (s.br p).stamp) ∧
    ((s.br p).state = .vacant → g.occupied = true → x.stamp = some (s.arb.nextStamp + ((List.range p).filter (fun q =>
      (s.br q).state = .vacant && (s.pol.staged.branches.getD q BranchPolicy.factory).occupied)).length))
  stays : (s.br p).state = .active → g.occupied = true →
    x.state = .active ∧ x.request = (s.br p).request ∧ x.urgent = (s.br p).urgent
  leaves : (s.br p).state = .active → g.occupied = false →
    x.state = .vacant ∧ x.request = 0 ∧ x.urgent = false ∧ x.stamp = none
  enters : (s.br p).state = .vacant → g.occupied = true → x.state = .active ∧ x.request = g.limits.entryRequest
  vacant : (s.br p).state = .vacant → g.occupied = false → x.state = .vacant
  apart : (s.br p).state ≠ .active → (s.br p).state ≠ .vacant → x.state = (s.br p).state

theorem guardedBy_guardLevel (g : Guard) (cap : Bool) (b : Branch) : (b.guardedBy g cap).guardLevel = g := rfl

theorem guardedBy_ceiling (g : Guard) (cap : Bool) (b : Branch) : (b.guardedBy g cap).effCeiling =
    (if (b.guardedBy g cap).guardLevel = .unguarded ∧ cap = true then b.limits.floor else b.limits.ceiling) := by
  unfold Branch.guardedBy Branch.ceilingUnder
  exact ite_of_iff (by simp)

/-- Every branch is as the staged copy asks for it before the pass (R58). -/
theorem resettled_applied {b : State} (h : b.branches.length = 24) {p : Position} (hp : p < 24) {g : BranchPolicy}
    (hg : g = b.pol.staged.branches.getD p BranchPolicy.factory) :
    Branch.AppliedBy b g p (b.resettled.br p) ∧ (b.resettled.br p).guardLevel = b.copyPolicy.guardOf p := by
  have hcopy := copyPolicy_br h hp
  rw [← hg] at hcopy
  have field {γ : Type} (f : Branch → γ) (h1 : ∀ b : Branch, f b.poised = f b) (h2 : ∀ b : Branch, f b.unstamped = f b)
      (h3 : ∀ (b : Branch) s r u t, f { b with state := s, request := r, urgent := u, stamp := t } = f b) :
      f (b.resettled.br p) = f (b.copyPolicy.br p) := resettled_field f h1 h2 h3 h hp
  have hguard := field Branch.guardLevel (fun _ => rfl) (fun _ => rfl) (fun _ _ _ _ _ => rfl)
  obtain ⟨x, x1, x2, x3, x4, x5, x6, x7⟩ := resettled_state h hp (congrArg BranchPolicy.occupied hg)
  obtain ⟨k1, k2, k3, k4, k5⟩ := occupiedBy_state (b := x) (o := g.occupied)
  rw [x1] at k1 k2 k3 k4 k5
  have hrecast {γ : Type} (f : Branch → γ) (hf : ∀ x : Branch, f x.poised = f x)
      (hc : ∀ (b : Branch) l o z g e, f { b with limits := l, trimOffset := o, zone := z, guardLevel := g, effCeiling := e } = f b) :
      f (b.recast.br p) = f (b.br p) := (recast_field f hf b p).trans (copyPolicy_field f hc h hp)
  have hstate : (b.recast.br p).state = (b.br p).state := hrecast Branch.state (fun _ => rfl) (fun _ _ _ _ _ _ => rfl)
  have hstamp : (b.recast.br p).stamp = (b.br p).stamp := hrecast Branch.stamp (fun _ => rfl) (fun _ _ _ _ _ _ => rfl)
  have hpolicy : (b.recast.policyOf p).occupied = g.occupied := by rw [recast_policyOf, hg]
  have hocc := resettled_occupied h
  refine ⟨⟨?_, ?_, ?_, ?_, fun hmax => ?_, fun ha ho => ?_, fun ha ho => ?_, fun hv ho => ?_, fun hv ho => ?_, fun ha hv => ?_⟩, ?_⟩
  · rw [field Branch.limits (fun _ => rfl) (fun _ => rfl) (fun _ _ _ _ _ => rfl), hcopy]; rfl
  · rw [field Branch.zone (fun _ => rfl) (fun _ => rfl) (fun _ _ _ _ _ => rfl), hcopy]; rfl
  · rw [field Branch.trimOffset (fun _ => rfl) (fun _ => rfl) (fun _ _ _ _ _ => rfl), hcopy]
    exact ite_of_iff (by simp)
  · rw [field Branch.effCeiling (fun _ => rfl) (fun _ => rfl) (fun _ _ _ _ _ => rfl), hguard, hcopy,
      guardedBy_ceiling]
    rfl
  · obtain ⟨-, t2, t3, -⟩ := hocc.stamps (by rw [recast_nextStamp]; exact hmax)
    refine ⟨fun ha ho => ?_, fun hv ho => ?_⟩
    · exact (t2 p hp (hstate.trans ha) (hpolicy.trans ho)).trans hstamp
    · rw [t3 p hp (hstate.trans hv) (hpolicy.trans ho), recast_nextStamp, recast_newBelow h hp]
  · rw [x5, x6, x7]
    obtain ⟨e1, e2, e3⟩ := k1 ha ho
    exact ⟨e1, e2.trans x2, e3.trans x3⟩
  · rw [x5, x6, x7]
    obtain ⟨e1, e2, e3⟩ := k2 ha ho
    exact ⟨e1, e2, e3, hocc.left p hp (hstate.trans ha) (hpolicy.trans ho)⟩
  · rw [x5, x6]
    obtain ⟨e1, e2⟩ := k3 hv ho
    rw [x4, ← hg] at e2
    exact ⟨e1, e2⟩
  · rw [x5]; exact k4 hv ho
  · rw [x5]; exact k5 ha hv
  · rw [hguard, hcopy, guardedBy_guardLevel]

end Sys2Proof.Machine

/-! ## APPLY_POLICY as a whole (R54–R62) -/

namespace Sys2Proof.Machine

-- One after another: side by side the proofs of the whole text take more memory than a check may.
set_option Elab.async false

theorem guardOf_congr {s t : State} {p : Position} (hz : (t.br p).zone = (s.br p).zone) (hs : t.sense = s.sense) :
    t.guardOf p = s.guardOf p := by
  unfold State.guardOf State.chan; rw [hz, hs]

/-- An applied branch is so in whatever agrees in `State.still`. -/
theorem Branch.AppliedBy.of_still {s : State} {g : BranchPolicy} {p : Position} {x y : Branch} (h : AppliedBy s g p x)
    (e : y.still = x.still) : AppliedBy s g p y := by
  have field {γ : Type} (f : Branch → γ) (hf : ∀ b : Branch, f b.still = f b) : f y = f x := field_of_view f e hf
  have e1 := field Branch.state (fun _ => rfl)
  have e2 := field Branch.request (fun _ => rfl)
  have e3 := field Branch.urgent (fun _ => rfl)
  have e4 := field Branch.stamp (fun _ => rfl)
  have e5 := field Branch.guardLevel (fun _ => rfl)
  refine ⟨(field Branch.limits (fun _ => rfl)).trans h.limits, (field Branch.zone (fun _ => rfl)).trans h.zone,
    (field Branch.trimOffset (fun _ => rfl)).trans h.trim, ?_, ?_, ?_, ?_, ?_, ?_, ?_⟩
  · rw [e5]; exact (field Branch.effCeiling (fun _ => rfl)).trans h.ceiling
  · rw [e4]; exact h.stamps
  · rw [e1, e2, e3]; exact h.stays
  · rw [e1, e2, e3, e4]; exact h.leaves
  · rw [e1, e2]; exact h.enters
  · rw [e1]; exact h.vacant
  · rw [e1]; exact h.apart

/-- What stands beside the branches before the pass (R58, R59). -/
theorem resettled_beside {b : State} (h : b.branches.length = 24) : b.resettled.beside =
    (b.copiedUnit, (b.copyPolicy.reage b).arb.supply, b.sense, b.cases, b.iso, b.store, b.work.after) :=
  (resettled_occupied h).beside.trans (recast_beside b)

/-- Writing the record of an apply is no business of what `State.still` keeps beside the policy unit. -/
theorem still_applied {u w : State} (h : u.still = w.still) (r : ApplyResult) :
    ({ u with pol.applied := r } : State).still = ({ w with pol.applied := r } : State).still := by
  have e (x : State) : ({ x with pol.applied := r } : State).still = { x.still with pol.applied := r } := rfl
  rw [e, e, h]

theorem supply_applied (s : State) (r : ApplyResult) : ({ s with pol.applied := r } : State).arb.supply = s.arb.supply := rfl

/-- An apply ends in one pass, over the branches that leave ACTIVE (R15, R24, R58). -/
theorem applyPolicy_pass {b : State} (h : b.branches.length = 24) {u : State} (hu : u.arb.supply = b.applyPolicy.arb.supply) :
    b.applyPolicy = b.resettled.pass
      (Config.positions.filter (fun p =>
        (b.br p).state = .active && !(b.pol.staged.branches.getD p BranchPolicy.factory).occupied))
      (if u.arb.supply.state = .stale ∧ b.arb.supply.state ≠ .stale then [.staleEntered] else []) := by
  have hstill : b.applyPolicy.still = b.resettled.still := (congrArg State.still (applyPolicy_eq b)).trans (pass_still _ _ _)
  obtain ⟨-, hsupply, -⟩ := beside_parts (resettled_beside h)
  have hstale : (b.copyPolicy.reage b).arb.supply = u.arb.supply := hsupply.symm.trans ((supply_of_still hstill).symm.trans hu.symm)
  refine (applyPolicy_eq b).trans ?_
  rw [resettled_left h, hstale]
  exact congrArg _ (ite_of_iff (by simp))

section

variable {v u t : State} {r : ApplyResult} (hlen : v.branches.length = 24) (hu : u = { v.applyPolicy with pol.applied := r })

include hu

/-- The part after an apply, its result recorded, agrees with the part before the pass (R31). -/
theorem applied_still : u.still = ({ v.resettled with pol.applied := r } : State).still :=
  (congrArg State.still hu).trans
    (still_applied ((congrArg State.still (applyPolicy_eq v)).trans (pass_still _ _ _)) r)

include hlen

theorem applied_pol : u.pol = { v.copiedUnit with applied := r } := by
  obtain ⟨b1, -⟩ := beside_parts (resettled_beside hlen)
  rw [pol_of_still (applied_still hu)]
  show ({ v.resettled.pol with applied := r } : PolicyUnit) = _
  rw [b1]

/-- The end of the event leaves what `State.still` keeps (R31). -/
theorem applied_concluded (hsound : v.Sound true true) (hwork : v.work = Work.idle) (n : Notice) (i : Instr) (c : Cmd)
    (a : Answer) : ((u.notify n).concluded i c a).still = u.still := by
  have hstill := applied_still hu
  obtain ⟨-, -, -, -, -, -, b7⟩ := beside_parts (resettled_beside hlen)
  have hwsound : v.resettled.Sound true true := resettled_sound hsound
  have husound : v.applyPolicy.Sound true true := by rw [applyPolicy_eq]; exact pass_sound _ _ hwsound
  generalize v.applyPolicy = x at hu husound
  generalize v.resettled = w at hstill b7 hwsound
  have hidle : w.work.after = [] := b7.trans (by rw [hwork]; rfl)
  have hxsound : u.Sound true true := by rw [hu]; exact husound.of_same rfl rfl
  exact (concluded_still_of (v := { w with pol.applied := r }) (u := u.notify n) hidle (hwsound.of_same rfl rfl) hstill
    (fun _ => notify_sound n hxsound) i c a).trans hstill.symm

/-- Beside policy, supply record and branches an apply changes nothing that `State.still` keeps of these. -/
theorem applied_beside (ht : t.still = u.still) : t.sense = v.sense ∧ t.cases = v.cases ∧ t.iso = v.iso ∧ t.store = v.store := by
  have hstill := ht.trans (applied_still hu)
  obtain ⟨-, -, b3, b4, b5, b6, -⟩ := beside_parts (resettled_beside hlen)
  generalize v.resettled = w at hstill b3 b4 b5 b6
  exact ⟨(sense_of_still hstill).trans b3, (cases_of_still hstill).trans b4, (iso_of_still hstill).trans b5,
    (store_of_still hstill).trans b6⟩

omit hlen in
theorem applied_branch (ht : t.still = u.still) (p : Position) : (t.br p).still = (v.resettled.br p).still := by
  have hstill := ht.trans (applied_still hu)
  generalize v.resettled = w at hstill
  exact br_still (s := { w with pol.applied := r }) hstill p

/-- Every branch is as the staged copy asks for it (R58). -/
theorem applied_br (ht : t.still = u.still) {p : Position} (hp : p < 24) {g : BranchPolicy}
    (hg : g = v.pol.staged.branches.getD p BranchPolicy.factory) :
    Branch.AppliedBy v g p (t.br p) ∧ (t.br p).guardLevel = t.guardOf p := by
  obtain ⟨happlied, hguard⟩ := resettled_applied hlen hp hg
  have hbr := applied_branch hu ht p
  have hx := happlied.of_still hbr
  have hsense : t.sense = v.sense := (applied_beside hlen hu ht).1
  refine ⟨hx, ?_⟩
  rw [field_of_view (g := Branch.still) Branch.guardLevel hbr (fun _ => rfl), hguard]
  refine (guardOf_congr ?_ ?_).symm
  · rw [hx.zone, copyPolicy_br hlen hp]; rfl
  · exact hsense.trans (copyPolicy_leaves State.sense (fun _ _ _ => rfl) v).symm

/-- The pass of an apply, from the part before it (R15, R58). -/
theorem applied_pass (ht : t.still = u.still) : ∃ w : State, w.pol = { u.pol with applied := v.pol.applied } ∧
    w.arb.supply = u.arb.supply ∧
    (∀ p, p < 24 → (w.br p).state = (t.br p).state ∧ (w.br p).effCeiling = (t.br p).effCeiling) ∧
    v.applyPolicy = w.pass
      (Config.positions.filter (fun p =>
        (v.br p).state = .active && !(v.pol.staged.branches.getD p BranchPolicy.factory).occupied))
      (if u.arb.supply.state = .stale ∧ v.arb.supply.state ≠ .stale then [.staleEntered] else []) := by
  obtain ⟨b1, -⟩ := beside_parts (resettled_beside hlen)
  have hsupply : u.arb.supply = v.resettled.arb.supply :=
    (supply_of_still (applied_still hu)).trans (supply_applied v.resettled r)
  have hpassed : u.arb.supply = v.applyPolicy.arb.supply := by rw [hu, supply_applied]
  refine ⟨v.resettled, ?_, hsupply.symm, fun p _ => ⟨?_, ?_⟩, applyPolicy_pass hlen hpassed⟩
  · rw [applied_pol hlen hu, b1]; rfl
  · exact (field_of_view (g := Branch.still) Branch.state (applied_branch hu ht p) (fun _ => rfl)).symm
  · exact (field_of_view (g := Branch.still) Branch.effCeiling (applied_branch hu ht p) (fun _ => rfl)).symm

end

/-- The command APPLY_POLICY of a staged copy without error, from the state its block works in (R54, R57, R62). -/
theorem applyPolicy_exec {s v u : State} {c : Cmd} {i : Instr} (hi : i = .applyPolicy c) (ha : s.admits i c)
    (hj : s.jobs.any Job.beforeHold = false) (he : s.pol.staged.error = none) {ws : List (ApplyCode × Option Nat)}
    {r : ApplyResult} (hv : v = s.taking i c) (hws : ws = s.applyWarnings s.pol.staged)
    (hr : r = applyRecord (max s.now c.time) (if ws.isEmpty then .done else .doneWarn) ws (ws.map (fun x => x.1)))
    (hu : u = { v.applyPolicy with pol.applied := r }) :
    exec i s = .next ((u.tellApplied v).concluded i c (answer (if ws.isEmpty then .done else .doneWarn)
      (.applyCode r.code r.index))) := by
  have hc : i.cmd? = some c := by rw [hi]; rfl
  have hb : blockOf i = applyPolicyBlock := by rw [hi]; rfl
  have hrun (x : State) (a : Answer) (h : blockOf i (s.taking i c) = (x, a)) := exec_concluded (t := x) (a := a) hc ha h
  have hjobs : v.jobs.any Job.beforeHold = false := by rw [hv]; exact hj
  have herror : v.pol.staged.error = none := by rw [hv]; exact he
  have hnow : v.now = max s.now c.time := by rw [hv]; rfl
  have hwarn : v.applyWarnings v.pol.staged = s.applyWarnings s.pol.staged := by rw [hv]; rfl
  rw [← hv] at hrun
  rw [← hnow] at hr
  have hblock := applyPolicyBlock_applies hjobs herror (hws.trans hwarn.symm) hr
  rw [← hu] at hblock
  exact hrun _ _ ((congrFun hb v).trans hblock)

/-- Settles O27: the copy, its walks over the branches and its pass leave what the staged copy asks for. -/
theorem applyCopiesStaged : Obligations.ApplyCopiesStaged := by
  intro s c i hi ho ha hj he v ws r u hv hws hr hu
  obtain ⟨hbr, harb, hsound, hwork⟩ := taking_facts ho i c
  have hlen : (s.taking i c).branches.length = 24 := ho.sized.branches
  have haside : (s.taking i c).pol = s.pol ∧ (s.taking i c).sense = s.sense ∧ (s.taking i c).cases = s.cases ∧
      (s.taking i c).iso = s.iso ∧ (s.taking i c).store = s.store ∧ (s.taking i c).budgetUnder = s.budgetUnder :=
    ⟨rfl, rfl, rfl, rfl, rfl, rfl⟩
  have hexec := applyPolicy_exec hi ha hj he hv hws hr hu
  rw [← hv] at hbr harb hsound hwork hlen haside
  clear hv
  obtain ⟨hpol, hsense, hcases, hiso, hstore, hbudget⟩ := haside
  have hupol := applied_pol hlen hu
  have htold := tellApplied_copied (b := v) (s := s) hupol hbr
  have hend := applied_concluded hlen hu hsound hwork
  rw [htold] at hexec
  rw [hpol, hbudget, harb] at hexec
  refine ⟨_, hexec, rfl, hend _ _ _ _, ?_⟩
  generalize ht : (State.concluded _ _ _ _) = t
  have hstill : t.still = u.still := by rw [← ht]; exact hend _ _ _ _
  obtain ⟨e1, e2, e3, e4⟩ := applied_beside hlen hu hstill
  refine ⟨?_, ?_, e1.trans hsense, e2.trans hcases, e3.trans hiso, e4.trans hstore, fun p g hp hg => ?_⟩
  · rw [← hbr, ← hpol, ← harb]; exact applied_pass hlen hu hstill
  · rw [pol_of_still hstill, hupol, ← hpol, ← hbudget]; rfl
  · obtain ⟨hx, hlevel⟩ := applied_br hlen hu hstill hp (hg.trans (by rw [hpol]))
    rw [← hbr, ← hpol, ← harb]
    exact ⟨hx.limits, hx.zone, hx.trim, hlevel, hx.ceiling, hx.stamps, hx.stays, hx.leaves, hx.enters, hx.vacant, hx.apart⟩

end Sys2Proof.Machine
